-- ==== Sys2Proof/Word.lean ====
section
/-!
DEFINITION. The word types of the PD-8192 model and their plainest arithmetic.
-/

namespace Sys2Proof

/-- A byte of SRAM, HBM or host memory. -/
abbrev Byte := BitVec 8
/-- A register word of BAR0 and BAR2 (R48). -/
abbrev W32 := BitVec 32
/-- A scalar register, a command word, a stream word (R84, R286, R321). -/
abbrev W64 := BitVec 64
/-- A vector register or one 32-byte unit (R84, R102). -/
abbrev W256 := BitVec 256

/-- A count that stops at the all-ones value of its width. -/
def satAdd {w : Nat} (a : BitVec w) (n : Nat) : BitVec w :=
  if a.toNat + n < 2 ^ w then BitVec.ofNat w (a.toNat + n) else BitVec.allOnes w

/-- Serial-number order (R175, R263): `a` precedes `b`. -/
def serialLt (a b : W32) : Bool := (a - b).msb

end Sys2Proof
end

