-- ==== Sys2Proof/Syntax.lean ====
section
/-!
DEFINITION. The commands of the block: one constructor of `Instr` for each row of spec/opcode_table.json, with
its operands. The operands name who takes the step (a thread, a ring, a port, a context) and what comes from
outside with it. -/

namespace Sys2Proof

/-- A thread at an issue slot: the tile (TID, R26), the thread 0 to 5, and the tile cycle of the fetch (R83). -/
structure IssueRef where
  tid : Nat
  thr : Nat
  cyc : Nat
deriving DecidableEq, Repr

/-- The fields of a tile instruction beside CLASS and OP (R87). -/
structure Fields where
  d   : BitVec 5
  a   : BitVec 5
  b   : BitVec 5
  mod : BitVec 7
  imm : BitVec 32
deriving DecidableEq, Repr

/-- A context slot of a partition (R39). -/
structure CtxRef where
  part : Nat
  slot : Nat
deriving DecidableEq, Repr

/-- A ring of a physical function (R317). -/
structure RingRef where
  pf   : Nat
  ring : Nat
deriving DecidableEq, Repr

/-- The eight words of a host command (R321). -/
structure CmdWords where
  w0 : W64
  w1 : W64
  w2 : W64
  w3 : W64
  w4 : W64
  w5 : W64
  w6 : W64
  w7 : W64
deriving DecidableEq, Repr

/-- A flag (R222): a tile flag of a tile, or a global flag of a die. -/
inductive FlagRef where
  | tile (tid n : Nat)
  | glob (die n : Nat)
deriving DecidableEq, Repr

/-- A frame as the link carries it (R289): the SOF control word, the payload in 32-byte units, the trailer word. -/
structure Frame where
  sof     : W64
  payload : List W256
  trailer : W64
deriving DecidableEq, Repr

/-- What the FEC says of the codeword that holds a block (R295). -/
structure FecRes where
  corrected     : Nat
  uncorrectable : Bool
deriving DecidableEq, Repr

/-- A read of `size` bytes at offset `off` of BAR0 or BAR2 (R17, R48). -/
structure BarRead where
  bar  : Nat
  off  : Nat
  size : Nat
deriving DecidableEq, Repr

/-- An access through the BAR4 aperture (R315). -/
inductive HostAccess where
  | read  (n : Nat)
  | write (data : List Byte)
deriving DecidableEq, Repr

/-- The value of a BAR write with its size; `other n` is an access of `n` bytes that is neither 4 nor 8 (R48). -/
inductive RegValue where
  | w32   (v : W32)
  | w64   (v : W64)
  | other (n : Nat)
deriving DecidableEq, Repr

/-- What a raise names (R349). `names` is what a rule says that the event names and that no word of its record
carries: by the rule's own order. -/
structure RaiseInfo where
  cxh    : BitVec 16
  tid    : BitVec 13
  thr    : BitVec 3
  ssn    : W32
  detail : W64
  names  : List Nat := []
deriving DecidableEq, Repr

/-- Who makes an access to a register: a physical function of the host, through a BAR of its own, or the
control core of a die, in its die's space (R47, R342). -/
inductive RegBy where
  | host (pf : Nat)
  | core (die : Nat)
deriving DecidableEq, Repr

/-- The junction temperatures of the four dies, signed, in degrees (R360, R390). -/
structure Temps where
  d0 : BitVec 8
  d1 : BitVec 8
  d2 : BitVec 8
  d3 : BitVec 8
deriving DecidableEq, Repr

/-- The commands (spec/opcode_table.json). -/
inductive Instr where
  /-- ADD (R89). -/
  | add (r : IssueRef) (f : Fields)
  /-- SUB (R89). -/
  | sub (r : IssueRef) (f : Fields)
  /-- AND (R89). -/
  | and (r : IssueRef) (f : Fields)
  /-- OR (R89). -/
  | or (r : IssueRef) (f : Fields)
  /-- XOR (R89). -/
  | xor (r : IssueRef) (f : Fields)
  /-- SHL (R89). -/
  | shl (r : IssueRef) (f : Fields)
  /-- SHR (R89). -/
  | shr (r : IssueRef) (f : Fields)
  /-- SRA (R89). -/
  | sra (r : IssueRef) (f : Fields)
  /-- MUL (R89). -/
  | mul (r : IssueRef) (f : Fields)
  /-- MULHU (R89). -/
  | mulhu (r : IssueRef) (f : Fields)
  /-- MULHS (R89). -/
  | mulhs (r : IssueRef) (f : Fields)
  /-- MIN (R89). -/
  | min (r : IssueRef) (f : Fields)
  /-- MAX (R89). -/
  | max (r : IssueRef) (f : Fields)
  /-- MINU (R89). -/
  | minu (r : IssueRef) (f : Fields)
  /-- MAXU (R89). -/
  | maxu (r : IssueRef) (f : Fields)
  /-- SLT (R89). -/
  | slt (r : IssueRef) (f : Fields)
  /-- SLTU (R89). -/
  | sltu (r : IssueRef) (f : Fields)
  /-- SEQ (R89). -/
  | seq (r : IssueRef) (f : Fields)
  /-- SEL (R89). -/
  | sel (r : IssueRef) (f : Fields)
  /-- CLZ (R89). -/
  | clz (r : IssueRef) (f : Fields)
  /-- POPC (R89). -/
  | popc (r : IssueRef) (f : Fields)
  /-- MOVI (R89). -/
  | movi (r : IssueRef) (f : Fields)
  /-- MOVHI (R89). -/
  | movhi (r : IssueRef) (f : Fields)
  /-- RDTID (R89). -/
  | rdtid (r : IssueRef) (f : Fields)
  /-- RDTHR (R89). -/
  | rdthr (r : IssueRef) (f : Fields)
  /-- RDSSN (R89). -/
  | rdssn (r : IssueRef) (f : Fields)
  /-- RDHT (R89). -/
  | rdht (r : IssueRef) (f : Fields)
  /-- BEQ (R90). -/
  | beq (r : IssueRef) (f : Fields)
  /-- BNE (R90). -/
  | bne (r : IssueRef) (f : Fields)
  /-- BLT (R90). -/
  | blt (r : IssueRef) (f : Fields)
  /-- BGE (R90). -/
  | bge (r : IssueRef) (f : Fields)
  /-- BLTU (R90). -/
  | bltu (r : IssueRef) (f : Fields)
  /-- BGEU (R90). -/
  | bgeu (r : IssueRef) (f : Fields)
  /-- J (R90). -/
  | j (r : IssueRef) (f : Fields)
  /-- JAL (R90). -/
  | jal (r : IssueRef) (f : Fields)
  /-- JR (R90). -/
  | jr (r : IssueRef) (f : Fields)
  /-- LD8 (R91). -/
  | ld8 (r : IssueRef) (f : Fields)
  /-- LD16 (R91). -/
  | ld16 (r : IssueRef) (f : Fields)
  /-- LD32 (R91). -/
  | ld32 (r : IssueRef) (f : Fields)
  /-- LD64 (R91). -/
  | ld64 (r : IssueRef) (f : Fields)
  /-- LDS8 (R91). -/
  | lds8 (r : IssueRef) (f : Fields)
  /-- LDS16 (R91). -/
  | lds16 (r : IssueRef) (f : Fields)
  /-- LDS32 (R91). -/
  | lds32 (r : IssueRef) (f : Fields)
  /-- ST8 (R91). -/
  | st8 (r : IssueRef) (f : Fields)
  /-- ST16 (R91). -/
  | st16 (r : IssueRef) (f : Fields)
  /-- ST32 (R91). -/
  | st32 (r : IssueRef) (f : Fields)
  /-- ST64 (R91). -/
  | st64 (r : IssueRef) (f : Fields)
  /-- VLD (R92). -/
  | vld (r : IssueRef) (f : Fields)
  /-- VST (R92). -/
  | vst (r : IssueRef) (f : Fields)
  /-- VFMA (R92). -/
  | vfma (r : IssueRef) (f : Fields)
  /-- VADD (R92). -/
  | vadd (r : IssueRef) (f : Fields)
  /-- VSUB (R92). -/
  | vsub (r : IssueRef) (f : Fields)
  /-- VMUL (R92). -/
  | vmul (r : IssueRef) (f : Fields)
  /-- VMAX (R92). -/
  | vmax (r : IssueRef) (f : Fields)
  /-- VMIN (R92). -/
  | vmin (r : IssueRef) (f : Fields)
  /-- VBCAST (R92). -/
  | vbcast (r : IssueRef) (f : Fields)
  /-- VCVT (R92). -/
  | vcvt (r : IssueRef) (f : Fields)
  /-- VREDS (R92). -/
  | vreds (r : IssueRef) (f : Fields)
  /-- VREDM (R92). -/
  | vredm (r : IssueRef) (f : Fields)
  /-- VEXT (R92). -/
  | vext (r : IssueRef) (f : Fields)
  /-- QPUT (R107). -/
  | qput (r : IssueRef) (f : Fields)
  /-- QGET (R110). -/
  | qget (r : IssueRef) (f : Fields)
  /-- QWAIT (R110). -/
  | qwait (r : IssueRef) (f : Fields)
  /-- SEND (R210). -/
  | send (r : IssueRef) (f : Fields)
  /-- SENDW (R218). -/
  | sendw (r : IssueRef) (f : Fields)
  /-- RECV (R214). -/
  | recv (r : IssueRef) (f : Fields)
  /-- POLL (R215). -/
  | poll (r : IssueRef) (f : Fields)
  /-- FSET (R224). -/
  | fset (r : IssueRef) (f : Fields)
  /-- FCLR (R224). -/
  | fclr (r : IssueRef) (f : Fields)
  /-- FWAIT (R225). -/
  | fwait (r : IssueRef) (f : Fields)
  /-- FWAITC (R225). -/
  | fwaitc (r : IssueRef) (f : Fields)
  /-- FENCE (R226). -/
  | fence (r : IssueRef) (f : Fields)
  /-- CJOB (R131). -/
  | cjob (r : IssueRef) (f : Fields)
  /-- SOPEN (R184). -/
  | sopen (r : IssueRef) (f : Fields)
  /-- SWAIT (R191). -/
  | swait (r : IssueRef) (f : Fields)
  /-- SRELEASE (R191). -/
  | srelease (r : IssueRef) (f : Fields)
  /-- UPD_SPLIT (R98). -/
  | updSplit (r : IssueRef) (f : Fields)
  /-- SYNC (R51). -/
  | sync (r : IssueRef) (f : Fields)
  /-- HALT (R99). -/
  | halt (r : IssueRef) (f : Fields)
  /-- NOP (R99). -/
  | nop (r : IssueRef) (f : Fields)
  /-- CORE_DATA_REPLAY (R103). -/
  | coreDataReplay (r : IssueRef)
  /-- DMA_REPLAY (R103). -/
  | dmaReplay (tid unit cyc : Nat)
  /-- TILE_ARRIVAL (R51). -/
  | tileArrival (tid : Nat)
  /-- TX_PREFETCH (R254). -/
  | txPrefetch (port entry : Nat)
  /-- EXCHANGE_LIST_READ (R249). -/
  | exchangeListRead (tid cyc : Nat)
  /-- BARRIER_COMPLETE (R260). -/
  | barrierComplete (c : CtxRef)
  /-- THS_ARRIVE_RECEIVE (R261). -/
  | thsArriveReceive (port : Nat) (a b : BitVec 64)
  /-- THS_COMPLETE_RECEIVE (R261). -/
  | thsCompleteReceive (port : Nat) (a b : BitVec 64)
  /-- COMPUTE_OVERRUN (R60). -/
  | computeOverrun (c : CtxRef)
  /-- EXCHANGE_PHASE_START (R55). -/
  | exchangePhaseStart (c : CtxRef)
  /-- EXCHANGE_UNIT_SEND (R250). -/
  | exchangeUnitSend (tid entry k : Nat)
  /-- EXCHANGE_UNIT_HOP (R251). -/
  | exchangeUnitHop (u : Nat)
  /-- EXCHANGE_UNIT_ARRIVAL (R250). -/
  | exchangeUnitArrival (u : Nat)
  /-- EXCHANGE_UNIT_MISSING (R250). -/
  | exchangeUnitMissing (tid entry k : Nat)
  /-- EXCHANGE_PHASE_END (R56). -/
  | exchangePhaseEnd (c : CtxRef)
  /-- WATCH_STEP_CLOSE (R173). -/
  | watchStepClose (die slot : Nat)
  /-- HALT_TAKES_EFFECT (R75). -/
  | haltTakesEffect (c : CtxRef)
  /-- CLUSTER_CLOCK_START (R46). -/
  | clusterClockStart (cid : Nat)
  /-- CLOVER_JOB_START (R121). -/
  | cloverJobStart (cid eng : Nat)
  /-- CLOVER_OUTPUT_TILE_START (R119). -/
  | cloverOutputTileStart (cid eng : Nat)
  /-- CLOVER_FEED_WINDOW (R125). -/
  | cloverFeedWindow (cid lane win cyc : Nat)
  /-- CLOVER_WAVEFRONT_COMPLETE (R119). -/
  | cloverWavefrontComplete (cid eng : Nat)
  /-- CLOVER_DRAIN_WRITE (R142). -/
  | cloverDrainWrite (cid eng row unit : Nat)
  /-- CLOVER_TILE_DRAIN_COMPLETE (R163). -/
  | cloverTileDrainComplete (cid eng : Nat)
  /-- CLOVER_JOB_COMPLETE (R136). -/
  | cloverJobComplete (cid eng : Nat)
  /-- QUEUE_REQUEST_COMPLETE (R108). -/
  | queueRequestComplete (tid q : Nat)
  /-- STREAM_BLOCK_START (R189). -/
  | streamBlockStart (tid h : Nat)
  /-- DMA_UNIT_MOVE (R186). -/
  | dmaUnitMove (tid unit cyc : Nat) (hbmErr : Bool)
  /-- STREAM_BLOCK_COMPLETE (R189). -/
  | streamBlockComplete (tid h : Nat)
  /-- LATE_CONSUMER (R194). -/
  | lateConsumer (tid thr : Nat)
  /-- MESSAGE_ARRIVAL (R212). -/
  | messageArrival (tid thr : Nat)
  /-- MESSAGE_REPLY_ARRIVAL (R211). -/
  | messageReplyArrival (tid thr : Nat)
  /-- SENDW_RETRY (R218). -/
  | sendwRetry (tid thr : Nat)
  /-- MSG_RETRY_EXHAUSTED (R218). -/
  | msgRetryExhausted (tid thr : Nat)
  /-- MSG_RECV_TIMEOUT (R220). -/
  | msgRecvTimeout (tid thr : Nat)
  /-- FLAG_REQUEST_ARRIVAL (R223). -/
  | flagRequestArrival (q : Nat)
  /-- FLAG_EVALUATION (R224). -/
  | flagEvaluation (g : FlagRef)
  /-- FLAG_TIMEOUT (R227). -/
  | flagTimeout (tid thr : Nat)
  /-- SLOT_START (R257). -/
  | slotStart (port entry : Nat)
  /-- FRAME_TRANSMIT (R289). -/
  | frameTransmit (port : Nat)
  /-- SLOT_SUSPEND (R256). -/
  | slotSuspend (port entry : Nat)
  /-- SLOT_TAIL (R256). -/
  | slotTail (port : Nat)
  /-- FRAME_RECEIVE (R291). -/
  | frameReceive (port : Nat) (x : Frame) (uncorr : Bool)
  /-- ACK_SEND (R293). -/
  | ackSend (port : Nat)
  /-- ACK_RECEIVE (R293). -/
  | ackReceive (port : Nat) (x : BitVec 64)
  /-- NAK_RECEIVE (R294). -/
  | nakReceive (port : Nat) (x : BitVec 64)
  /-- REPLAY_START (R294). -/
  | replayStart (port : Nat)
  /-- BLOCK_RECEIVE (R287). -/
  | blockReceive (port : Nat) (x : BitVec 257) (fec : FecRes)
  /-- CHANNEL_UNIT_FORM (R270). -/
  | channelUnitForm (port chan unit : Nat)
  /-- REDUCE_DEADLINE (R273). -/
  | reduceDeadline (port chan : Nat)
  /-- DIGEST_RECEIVE (R278). -/
  | digestReceive (port : Nat) (x : Frame)
  /-- TS_EXCHANGE_START (R234). -/
  | tsExchangeStart (sub : BitVec 4)
  /-- TS_REQ_RECEIVE (R234). -/
  | tsReqReceive (port : Nat) (x : BitVec 64) (t2 t3 : BitVec 4)
  /-- TS_RESP_RECEIVE (R234). -/
  | tsRespReceive (port : Nat) (x : BitVec 64)
  /-- TS_FUP_RECEIVE (R234). -/
  | tsFupReceive (port : Nat) (x : BitVec 64) (sub : BitVec 4)
  /-- HT_LOCK (R237). -/
  | htLock
  /-- PARENT_SELECT (R240). -/
  | parentSelect
  /-- HOLDOVER_RESTRICTION_END (R236). -/
  | holdoverRestrictionEnd
  /-- HOLDOVER_BOUND_STEP (R239). -/
  | holdoverBoundStep
  /-- TREE_SEND (R241). -/
  | treeSend
  /-- TREE_RECEIVE (R235). -/
  | treeReceive (port : Nat) (x : BitVec 64)
  /-- HALL_TIME_SET (R233). -/
  | hallTimeSet (r : RingRef) (w : CmdWords)
  /-- HT_PPS_IN_EDGE (R233). -/
  | htPpsInEdge
  /-- HT_PPS_OUT_PULSE (R233). -/
  | htPpsOutPulse
  /-- SIGNAL_DETECT (R296). -/
  | signalDetect (port : Nat)
  /-- TRAINING_COMPLETE (R297). -/
  | trainingComplete (port : Nat) (lanes : BitVec 8) (skew : Nat)
  /-- TRAIN_TIMEOUT (R296). -/
  | trainTimeout (port : Nat)
  /-- ALIGN_COMPLETE (R297). -/
  | alignComplete (port txd rxd : Nat) (cal : BitVec 64)
  /-- LOSS_OF_SIGNAL (R300). -/
  | lossOfSignal (port : Nat)
  /-- LANE_LOCK_LOSS (R296). -/
  | laneLockLoss (port lane : Nat)
  /-- GOING_AWAY_RECEIVE (R300). -/
  | goingAwayReceive (port : Nat) (x : BitVec 64)
  /-- DOORBELL (R318). -/
  | doorbell (r : RingRef) (v : W32)
  /-- RING_ENABLE (R318). -/
  | ringEnable (r : RingRef) (v : W32)
  /-- RING_DISABLE (R318). -/
  | ringDisable (r : RingRef) (v : W32)
  /-- NOP_COMMAND (R326). -/
  | nopCommand (r : RingRef) (w : CmdWords)
  /-- IDENTIFY (R329). -/
  | identify (r : RingRef) (w : CmdWords)
  /-- CONFIG_APPLY (R331). -/
  | configApply (r : RingRef) (w : CmdWords)
  /-- CONFIG_APPLY_COMPLETE (R332). -/
  | configApplyComplete
  /-- CONFIG_READ (R326). -/
  | configRead (r : RingRef) (w : CmdWords)
  /-- PART_CREATE (R37). -/
  | partCreate (r : RingRef) (w : CmdWords)
  /-- PART_DESTROY (R37). -/
  | partDestroy (r : RingRef) (w : CmdWords)
  /-- CTX_CREATE (R328). -/
  | ctxCreate (r : RingRef) (w : CmdWords)
  /-- CTX_TEARDOWN (R375). -/
  | ctxTeardown (r : RingRef) (w : CmdWords)
  /-- CTX_RESET (R377). -/
  | ctxReset (r : RingRef) (w : CmdWords)
  /-- DRAIN_COMPLETE (R375). -/
  | drainComplete (c : CtxRef)
  /-- SCRUB_COMPLETE (R376). -/
  | scrubComplete (c : CtxRef)
  /-- LOAD_SEGMENT (R76). -/
  | loadSegment (r : RingRef) (w : CmdWords)
  /-- RELOCATE (R80). -/
  | relocate (r : RingRef) (w : CmdWords)
  /-- PATCH (R328). -/
  | patch (r : RingRef) (w : CmdWords)
  /-- START (R74). -/
  | start (r : RingRef) (w : CmdWords)
  /-- HALT_COMMAND (R75). -/
  | haltCommand (r : RingRef) (w : CmdWords)
  /-- RESUME (R73). -/
  | resume (r : RingRef) (w : CmdWords)
  /-- DMA_HOST (R328). -/
  | dmaHost (r : RingRef) (w : CmdWords)
  /-- DMA_HOST_COMPLETE (R328). -/
  | dmaHostComplete (r : RingRef)
  /-- WINDOW_OPEN (R203). -/
  | windowOpen (r : RingRef) (w : CmdWords)
  /-- WINDOW_CLOSE (R205). -/
  | windowClose (r : RingRef) (w : CmdWords)
  /-- FLAG_SET (R230). -/
  | flagSet (r : RingRef) (w : CmdWords)
  /-- FLAG_READ (R230). -/
  | flagRead (r : RingRef) (w : CmdWords)
  /-- SCRATCH_SAMPLE (R366). -/
  | scratchSample (r : RingRef) (w : CmdWords)
  /-- SAMPLE_COMPLETE (R366). -/
  | sampleComplete (c : CtxRef)
  /-- EVENT_READ (R352). -/
  | eventRead (r : RingRef) (w : CmdWords)
  /-- EVENT_ACK (R353). -/
  | eventAck (r : RingRef) (w : CmdWords)
  /-- POWER_MODE (R359). -/
  | powerMode (r : RingRef) (w : CmdWords)
  /-- POWER_MODE_COMPLETE (R359). -/
  | powerModeComplete
  /-- BANK_POWER (R200). -/
  | bankPower (r : RingRef) (w : CmdWords)
  /-- BANK_OFF_COMPLETE (R201). -/
  | bankOffComplete (cid grp : Nat)
  /-- BANK_OFF_TIMEOUT (R201). -/
  | bankOffTimeout (cid grp : Nat)
  /-- BANK_ON_COMPLETE (R202). -/
  | bankOnComplete (cid grp : Nat)
  /-- LIFECYCLE (R380). -/
  | lifecycle (r : RingRef) (w : CmdWords)
  /-- LOCK (R381). -/
  | lock (r : RingRef) (w : CmdWords)
  /-- LINK_CONTROL (R303). -/
  | linkControl (r : RingRef) (w : CmdWords)
  /-- RESET_ESCALATE (R374). -/
  | resetEscalate (r : RingRef) (w : CmdWords)
  /-- FW_UPDATE (R382). -/
  | fwUpdate (r : RingRef) (w : CmdWords)
  /-- FUNCTION_LEVEL_RESET (R314). -/
  | functionLevelReset (pf : Nat)
  /-- BAR4_ACCESS (R315). -/
  | bar4Access (pf off : Nat) (a : HostAccess)
  /-- BAR0_LOW_WORD_READ (R48). -/
  | bar0LowWordRead (pf : Nat) (a : BarRead)
  /-- REGISTER_WRITE (R17). -/
  | registerWrite (who : RegBy) (bar : Nat) (off : Nat) (v : RegValue)
  /-- MMU_INVAL (R181). -/
  | mmuInval (pf die : Nat) (v : W32)
  /-- MMU_INVAL_COMPLETE (R181). -/
  | mmuInvalComplete (die : Nat)
  /-- MMU_FAULT_RESUME (R199). -/
  | mmuFaultResume (pf die rec : Nat) (v : W32)
  /-- MMU_FAULT_ABORT (R199). -/
  | mmuFaultAbort (pf die rec : Nat) (v : W32)
  /-- NUM_WCTL_CLEAR (R172). -/
  | numWctlClear (pf die slot : Nat) (v : W32)
  /-- MSIX_MODERATION_TIMEOUT (R334). -/
  | msixModerationTimeout (pf vec : Nat)
  /-- MSIX_UNMASK (R334). -/
  | msixUnmask (pf vec : Nat)
  /-- PCIE_L1_ENTRY (R335). -/
  | pcieL1Entry
  /-- D3HOT_ENTRY (R335). -/
  | d3hotEntry (pf : Nat) (pmeEn : Bool)
  /-- D0_RETURN (R335). -/
  | d0Return (pf : Nat)
  /-- PME_TURN_OFF (R335). -/
  | pmeTurnOff
  /-- EVENT_RAISE (R338). -/
  | eventRaise (die src : Nat) (x : RaiseInfo)
  /-- STORM_WINDOW (R345). -/
  | stormWindow
  /-- EVC_CLAIM (R340). -/
  | evcClaim (die : Nat)
  /-- EVC_EOI (R341). -/
  | evcEoi (die : Nat)
  /-- EVC_HOLD_SET (R343). -/
  | evcHoldSet (die : Nat)
  /-- EVC_HOLD_RELEASE (R344). -/
  | evcHoldRelease (die : Nat)
  /-- LATCH_TRANSFER (R346). -/
  | latchTransfer (die latch : Nat)
  /-- LOG_APPEND (R350). -/
  | logAppend
  /-- PAGE_COMMIT_TIMER (R351). -/
  | pageCommitTimer
  /-- PAGE_PROGRAM_COMPLETE (R383). -/
  | pageProgramComplete
  /-- POWER_UP (R354). -/
  | powerUp
  /-- BOOT_SAMPLE (R309). -/
  | bootSample (boot : BitVec 3)
  /-- PERST_EDGE (R356). -/
  | perstEdge
  /-- PERST_RISE (R356). -/
  | perstRise
  /-- POWER_FAIL (R384). -/
  | powerFail
  /-- PF_RISE (R386). -/
  | pfRise
  /-- RAIL_LOSS (R385). -/
  | railLoss
  /-- IDLE_ENTRY (R357). -/
  | idleEntry
  /-- STANDBY_ENTRY (R357). -/
  | standbyEntry
  /-- STANDBY_WAKE (R358). -/
  | standbyWake
  /-- THROTTLE_STEP (R360). -/
  | throttleStep (t : Temps) (power : Nat)
  /-- THROTTLE_APPLY (R360). -/
  | throttleApply (cid : Nat)
  /-- TRIP_CLEAR (R361). -/
  | tripClear (t : Temps)
  /-- SS_WATCHDOG (R364). -/
  | ssWatchdog (c : CtxRef)
  /-- ENGINE_HANG (R365). -/
  | engineHang (eng : BitVec 16)
  /-- RESET_BUDGET_EXPIRY (R369). -/
  | resetBudgetExpiry (q : Nat)
  /-- TILE_FENCE (R370). -/
  | tileFence (tid : Nat)
  /-- RESET_COMPLETE (R367). -/
  | resetComplete (q : Nat)
  /-- HALL_TIME_SET_TIMEOUT (R233). -/
  | hallTimeSetTimeout
  /-- FW_UPDATE_COMPLETE (R382). -/
  | fwUpdateComplete (flashFail : Bool)
  /-- CLUSTER_GATING (R46). -/
  | clusterGating (cid : Nat)
deriving DecidableEq, Repr

end Sys2Proof
end

