-- ==== Sys2Proof/Decode.lean ====
section
/-!
DEFINITION. Commands by the words of spec/opcode_table.json. No row of that table gives bits, so no word
spells a command. The tile instructions' own words are read by the issue stage (Machine/Operands.lean), which
R87 describes. -/

namespace Sys2Proof

/-- The command that a word of the table spells: none, since the table gives no row any bits. -/
def decodeTableWord (_nbits _w : Nat) : Option Instr := none

end Sys2Proof
end

