-- ==== Sys2Proof/Config.lean ====
section
/-!
DEFINITION. The free values of the model: what spec/ leaves open without a value. None has a body, so no proof
can use one. Each is named in the assumption log (row 5). `State.free` counts the draws of the values that are
fresh each time. -/

namespace Sys2Proof

/-- Whether a translation that is cached and no longer agrees with the tables is still used (R181): draw n. -/
opaque Config.tlbOld : Nat → Bool
/-- Whether a firmware image passes its CRC-64 (R355, R382); where the image holds it is not stated. -/
opaque Config.fwCrcOk : List Byte → Bool
/-- Whether a firmware image's signature verifies against the key digest in fuses (R355). -/
opaque Config.fwSigOk : List Byte → Bool
/-- The version a firmware image carries (R382); where the image holds it is not stated. -/
opaque Config.fwVersion : List Byte → BitVec 32
/-- The version that the recovery loader in boot ROM reports (R329, R355 state none). -/
opaque Config.romVersion : BitVec 32
/-- The image that FW_UPDATE writes in recovery mode while both images are valid (R382 names none): B where true. -/
opaque Config.recoveryTarget : Bool
/-- ULK_STAT.CAUSE of a port that the entry into STANDBY takes DOWN (R303 lists no such cause). -/
opaque Config.standbyCause : BitVec 4
/-- ULK_STAT.CAUSE of a port that a reset takes DOWN (R303 lists no such cause). -/
opaque Config.resetCause : BitVec 4
/-- What the Clover feed reads at a byte of a tile whose bank group has no power (R202 states no value): draw
n, tile, address. -/
opaque Config.offByte : Nat → Nat → Nat → BitVec 8
/-- What HTM_ERR.OFFSET holds of an offset beyond 16 bits (R265 gives the width and no value). -/
opaque Config.wideOffset : Int → BitVec 16
/-- What HTM_PORT_p.DELAY holds of a delay that is negative or beyond 16 bits (R265 gives the width and no value). -/
opaque Config.wideDelay : Int → BitVec 16
/-- What ULK_ASYM_k.ASYM holds of an asymmetry beyond 16 bits (R303 gives the width and no value). -/
opaque Config.wideAsym : Int → BitVec 16
/-- What ULK_ASYM_k.SKEW holds of a skew beyond 16 bits (R303 gives the width and no value). -/
opaque Config.wideSkew : Nat → BitVec 16
/-- Whether one SSN precedes another that lies exactly 2^31 apart from it (R263: the result is not defined). -/
opaque Config.serialHalf : BitVec 32 → BitVec 32 → Bool
/-- Which of two values that lie equally near completes a time given by its low bits (R261): the later one
where true. -/
opaque Config.nearUp : Nat → Nat → Bool
/-- CLV_QSTAT.HEAD_SEQ of a queue without an incomplete job after its first job (R147 names the oldest
incomplete job): by NEXT_SEQ. -/
opaque Config.headSeq : BitVec 8 → BitVec 8
/-- RST_LEVEL.TARGET during an L2 or L3, whose target is neither an engine nor a context (R389): by level. -/
opaque Config.levelTarget : Nat → BitVec 16
/-- The Graotus manufacturer code of IDCODE (R311 names it and states no number). -/
opaque Config.jedecCode : BitVec 11
/-- The length of the TAP's instruction register (R311 states none). -/
opaque Config.irLen : Nat
/-- The instruction that a code of the TAP's instruction register selects (R311 names the instructions and
states no codes): 0 BYPASS, 1 IDCODE, 2 SAMPLE/PRELOAD, 3 EXTEST, else a debug instruction. -/
opaque Config.tapCode : List Bool → BitVec 3
/-- What a debug instruction of the TAP captures (R311, R381 describe none): draw n. -/
opaque Config.debugReg : Nat → List Bool
/-- The level of a land that State does not hold: draw n, boundary cell. -/
opaque Config.landLevel : Nat → Nat → Bool
/-- The rate to which the PCIe link trains, as the partner and the channel allow (R312): draw n. -/
opaque Config.pcieRate : Nat → Nat
/-- The width that goes with the rate (R312): draw n. -/
opaque Config.pcieWidth : Nat → Nat
/-- The time, in ns after a fault, at which its stop reaches the exchange unit of a tile, no later than 2 µs
(R251, R362): draw n, tile. -/
opaque Config.stopDelay : Nat → Nat → Nat
/-- The part of a nanosecond of a time stamp that a block's symbol takes (R234; the row BLOCK_RECEIVE has no
operand for it): draw n. -/
opaque Config.subStamp : Nat → BitVec 4
/-- The engine that held an L2 or L3 past its budget (R369, which does not say which it is): draw n. -/
opaque Config.heldEngine : Nat → BitVec 16
/-- Whether the oldest DMA unit in flight of a die, or the oldest write in the queues of its HBM controllers,
completes in a nanosecond (R65, R375 state no time): draw n. -/
opaque Config.dmaDone : Nat → Bool

end Sys2Proof
end

