-- ==== Sys2Proof/Machine/State.lean ====
section
/-!
DEFINITION. The state of one PD-8192 module as plain data, the reasons a step stops, and the state after
reset. Every field's default is its reset value; what spec/ leaves open there is named in the assumption log
(rows 5 to 10). Tables with many like entries are `Sparse`: sorted pairs of an index and a value, an unlisted
index holding the table's default. -/

namespace Sys2Proof.Machine

/-- A table by index; an index not listed holds the default that its reader names. -/
abbrev Sparse (α : Type) := List (Nat × α)

/-! ### Tiles (spec/03, spec/06, spec/07, spec/08) -/

/-- The four thread states (R85). -/
inductive ThrSt where
  | halted | runnable | blocked | trapped
deriving DecidableEq, Repr

/-- The instructions with a data access, by what their memory stage does (R91, R92, R102): what a replay
repeats (R103). -/
inductive DataOp where
  | load (bytes : Nat) (signed : Bool)
  | store (bytes : Nat)
  | vld | vst | send | sendw | recv | cjob | sopen | upd
deriving DecidableEq, Repr

/-- A message in its sender's outbound buffer (R209, R210). -/
structure Msg where
  dst  : W64
  tag  : BitVec 16
  data : List Byte
  cxh  : BitVec 16
deriving DecidableEq, Repr

/-- Where an attempt of SEND or SENDW stands (R211, R218). -/
inductive SendSt where
  | travelling
  | replied (code : Nat)
  | backoff (due : Nat)
  | spent
deriving DecidableEq, Repr

/-- What holds or blocks a thread (R85, R103, R210, R214, R225, R226). A thread that `replay` holds makes
access `k` of its instruction, counted from 0, at its next issue slot; `got` are the bytes that the accesses
before it have read. -/
inductive Wait where
  | none
  | replay (op : DataOp) (f : Fields) (k : Nat) (got : List Byte)
  | queue (tok : W64)
  | slot (h k : Nat) (full : Bool) (since : Nat) (late : Bool)
  | recv (f : Fields) (dst : W64) (tag mask : BitVec 16) (limit order : Nat)
  | send (d : BitVec 5) (m : Msg) (retry : Bool) (attempts t0 limit : Nat) (st : SendSt)
  | flag (g : FlagRef) (claim : Bool) (limit : Nat)
  | fence
  | sync
deriving DecidableEq, Repr

/-- A hardware thread (R84): scalar and vector registers, PC, state, and the first tile cycle in which it may
issue since its last wait ended (R85). -/
structure Thread where
  s    : Sparse W64 := []
  v    : Sparse W256 := []
  pc   : W64 := 0
  st   : ThrSt := .halted
  wait : Wait := .none
  from_ : Nat := 0
deriving DecidableEq, Repr

/-- A transfer that has stopped (R183, R197, R198): not stopped; stopped and waiting for a fault record;
holding record `f`; stopped for good. -/
inductive Stop where
  | run
  | waiting (va cause : Nat)
  | record (f : Nat)
  | dead
deriving DecidableEq, Repr

/-- A decoupling-queue request (R106). -/
structure Req where
  seq   : BitVec 8
  thr   : Nat
  sram  : Nat
  va    : Nat
  len   : Nat
  moved : Nat := 0
  stop  : Stop := .run
  born  : Nat := 0
deriving DecidableEq, Repr

/-- A decoupling queue (R106, R110). -/
structure Queue where
  issue : BitVec 8 := 0
  done  : BitVec 8 := 0
  reqs  : List Req := []
deriving DecidableEq, Repr

/-- Slot states (R189). -/
inductive SlotSt where
  | empty | filling | full | draining
deriving DecidableEq, Repr

/-- A stream block entry (R185), fields by value (the "− 1" already added). For `src = 1` the scale-table
fields are read from `base` (R188). -/
structure BlkEnt where
  base        : Nat
  src         : Nat
  xmode       : Nat
  esize       : Nat
  cols        : Nat
  rows        : Nat
  planes      : Nat
  rowStride   : Nat
  planeStride : Nat
  rep         : Nat
  repStride   : Int
deriving DecidableEq, Repr

/-- An OPEN stream handle (R184, R185, R189, R197). -/
structure Handle where
  outbound : Bool
  slots    : List SlotSt
  ents     : List BlkEnt
  chk      : Option Nat
  link     : Option Nat
  lateNs   : Nat
  base     : Nat
  size     : Nat
  loops    : Nat
  blk      : Nat := 0
  active   : Bool := false
  inner    : Nat := 0
  released : Nat := 0
  stop     : Stop := .run
  born     : Nat := 0
deriving DecidableEq, Repr

/-- A stream slot as it stood before a change in tile cycle `cyc` (R190): its handle and number, its bytes, and
its state, none while the handle was closed. -/
structure SlotOld where
  cyc : Nat
  h   : Nat
  k   : Nat
  lo  : Nat
  len : Nat
  st  : Option SlotSt
deriving DecidableEq, Repr

/-- A message in a store (R213). `whole` says that all of it has arrived, in tile cycle `cyc`; before that its
entries are only reserved. `taker` is the thread whose RECV copies it (R214). -/
structure Held where
  tag   : BitVec 16
  data  : List Byte
  tid   : Nat
  thr   : Nat
  whole : Bool := false
  cyc   : Nat := 0
  taker : Option Nat := none
deriving DecidableEq, Repr

/-- An exchange-list entry as read (R249). -/
structure XEntry where
  w0 : W64
  w1 : W64
deriving DecidableEq, Repr

/-- The exchange unit of a tile (R249, R250): the list of its next phase, the tile cycle of its next read once
the tile has arrived, the entries read so far and whether they are the whole list, and the units sent and
received. -/
structure XUnit where
  next   : Option Nat := none
  readAt : Option Nat := none
  list   : List XEntry := []
  read   : Bool := false
  sent   : List (Nat × Nat) := []
  got    : List (Nat × Nat) := []
deriving DecidableEq, Repr

/-- A line that the feed port of a tile has read (R125): for which engine, job, output tile, kind of access
and pass (R118), the line's address, and its bytes. -/
structure FeedLine where
  eng  : Nat
  kind : Nat
  job  : Nat
  n    : Nat
  pass : Nat
  addr : Nat
  data : List Byte
deriving DecidableEq, Repr

/-- A tile (R24, R83, R101, R106, R184, R213, R222, R249). `grants` are the banks granted: tile cycle,
priority, banks (R102, R103). `issueAt` is the first tile cycle that has not issued, `feed` holds the lines
that the feed port has read, `hdrAt` is the exchange cycle of the last message header, plus 1, and `freed` the
store entries freed in exchange cycle `freedAt` (R213, R216); `flagAt` is the first flag cycle of each tile
flag that is not evaluated (R223); `dmaAt` and `dmaHeld` are the DMA port's first free tile cycle and the
access that it presents again: its transfer, tile cycle and SRAM address; `slotOld` are the recent changes of
its stream slots, oldest first (R190); `pmAt` is where the core's progress monitor counts
from, none while it does not count (R365). -/
structure Tile where
  thr     : Sparse Thread := []
  sram    : List Host.Cell := []
  flags   : W64 := 0
  queues  : Sparse Queue := []
  handles : Sparse Handle := []
  store   : List Held := []
  drops   : BitVec 16 := 0
  order   : Nat := 0
  fenced  : Bool := false
  trapPc  : BitVec 18 := 0
  trapThr : BitVec 3 := 0
  trapV   : Bool := false
  grants  : List (Nat × Nat × BitVec 12) := []
  issueAt : Nat := 0
  dmaAt   : Nat := 0
  dmaHeld : Option (Nat × Nat × Nat) := none
  slotOld : List SlotOld := []
  arrived : Bool := false
  xch     : XUnit := {}
  pmAt    : Option Nat := none
  feed    : List FeedLine := []
  hdrAt   : Nat := 0
  freed   : Nat := 0
  freedAt : Nat := 0
  flagAt  : Sparse Nat := []
deriving DecidableEq, Repr

/-! ### Clusters (spec/01, spec/04, spec/05, spec/06, spec/13) -/

/-- What an output tile has shown of its stored values (R163): whether one saturated, whether one was not
finite before the conversion, and the largest finite magnitude. -/
structure TileStat where
  sat  : Bool := false
  nonf : Bool := false
  m    : Nat := 0
  e    : Int := 0
deriving DecidableEq, Repr

/-- A posted Clover job (R129, R133, R119 to R122). `words` is the descriptor and `postAt` the tile cycle of
its posting; `s0` is the first feed cycle of its first output tile and `clearAt` the cycle at which its
hazards clear; `started`, `waves` and `drained` count its output tiles; `rows` counts the units written of
each row of an output tile, by 256 times the tile plus the row, and `zrows` those of ZOUT; `exps` are the
scale exponents read, and `stats` is what each output tile that drains has shown. -/
structure Job where
  words   : List W64
  seq     : BitVec 8
  order   : Nat
  postAt  : Nat := 0
  s0      : Nat
  clearAt : Nat := 0
  started : Nat := 0
  waves   : Nat := 0
  drained : Nat := 0
  rows    : Sparse Nat := []
  zrows   : Sparse Nat := []
  exps    : List Int := []
  stats   : Sparse TileStat := []
deriving DecidableEq, Repr

/-- One Clover engine (R114, R134). `acc` holds the accumulators of the output tile whose wavefront completed
last, active positions by rows, and `accOf` names its job and its number; the other accumulator of each cell
collects what the feed ports' lines and the cycle say. `steps` counts the K steps performed but for those of
the tiles in the array, of which it holds `base` (R147); `last` is the job that completed last, and `pmAt` is
where the progress monitor counts from (R365). -/
structure Engine where
  q       : List Job := []
  nextSeq : BitVec 8 := 0
  steps   : W64 := 0
  acc     : List W32 := []
  accOf   : Option (Nat × Nat) := none
  base    : Nat := 0
  last    : Option Job := none
  pmAt    : Option Nat := none
deriving DecidableEq, Repr

/-- Bank-group states (R200). -/
inductive BankSt where
  | on | goingOff | off | goingOn
deriving DecidableEq, Repr

/-- A switchable bank group of a cluster (R200, R201). `late` says that writes were still in flight past the
limit of GOING_OFF. -/
structure Bank where
  st    : BankSt := .on
  t0    : Nat := 0
  late  : Bool := false
  owner : Option RingRef := none
deriving DecidableEq, Repr

/-- The clock of a cluster's fast domain (R46). -/
inductive ClkSt where
  | stopped | starting | running | gating
deriving DecidableEq, Repr

/-- A cluster (R27, R44, R124, R139, R147, R148). `want` holds a demand that arrived while the clock was being
gated (R46). `cyc` and `tileCyc` count its Clover and tile cycles; `cloverPh` and `tilePh` are the parts of a
cycle passed, in 1/80. `toMode` is a mode that the cluster takes at its next feed-window boundary. `posted`
orders the postings: 256 times the tile cycle of the last one, plus its lane, plus 1 (R133); from Clover cycle
`stopAt` on the jobs of a faulted context stand still (R362). `scaleOld` are the scale-table entries before
their recent updates, each with its index and the Clover cycle of the update, oldest first (R164, R188). -/
structure Cluster where
  clk      : ClkSt := .stopped
  want     : Bool := false
  since    : Nat := 0
  k        : Nat := 16
  envelope : Bool := false
  toMode   : Option Bool := none
  cyc      : Nat := 0
  cloverPh : Nat := 0
  tileCyc  : Nat := 0
  tilePh   : Nat := 0
  cycReg   : W64 := 0
  eng      : Sparse Engine := []
  order    : Nat := 0
  sbPeak   : BitVec 7 := 0
  err      : W64 := 0
  scale    : Sparse W32 := []
  ovf      : BitVec 512 := 0
  g1       : Bank := {}
  g2       : Bank := {}
  posted   : Nat := 0
  stopAt   : Option Nat := none
  scaleOld : List (Nat × Nat × W32) := []
deriving DecidableEq, Repr

/-! ### Dies (spec/02, spec/05 to spec/09, spec/12, spec/13) -/

/-- A log record before or after it has its LSEQ (R349). -/
structure LogRec where
  lseq   : BitVec 48 := 0
  src    : Nat
  die    : Nat
  part   : Nat
  mscope : Bool
  ht     : W64
  info   : RaiseInfo
deriving DecidableEq, Repr

/-- The event controller of a die (R336 to R348). `prio` lists the priorities that differ from the master
table; `counts` are the raises of HT millisecond `ms`; of the raises of nanosecond `roseAt`, `rose` are those
that set a pending bit and `again` all of them, and `cut` the enable bits that storms cleared in it (R338,
R340, R345); `offers` are the records that wait for the
arbiter, each with the time of its raise (R350). -/
structure Evc where
  hold     : Bool := false
  pend     : BitVec 512 := 0
  en       : BitVec 512 := 0
  storm    : BitVec 512 := 0
  masked   : BitVec 512 := 0
  deferred : BitVec 512 := 0
  prio     : Sparse Nat := []
  stack    : List Nat := []
  eoiErr   : Bool := false
  limit    : BitVec 16 := 1024
  counts   : Sparse Nat := []
  ms       : Nat := 0
  full     : BitVec 5 := 0
  ovf      : BitVec 5 := 0
  stamps   : Sparse W64 := []
  infos    : Sparse RaiseInfo := []
  roseAt   : Nat := 0
  rose     : BitVec 512 := 0
  again    : BitVec 512 := 0
  cut      : BitVec 512 := 0
  offers   : List (Nat × LogRec) := []
deriving DecidableEq, Repr

/-- A Harebell watch slot (R170 to R176). `told` says that the step has raised NUM_NONFINITE (R174); `newE` to
`newF` are the counts and the step flags of nanosecond `newAt`, which a WCTL.CLEAR of the same one leaves
(R172). -/
structure Watch where
  cfg      : W32 := 0x03E8_0000
  own      : W32 := 0
  elems    : BitVec 48 := 0
  zeros    : BitVec 48 := 0
  sats     : BitVec 48 := 0
  nonfin   : BitVec 48 := 0
  step     : W32 := 0
  stat     : W32 := 0
  firstBad : W32 := 0
  count    : Nat := 0
  told     : Bool := false
  newAt    : Option Nat := none
  newE     : Nat := 0
  newZ     : Nat := 0
  newS     : Nat := 0
  newN     : Nat := 0
  newF     : W32 := 0
deriving DecidableEq, Repr

/-- A stream link (R195). -/
structure Link where
  cfg    : W32 := 0
  pcount : W32 := 0
  ccount : W32 := 0
deriving DecidableEq, Repr

/-- A token-scatter descriptor (R281), by its 64-bit words at +0x00 to +0x38. -/
structure Scat where
  w : Sparse W64 := []
deriving DecidableEq, Repr

/-- A check unit (R206 to R208). -/
structure Chk where
  ctl   : W32 := 0
  stat  : W32 := 0
  acc   : W64 := 0
  exp   : W64 := 0
  bytes : W64 := 0
deriving DecidableEq, Repr

/-- An MMU fault record (R198, R199). -/
structure FaultRec where
  fva  : W64 := 0
  fsrc : W64 := 0
  fcur : W64 := 0
deriving DecidableEq, Repr

/-- A cached translation of a die (R181): context slot, 2 MiB page of the VA, leaf entry, and whether it is a
1 GiB page. -/
structure TlbEnt where
  slot : Nat
  page : Nat
  leaf : W64
  big  : Bool
deriving DecidableEq, Repr

/-- The superstep registers of a context slot on a die that software or misses write (R62, R63). `newAt` is
the time of the last miss, and `newInfo`, `newSsn`, `newOver` its record, which a write to VALID of the same
cycle leaves held (R18, R63). -/
structure SsRegs where
  missAct   : Bool := false
  allow     : BitVec 16 := 0
  stretch   : W64 := 0
  nstretch  : W32 := 0
  nmiss     : W32 := 0
  missInfo  : W32 := 0
  missSsn   : W32 := 0
  missOver  : W32 := 0
  newAt     : Option Nat := none
  newInfo   : W32 := 0
  newSsn    : W32 := 0
  newOver   : W32 := 0
deriving DecidableEq, Repr

/-- The Thistle registers of a context slot (R266, R279); `sent` says that the ARRIVE of this superstep has left. -/
structure Ths where
  cfg   : W32 := 0
  child : W32 := 0
  arr   : BitVec 16 := 0
  self  : Bool := false
  sent  : Bool := false
  stale : W32 := 0
  early : BitVec 16 := 0
  pair  : W32 := 0
deriving DecidableEq, Repr

/-- A DMA unit in flight (R365, R375): its context's handle, and when its transfer was issued. -/
structure FlyUnit where
  cxh  : BitVec 16
  born : Nat
deriving DecidableEq, Repr

/-- A request in the queue of an HBM controller (R365, R375): its context's handle, its stack, and whether it
writes. -/
structure HbmReq where
  cxh   : BitVec 16
  stack : Nat
  wr    : Bool
deriving DecidableEq, Repr

/-- The streams, MMU and check blocks of a die (R181, R195, R199, R206, R281). `waitq` holds the stopped
transfers without a record, in the order of their faults: tile, and queue or 8 + handle. `fly` holds the units
in flight of the die's DMA group, and `hbmq` the requests queued in the controllers of the die's stacks, the
oldest first (R375); `pmAt` is where the DMA group's progress monitor counts from, and `hbmAt` where those of
its HBM controllers do, by the stack's place in the die (R365). -/
structure DieStr where
  root  : Sparse W64 := []
  waitq : List (Nat × Nat) := []
  inval : Option W32 := none
  tlb   : List TlbEnt := []
  frec  : Sparse FaultRec := []
  links : Sparse Link := []
  scat  : Sparse Scat := []
  chk   : Sparse Chk := []
  fly   : List FlyUnit := []
  hbmq  : List HbmReq := []
  pmAt  : Option Nat := none
  hbmAt : Sparse Nat := []
deriving DecidableEq, Repr

/-- The flags and messages blocks of a die (R221, R222, R228, R231). `gfOwn` holds the owning slot plus 1, and
`gfAt` the first flag cycle of a global flag that is not evaluated (R223). -/
structure DieFlg where
  gf     : Sparse Bool := []
  gfOwn  : Sparse Nat := []
  misuse : W64 := 0
  left   : Sparse W64 := []
  gfAt   : Sparse Nat := []
  msgCnt : Sparse W64 := []
deriving DecidableEq, Repr

/-- The reset block of a die (R363 to R366, R389) and its power registers (R390). `missBits` are the cause
bits that a Strict miss copies into a slot's fault record (R60); no field of R389 shows them. -/
structure DieRst where
  wdog     : Sparse W32 := []
  ctxStat  : Sparse W64 := []
  missBits : Sparse (BitVec 4) := []
  fault    : W64 := 0
  faultHt  : W64 := 0
  pmLim    : Sparse (BitVec 16) := []
  forced   : BitVec 16 := 0
  dumpBase : W64 := 0
  dumpInfo : W64 := 0
  dumpSsn  : W32 := 0
  sample   : Sparse W32 := []
  temp     : BitVec 8 := 0
  thrUs    : W32 := 0
  trips    : W32 := 0
deriving DecidableEq, Repr

/-- A die. `xnew0` and `xnew1` are the XCH_ERR record of the first error of nanosecond `xnewAt`, which a write to
V of the same one leaves held (R18, R265). -/
structure Die where
  evc     : Evc := {}
  watch   : Sparse Watch := []
  dsCtl   : Sparse W32 := []
  str     : DieStr := {}
  flg     : DieFlg := {}
  rst     : DieRst := {}
  ss      : Sparse SsRegs := []
  budget  : Sparse W32 := []
  ths     : Sparse Ths := []
  replay  : W64 := 0
  xerr0   : W64 := 0
  xerr1   : W64 := 0
  xnewAt  : Option Nat := none
  xnew0   : W64 := 0
  xnew1   : W64 := 0
  pairSet : W64 := 0
deriving DecidableEq, Repr

/-! ### Ports (spec/08, spec/09, spec/10) -/

/-- Port states (R296). -/
inductive PortSt where
  | down | detect | train | align | up | degraded
deriving DecidableEq, Repr

/-- The link registers of a port (R303) and when its state was entered. CAUSE starts at CONFIG, as R302 has it
(DESIGN CHOICE, log entry 31). -/
structure PortLink where
  ctl     : W32 := 7
  st      : PortSt := .down
  lanes4  : Bool := false
  upper   : Bool := false
  laneOk  : BitVec 8 := 0
  cause   : BitVec 4 := 7
  asym    : BitVec 16 := 0
  skew    : BitVec 16 := 0
  fecCor  : W64 := 0
  fecUnc  : W64 := 0
  crcErr  : W32 := 0
  retry   : W32 := 0
  drop    : W32 := 0
  blkErr  : W32 := 0
  downCnt : BitVec 16 := 0
  since   : Nat := 0
deriving DecidableEq, Repr

/-- A frame held for replay (R293). -/
structure TxFrame where
  seq   : BitVec 12
  frame : Frame
  entry : Nat
  fidx  : Nat
  cxh   : BitVec 16
  naks  : Nat := 0
deriving DecidableEq, Repr

/-- The transmit side of a port (R242, R293, R294). `nakq` holds the NAKs in arrival order; `busy` is the time
until which a replay fills the transmitter, `pmAt` is where the progress monitor counts from (R365), and
`syms` are the symbols that wait for transmission, in the order in which they leave. -/
structure PortTx where
  seq   : BitVec 12 := 0
  buf   : List TxFrame := []
  nakq  : List (BitVec 12) := []
  busy  : Nat := 0
  pmAt  : Option Nat := none
  syms  : List W64 := []
deriving DecidableEq, Repr

/-- A remote window (R203, R205). -/
structure Win where
  open_   : Bool := false
  base    : Nat := 0
  size    : Nat := 0
  hdid    : BitVec 16 := 0
  rcxh    : BitVec 16 := 0
  lcxh    : BitVec 16 := 0
  w       : Bool := false
  red     : Bool := false
  objwin  : Option Nat := none
  rejects : W32 := 0
deriving DecidableEq, Repr

/-- The receive side of a port (R287, R293): the next SEQ not yet received, later SEQs received, SEQs NAKed
and still missing, the time of the last ACK, whether a frame has arrived since the port came UP, the words of
the last block (true: control word), the place of the next block in its codeword and whether that codeword is
uncorrectable, the words of the frame half received with whether an uncorrectable codeword overlaps it, the windows
closed since its first byte came, as they were open (R205), and a
first copy of a Thistle symbol with whether its check may be trusted. -/
structure PortRx where
  expect  : BitVec 12 := 0
  ahead   : List (BitVec 12) := []
  naked   : List (BitVec 12) := []
  ackAt   : Nat := 0
  waiting : Bool := false
  words   : List (Bool × W64) := []
  blk     : Nat := 0
  unc     : Bool := false
  part    : Option (List W64 × Bool) := none
  shut    : List (Nat × Win) := []
  first   : Option (W64 × Bool) := none
deriving DecidableEq, Repr

/-- The states of a slot of the current phase (R254, R256, R257). -/
inductive XSlotSt where
  | idle | active | suspended | tail | sent | done | dead
deriving DecidableEq, Repr

/-- A slot of the current phase: its port-list entry, next frame to send, frames landed, retries charged. -/
structure XSlot where
  entry   : Nat
  tx      : Bool
  st      : XSlotSt := .idle
  next    : Nat := 0
  landed  : List Nat := []
  retries : Nat := 0
  pref    : Bool := false
  data    : List W256 := []
  lastSeq : Option (BitVec 12) := none
deriving DecidableEq, Repr

/-- Reduction-channel states (R275). -/
inductive ChSt where
  | idle | armed | wait | done | fault
deriving DecidableEq, Repr

/-- A reduction channel (R267 to R275): units landed of each source's primary and backup copy and units taken
from a backup (source·2^20 + unit), units formed, and the sources past their deadline. -/
structure Chan where
  st     : ChSt := .idle
  bkUsed : BitVec 16 := 0
  late   : BitVec 16 := 0
  ssn    : W32 := 0
  prim   : List Nat := []
  bk     : List Nat := []
  bkTook : List Nat := []
  formed : List Nat := []
  pastDl : List Nat := []
deriving DecidableEq, Repr

/-- The list RAM, the buffer and the slots of a port (R253, R265, R271) with its channels (R267). `deadTold`
are the HDIDs whose SLOT_DEAD was raised since the port was last UP, and `muted` the entries of dead slots
that raised none because a backup may still cover them (R274). -/
structure PortXch where
  ram     : Sparse W64 := []
  first   : BitVec 8 := 0
  next    : BitVec 8 := 0
  owner   : Option CtxRef := none
  slots   : List XSlot := []
  buf     : Sparse W256 := []
  pend    : List Nat := []
  red     : List Nat := []
  chanRam : Sparse W64 := []
  chans   : Sparse Chan := []
  bkUnits : W64 := 0
  lateCnt : W32 := 0
  lateFr  : W32 := 0
  deadTold : List Nat := []
  muted    : List Nat := []
deriving DecidableEq, Repr

/-- The hall-time record of a port (R234, R241, R265). -/
structure PortHt where
  delay   : BitVec 16 := 0
  valid   : Bool := false
  slow    : Bool := false
  pdepth  : BitVec 4 := 0
  plocked : Bool := false
  pmaster : BitVec 16 := 0
  phdid   : BitVec 16 := 0
  known   : Bool := false
  symErr  : BitVec 8 := 0
  seq     : BitVec 8 := 0
  t1      : Option Nat := none
  t2      : Option (BitVec 40) := none
deriving DecidableEq, Repr

/-- A Uanath port. -/
structure Port where
  link : PortLink := {}
  tx   : PortTx := {}
  rx   : PortRx := {}
  xch  : PortXch := {}
  ht   : PortHt := {}
deriving DecidableEq, Repr

/-! ### Hall time (spec/08) -/

/-- HTM_STAT.STATE (R237). -/
inductive HtSt where
  | free | acquire | locked | holdover
deriving DecidableEq, Repr

/-- Hall time (R232 to R240, R265). `sets` are the HALL_TIME_SETs that wait for an edge, oldest first;
`loaded` says that HT has taken its one step, `told` that this loss of lock was reported, `reparent` that the
next steering exchange is the first with a new parent. -/
structure HallTime where
  now      : W64 := 0
  st       : HtSt := .free
  master   : Bool := false
  depth    : BitVec 4 := 15
  parent   : BitVec 4 := 0
  parentV  : Bool := false
  unlock   : Bool := false
  mhdid    : BitVec 16 := 0
  bound    : BitVec 16 := 0xFFFF
  offset   : BitVec 16 := 0
  pps      : W64 := 0
  todoff   : W64 := 0
  sets     : List (Option RingRef × W64 × Nat) := []
  loaded   : Bool := false
  lastDep  : Nat := 15
  lostAt   : Option Nat := none
  limited  : Bool := false
  told     : Bool := false
  reparent : Bool := false
  fails    : Nat := 0
  goodAt   : Nat := 0
  steps    : Nat := 0
  ppsOut   : Bool := false
deriving DecidableEq, Repr

/-! ### Host port (spec/11) -/

/-- The command in progress on a ring (R319, R320). -/
structure Cur where
  op  : Nat
  seq : BitVec 16
  tag : W32
  idx : Nat
  irq : Bool
  cxh : BitVec 16
  w   : CmdWords
deriving DecidableEq, Repr

/-- A ring (R317, R318): `tailOld` is the tail before the doorbells of nanosecond `tailAt`. -/
structure Ring where
  cmd  : W64 := 0
  rpl  : W64 := 0
  ctl  : W32 := 4
  seq0 : BitVec 16 := 0
  tail : Nat := 0
  tailAt : Option Nat := none
  tailOld : Nat := 0
  head : Nat := 0
  err  : Bool := false
  seq  : BitVec 16 := 0
  cur  : Option Cur := none
deriving DecidableEq, Repr

/-- An MSI-X vector: HST_MOD, pending count, time of the first pending message, mask and PBA bits (R333, R334). -/
structure Vec where
  mod    : W32 := 0x100
  n      : Nat := 0
  t1     : Option Nat := none
  masked : Bool := true
  pba    : Bool := false
deriving DecidableEq, Repr

/-- A physical function: its BAR2 (R313, R317, R325, R334), its HST counters (R316), its event cursor (R353),
its power state (R335), the latched high words of 64-bit registers by their BAR0 offsets, and 2^26 more for
BAR2 (R48), and the ring whose turn is next (R319). `orphans` are the DMA_HOSTs of the commands that a Function
Level Reset in STANDBY left without a reply, which end after the wake (R44, R314). -/
structure Fn where
  rings   : Sparse Ring := []
  attn    : BitVec 8 := 0
  attnCtl : W32 := 0
  b4base  : W64 := 0
  b4err   : W32 := 0
  vecs    : Sparse Vec := []
  msix    : Sparse W32 := []
  d3      : Bool := false
  pmeEn   : Bool := false
  ringErr : BitVec 16 := 0
  taken   : W64 := 0
  flrs    : BitVec 16 := 0
  cursor  : BitVec 48 := 0
  his     : Sparse W32 := []
  turn    : Nat := 0
  orphans : List CmdWords := []
deriving DecidableEq, Repr

/-! ### Contexts (spec/01, spec/02) -/

/-- The states of a context slot: free, the six of R73, and a slot still in use by a teardown (R375). -/
inductive CtxSt where
  | free | created | loaded | running | halted | done | faulted | tearing
deriving DecidableEq, Repr

/-- An entry record of a header (R78). -/
structure EntRec where
  tid  : Nat
  thr  : Nat
  all  : Bool
  kind : Nat
  addr : Nat
deriving DecidableEq, Repr

/-- A loaded header (R77). -/
structure Hdr where
  tc       : Nat
  det      : Bool
  bclk     : Bool
  missAct  : Bool
  modCount : Nat
  allow    : BitVec 16
  wdog     : W32
  dsCtl    : W32
  sample   : W32
  watch    : List (Nat × Nat)
  flags    : List (Nat × Nat)
  entries  : List EntRec
deriving DecidableEq, Repr

/-- A TABLE record (R79). -/
structure TblRec where
  table : Nat
  die   : Nat
  index : Nat
  value : W64
deriving DecidableEq, Repr

/-- A RELOC record (R80). -/
structure RelRec where
  addr   : Nat
  kind   : Nat
  all    : Bool
  addend : Int
  base   : Nat
  objwin : Nat
  tid    : Nat
  die    : Nat
  shift  : Nat
  width  : Nat
deriving DecidableEq, Repr

/-- Where a RUNNING context stands in its superstep (R50); `boundary` is a superstep boundary at which a HALT
waits to take effect (R75). -/
inductive Phase where
  | compute | barrier | exchange | boundary
deriving DecidableEq, Repr

/-- The superstep state of a context (R53 to R62, R75, R229, R278). `cand` is the tile, thread and budget
index that R57 picks so far; `arrAt` the arrival of the context; `late` and `slotOver` mark the dies that met
LATE_CONSUMER and SLOT_OVERRUN in this superstep; `compared` says that a twin's digest has been compared;
`haltBy` are the rings of waiting HALTs; `snapT` and `snapG` are the tile flags and the global flags set at
START; `wdogAt` is where the watchdog counts from, `instant` holds the conditions met in this nanosecond with
MISS_ACT = 1 by die, cause and overrun (R60), and `faultAt` is the time of the context's fault, with the draw
of the times at which its stop reaches the exchange units (R251); `inbox` holds the twin's digests that came
before the context's own, by SSN (R278). -/
structure Run where
  phase    : Phase := .compute
  ssn      : W32 := 0
  tcs      : Nat := 0
  budIdx   : BitVec 8 := 0
  cand     : Option (Nat × Nat × BitVec 8) := none
  arrAt    : Option Nat := none
  tbc      : W64 := 0
  tbcV     : Bool := false
  xstart   : W64 := 0
  late     : BitVec 4 := 0
  slotOver : BitVec 4 := 0
  compared : Bool := false
  haltBy   : List RingRef := []
  snapT    : Sparse W64 := []
  snapG    : List (Nat × Nat) := []
  islocal  : Bool := false
  digest   : List W64 := []
  wdogAt   : Nat := 0
  instant  : List (Nat × Nat × Nat) := []
  faultAt  : Option (Nat × Nat) := none
  inbox    : List (W32 × List W64) := []
deriving DecidableEq, Repr

/-- What a removal of a context is for (R314, R371, R375, R377). -/
inductive TdKind where
  | teardown | reset | flr | level2
deriving DecidableEq, Repr

/-- A teardown in progress (R375): who gets the reply, the level that forced it, and whether its steps 1 to 5
are done. -/
structure Td where
  kind   : TdKind
  owner  : Option RingRef
  forced : Option Nat := none
  wiped  : Bool := false
  due    : Nat := 0
deriving DecidableEq, Repr

/-- A context slot (R39, R42, R73). `flr` says that a Function Level Reset tears it down and that its turn has
not come (R40, R314, R375); `released` are the watch slots, by die, of the headers that a later one replaced
(R76). -/
structure Ctx where
  epoch    : BitVec 8 := 0
  st       : CtxSt := .free
  strict   : Bool := false
  clusters : BitVec 32 := 0
  allocPa  : Nat := 0
  alloc2m  : Nat := 0
  hdr      : Option Hdr := none
  segTcs   : List Nat := []
  tables   : List TblRec := []
  relocs   : List RelRec := []
  unres    : Nat := 0
  run      : Run := {}
  td       : Option Td := none
  sampleBy : Option (Option RingRef × Nat) := none
  flr      : Bool := false
  released : List (Nat × Nat) := []
deriving DecidableEq, Repr

/-- Partition layouts (R35). -/
inductive Layout where
  | p1 | p2 | p4
deriving DecidableEq, Repr

/-! ### Fabric in flight (spec/07, spec/08) -/

/-- Where an exchange unit goes (R249). -/
inductive XDest where
  | tile (tid : Nat)
  | port (p unit : Nat)
deriving DecidableEq, Repr

/-- An exchange unit in the mesh (R250): identity, context, source, destination, data, route and lane, the
router it enters next and the cycle at which it does. -/
structure Flight where
  id    : Nat
  ctx   : CtxRef
  cxh   : BitVec 16
  src   : Nat
  dest  : XDest
  data  : W256
  lane  : Nat
  yx    : Bool
  rr    : Nat
  rc    : Nat
  cycle : Nat
  arrived : Bool := false
deriving DecidableEq, Repr

/-- One use of an output lane of a router in an exchange cycle (R251). -/
structure LaneUse where
  ctx   : CtxRef
  cycle : Nat
  chan  : Nat
  lane  : Nat
  unit  : Nat
  src   : Nat
deriving DecidableEq, Repr

/-- What a flag request does (R223, R225). -/
inductive FlagKind where
  | set | clear | wait | claim
deriving DecidableEq, Repr

/-- Who made a flag request (R223, R231). -/
inductive FlagSrc where
  | thread | clover | host
deriving DecidableEq, Repr

/-- A flag request, travelling or at the arbiter (R223). `order` is the flag cycle of its arrival; `job` names
the Clover job whose misuse is still to be counted (R228). -/
structure FlagReq where
  g       : FlagRef
  kind    : FlagKind
  src     : FlagSrc
  tid     : Nat
  thr     : Nat
  cxh     : BitVec 16
  arrived : Bool
  order   : Nat
  owner   : Option RingRef := none
  job     : Nat := 0
deriving DecidableEq, Repr

/-! ### Platform (spec/10, spec/12, spec/13) -/

/-- Power states (R357). -/
inductive PState where
  | active | idle | standby
deriving DecidableEq, Repr

/-- A firmware image in flash (R355, R382): its header and CRC-64 stand, its version, its signature verifies; and
whether it was written since it ran last. -/
structure FwImage where
  valid   : Bool
  version : W32
  signed  : Bool
  fresh   : Bool := false
deriving DecidableEq, Repr

/-- A POWER_MODE change in progress (R359). -/
structure PmChange where
  envelope : Bool
  owner    : Option RingRef
  since    : Nat
deriving DecidableEq, Repr

/-- The PCIe link as HST_PCIE and HST_PCIERR report it (R312, R316): `stat` is RATE, WIDTH and FLIT of its
training, RATE 0 before it. Then whether it is in L1, and the time of a PME_Turn_Off (R335). -/
structure Pcie where
  stat : W32 := 0
  errs : W32 := 0
  l1   : Bool := false
  turn : Option Nat := none
  off  : Bool := false
deriving DecidableEq, Repr

/-- Fuses (R4, R34, R379): disabled clusters, stepping, row maps, life-cycle state. -/
structure Fuses where
  dis      : W32 := 0
  stepping : BitVec 8 := 0xA1
  rowmap   : Sparse W32 := []
  lcs      : BitVec 2 := 2
deriving DecidableEq, Repr

/-- Power, pins, life cycle and firmware (R308, R309, R354 to R361, R379 to R387). `straps` are I3C_ADDR[2:0],
and `hbmSr` says that the HBM stacks are in self-refresh (R44, R357). -/
structure Plat where
  powered   : Bool := true
  running   : Bool := true
  pstate    : PState := .idle
  envelope  : Bool := false
  change    : Option PmChange := none
  k         : Nat := 16
  trip      : Bool := false
  tripPower : Bool := false
  tripAt    : Nat := 0
  overCnt   : Nat := 0
  therm     : Bool := false
  stepAt    : Nat := 0
  power     : Nat := 0
  thrNs     : Nat := 0
  perst     : Bool := true
  pf        : Bool := true
  pfAt      : Nat := 0
  pwrCycle  : Bool := false
  ppsSeen   : Bool := false
  lock      : BitVec 9 := 0
  recovery  : Bool := false
  fwB       : Bool := false
  fwImgA    : FwImage := { valid := true, version := 1, signed := true }
  fwImgB    : FwImage := { valid := false, version := 0, signed := false }
  fwBy      : Option (Option RingRef × Bool × List Byte) := none
  boot      : BitVec 3 := 0
  idleAt    : Nat := 0
  pcie      : Pcie := {}
  hbmUp     : Bool := false
  hbmSr     : Bool := false
  straps    : BitVec 3 := 0
  cfgBy     : Option (Option RingRef × List Byte) := none
deriving DecidableEq, Repr

/-- A configuration image applied (R330). -/
structure Cfg where
  hdid   : BitVec 16
  master : Bool
  pair   : Bool
  env    : Bool
  portEn : BitVec 16
  allow4 : BitVec 16
  bytes  : List Byte
deriving DecidableEq, Repr

/-- RED_PAIR (R280). -/
structure Pair where
  on       : Bool := false
  twin     : Bool := false
  lost     : Bool := false
  diverged : Bool := false
  skipped  : BitVec 16 := 0
  ssn      : W32 := 0
deriving DecidableEq, Repr

/-- A reset in progress (R367 to R374). `target` is the engine ID or the CXH; `owner` gets the reply of the
command that asked for it, `late` hold the commands whose resets it forces (R369); `ctx` is the context of an
L0, or the one whose L0 an L1 forces, `lcs` the life-cycle state of a LIFECYCLE, `perst` says that PERST#
started it. -/
structure Reset where
  level  : Nat
  target : BitVec 16
  part   : Nat
  start  : Nat
  owner  : Option RingRef
  late   : List RingRef := []
  ctx    : Option CtxRef := none
  lcs    : Option (BitVec 2) := none
  perst  : Bool := false
deriving DecidableEq, Repr

/-- The event log (R349 to R353, R383). `open_` counts the records of the open page, `openAt` is the time of
its first one, `filled` says that it is due while another page is programmed; `prog` is the last LSEQ of the
page being programmed and when that began; `run` and `runAt` are the drops of the present run and HT at its
first; `turn` is the die whose turn is next, and `lastAt` is the time of the last append (R350). -/
structure Log where
  next     : BitVec 48 := 0
  recs     : List LogRec := []
  open_    : Nat := 0
  openAt   : Nat := 0
  filled   : Bool := false
  prog     : Option (Nat × Nat) := none
  commit   : BitVec 48 := BitVec.allOnes 48
  lost     : W32 := 0
  run      : Nat := 0
  runAt    : W64 := 0
  turn     : Nat := 0
  lastAt   : Option Nat := none
deriving DecidableEq, Repr

/-- The W1C bits that hardware set in one nanosecond (R18): the time, and the bits by the bit addresses of
their registers; and, by the bit address of their V, the records that found another one valid, which a write of
1 to V in that nanosecond leaves held. -/
structure Fresh where
  time : Nat := 0
  bits : List Nat := []
  recs : List (Nat × W64) := []
deriving DecidableEq, Repr

/-- The instructions of the test access port (R311): the four that R311 names, and any other (a debug
instruction, R381). -/
inductive TapIr where
  | bypass | idcode | sample | extest | debug
deriving DecidableEq, Repr

/-- The states of the TAP controller (IEEE 1149.1). -/
inductive TapSt where
  | reset | idle
  | selDr | capDr | shDr | ex1Dr | pauDr | ex2Dr | upDr
  | selIr | capIr | shIr | ex1Ir | pauIr | ex2Ir | upIr
deriving DecidableEq, Repr

/-- The test access port (R308, R311): its controller, whether TRST# is low, the instruction in force, the
shift paths of the instruction and data registers (the bit nearest TDO first), the latches of the
boundary-scan register, and TDO (none while it is not driven). -/
structure Tap where
  st   : TapSt := .reset
  trst : Bool := false
  ir   : TapIr := .idcode
  irSh : List Bool := []
  drSh : List Bool := []
  bsr  : List Bool := List.replicate 14 false
  tdo  : Option Bool := none
deriving DecidableEq, Repr

/-- Events on lands for which the opcode table has no row (R308, R310 to R312): a rising edge of TCK with TMS
and TDI, TRST#, a read or a write on the management bus, a dynamic address assigned or withdrawn, the result
of a PCIe training, a retrain, a correctable error. -/
inductive PinEv where
  | tck      (tms tdi : Bool)
  | trst     (low : Bool)
  | i3cRead  (addr : BitVec 7) (off : Nat)
  | i3cWrite (addr : BitVec 7) (off : Nat) (v : W32)
  | i3cDyn   (addr : Option (BitVec 7))
  | pcieLink (rate : BitVec 4) (width : BitVec 5)
  | pcieRetrain
  | pcieCorr
deriving DecidableEq, Repr

/-- What leaves the module: a word on a port, a frame, an MSI-X message, a PME, a read's data, an Unsupported
Request, a word that a control core reads, a register on the management bus, a bit on TDO. -/
inductive Out where
  | word  (port : Nat) (w : W64)
  | frame (port : Nat) (x : Frame)
  | msix  (pf vec : Nat)
  | pme   (pf : Nat)
  | data32 (pf bar off : Nat) (v : W32)
  | bytes (pf off : Nat) (v : List Byte)
  | unsupported (pf off : Nat)
  | pmeAck
  | data64 (pf bar off : Nat) (v : W64)
  | claim (die : Nat) (v : W32)
  | i3c   (off : Nat) (v : W32)
  | tdo   (b : Bool)
deriving DecidableEq, Repr

/-- The module. `pins` are events on lands that the idle step takes, oldest first (log entry 55); `i3cDyn` is
the dynamic address of the management bus. -/
structure State where
  pending  : List Instr := []
  ht       : HallTime := {}
  plat     : Plat := {}
  fuses    : Fuses := {}
  cfg      : Option Cfg := none
  pair     : Pair := {}
  layout   : Layout := .p1
  parts    : BitVec 4 := 1
  ctxs     : Sparse Ctx := []
  tiles    : Sparse Tile := []
  clusters : Sparse Cluster := []
  dies     : Sparse Die := []
  ports    : Sparse Port := []
  fns      : Sparse Fn := []
  hbm      : List Host.Cell := []
  hostMem  : List Host.Cell := []
  wins     : Sparse Win := []
  flights  : List Flight := []
  lanes    : List LaneUse := []
  freqs    : List FlagReq := []
  log      : Log := {}
  resets   : List Reset := []
  free     : Nat := 0
  outs     : List Out := []
  fresh    : Fresh := {}
  tap      : Tap := {}
  i3cDyn   : Option (BitVec 7) := none
  pins     : List PinEv := []
deriving DecidableEq, Repr

/-- Why the machine stops. -/
inductive Fault where
  /-- Raised by every meaning whose command names a tile, thread, port, die, cluster or other unit by a number
  that the module does not have (R2, R26). Safe: such a command has no step in the hardware. -/
  | noSuchUnit
deriving DecidableEq, Repr

/-- Why a command has no meaning here. -/
inductive Refusal where
  /-- Raised by `exec` for a row whose meaning is not written yet. Safe: the machine stops. -/
  | notModelled (mnemonic : String)
deriving DecidableEq, Repr

/-- The module after the power-up steps of R354: no configuration, layout P1 with no context, epochs and lock
bits 0, PSTATE IDLE, Full. -/
def State.reset : State := {}

end Sys2Proof.Machine
end

