-- ==== Sys2Proof/WellFormed.lean ====
section
/-!
DEFINITION. Which commands name units that one module has (R2, R22, R26, R32, R39, R83, R106, R114, R200, R317, R333).
-/

namespace Sys2Proof

/-- A thread of a tile: 8,192 tiles of six threads (R26, R83). -/
def IssueRef.ok (r : IssueRef) : Bool := r.tid < 8192 && r.thr < 6
/-- A context slot: four partitions of eight (R35, R39). -/
def CtxRef.ok (c : CtxRef) : Bool := c.part < 4 && c.slot < 8
/-- A ring: four functions of sixteen (R313, R317). -/
def RingRef.ok (r : RingRef) : Bool := r.pf < 4 && r.ring < 16
/-- A flag: 64 in a tile, 4,096 in a die (R222). -/
def FlagRef.ok : FlagRef → Bool
  | .tile t n => t < 8192 && n < 64
  | .glob d n => d < 4 && n < 4096
def tidOk (t : Nat) : Bool := t < 8192
def thrOk (n : Nat) : Bool := n < 6
def portOk (p : Nat) : Bool := p < 16
def dieOk (d : Nat) : Bool := d < 4
def cidOk (c : Nat) : Bool := c < 32
def engOk (e : Nat) : Bool := e < 3
def pfOk (f : Nat) : Bool := f < 4
def grpOk (g : Nat) : Bool := g = 1 || g = 2
/-- A writer of registers: a function through its BAR0 or BAR2, or the control core of a die. -/
def regByOk : RegBy → Nat → Bool
  | .host pf, bar => pfOk pf && (bar = 0 || bar = 2)
  | .core d, bar => dieOk d && bar = 0

/-- A reader of BAR0 or BAR2. -/
def barReadOk (pf : Nat) (a : BarRead) : Bool := pfOk pf && (a.bar = 0 || a.bar = 2)

/-- The check of every command, constructor by constructor. -/
def Instr.wellFormed : Instr → Bool
  | .add r _ => r.ok
  | .sub r _ => r.ok
  | .and r _ => r.ok
  | .or r _ => r.ok
  | .xor r _ => r.ok
  | .shl r _ => r.ok
  | .shr r _ => r.ok
  | .sra r _ => r.ok
  | .mul r _ => r.ok
  | .mulhu r _ => r.ok
  | .mulhs r _ => r.ok
  | .min r _ => r.ok
  | .max r _ => r.ok
  | .minu r _ => r.ok
  | .maxu r _ => r.ok
  | .slt r _ => r.ok
  | .sltu r _ => r.ok
  | .seq r _ => r.ok
  | .sel r _ => r.ok
  | .clz r _ => r.ok
  | .popc r _ => r.ok
  | .movi r _ => r.ok
  | .movhi r _ => r.ok
  | .rdtid r _ => r.ok
  | .rdthr r _ => r.ok
  | .rdssn r _ => r.ok
  | .rdht r _ => r.ok
  | .beq r _ => r.ok
  | .bne r _ => r.ok
  | .blt r _ => r.ok
  | .bge r _ => r.ok
  | .bltu r _ => r.ok
  | .bgeu r _ => r.ok
  | .j r _ => r.ok
  | .jal r _ => r.ok
  | .jr r _ => r.ok
  | .ld8 r _ => r.ok
  | .ld16 r _ => r.ok
  | .ld32 r _ => r.ok
  | .ld64 r _ => r.ok
  | .lds8 r _ => r.ok
  | .lds16 r _ => r.ok
  | .lds32 r _ => r.ok
  | .st8 r _ => r.ok
  | .st16 r _ => r.ok
  | .st32 r _ => r.ok
  | .st64 r _ => r.ok
  | .vld r _ => r.ok
  | .vst r _ => r.ok
  | .vfma r _ => r.ok
  | .vadd r _ => r.ok
  | .vsub r _ => r.ok
  | .vmul r _ => r.ok
  | .vmax r _ => r.ok
  | .vmin r _ => r.ok
  | .vbcast r _ => r.ok
  | .vcvt r _ => r.ok
  | .vreds r _ => r.ok
  | .vredm r _ => r.ok
  | .vext r _ => r.ok
  | .qput r _ => r.ok
  | .qget r _ => r.ok
  | .qwait r _ => r.ok
  | .send r _ => r.ok
  | .sendw r _ => r.ok
  | .recv r _ => r.ok
  | .poll r _ => r.ok
  | .fset r _ => r.ok
  | .fclr r _ => r.ok
  | .fwait r _ => r.ok
  | .fwaitc r _ => r.ok
  | .fence r _ => r.ok
  | .cjob r _ => r.ok
  | .sopen r _ => r.ok
  | .swait r _ => r.ok
  | .srelease r _ => r.ok
  | .updSplit r _ => r.ok
  | .sync r _ => r.ok
  | .halt r _ => r.ok
  | .nop r _ => r.ok
  | .coreDataReplay r => r.ok
  | .dmaReplay tid unit _ => tidOk tid && unit < 24
  | .tileArrival tid => tidOk tid
  | .txPrefetch port entry => portOk port && entry < 256
  | .exchangeListRead tid _ => tidOk tid
  | .barrierComplete c => c.ok
  | .thsArriveReceive port _ _ => portOk port
  | .thsCompleteReceive port _ _ => portOk port
  | .computeOverrun c => c.ok
  | .exchangePhaseStart c => c.ok
  | .exchangeUnitSend tid entry _ => tidOk tid && entry < 64
  | .exchangeUnitHop _ => true
  | .exchangeUnitArrival _ => true
  | .exchangeUnitMissing tid entry _ => tidOk tid && entry < 64
  | .exchangePhaseEnd c => c.ok
  | .watchStepClose die slot => dieOk die && slot < 256
  | .haltTakesEffect c => c.ok
  | .clusterClockStart cid => cidOk cid
  | .cloverJobStart cid eng => cidOk cid && engOk eng
  | .cloverOutputTileStart cid eng => cidOk cid && engOk eng
  | .cloverFeedWindow cid lane _ _ => cidOk cid && lane < 256
  | .cloverWavefrontComplete cid eng => cidOk cid && engOk eng
  | .cloverDrainWrite cid eng row unit => cidOk cid && engOk eng && row < 256 && unit < 48
  | .cloverTileDrainComplete cid eng => cidOk cid && engOk eng
  | .cloverJobComplete cid eng => cidOk cid && engOk eng
  | .queueRequestComplete tid q => tidOk tid && q < 8
  | .streamBlockStart tid h => tidOk tid && h < 16
  | .dmaUnitMove tid unit _ _ => tidOk tid && unit < 24
  | .streamBlockComplete tid h => tidOk tid && h < 16
  | .lateConsumer tid thr => tidOk tid && thrOk thr
  | .messageArrival tid thr => tidOk tid && thrOk thr
  | .messageReplyArrival tid thr => tidOk tid && thrOk thr
  | .sendwRetry tid thr => tidOk tid && thrOk thr
  | .msgRetryExhausted tid thr => tidOk tid && thrOk thr
  | .msgRecvTimeout tid thr => tidOk tid && thrOk thr
  | .flagRequestArrival _ => true
  | .flagEvaluation g => g.ok
  | .flagTimeout tid thr => tidOk tid && thrOk thr
  | .slotStart port entry => portOk port && entry < 256
  | .frameTransmit port => portOk port
  | .slotSuspend port entry => portOk port && entry < 256
  | .slotTail port => portOk port
  | .frameReceive port _ _ => portOk port
  | .ackSend port => portOk port
  | .ackReceive port _ => portOk port
  | .nakReceive port _ => portOk port
  | .replayStart port => portOk port
  | .blockReceive port _ _ => portOk port
  | .channelUnitForm port chan _ => portOk port && chan < 64
  | .reduceDeadline port chan => portOk port && chan < 64
  | .digestReceive port _ => portOk port
  | .tsExchangeStart _ => true
  | .tsReqReceive port _ _ _ => portOk port
  | .tsRespReceive port _ => portOk port
  | .tsFupReceive port _ _ => portOk port
  | .htLock => true
  | .parentSelect => true
  | .holdoverRestrictionEnd => true
  | .holdoverBoundStep => true
  | .treeSend => true
  | .treeReceive port _ => portOk port
  | .hallTimeSet r _ => r.ok
  | .htPpsInEdge => true
  | .htPpsOutPulse => true
  | .signalDetect port => portOk port
  | .trainingComplete port _ _ => portOk port
  | .trainTimeout port => portOk port
  | .alignComplete port _ _ _ => portOk port
  | .lossOfSignal port => portOk port
  | .laneLockLoss port lane => portOk port && lane < 8
  | .goingAwayReceive port _ => portOk port
  | .doorbell r _ => r.ok
  | .ringEnable r _ => r.ok
  | .ringDisable r _ => r.ok
  | .nopCommand r _ => r.ok
  | .identify r _ => r.ok
  | .configApply r _ => r.ok
  | .configApplyComplete => true
  | .configRead r _ => r.ok
  | .partCreate r _ => r.ok
  | .partDestroy r _ => r.ok
  | .ctxCreate r _ => r.ok
  | .ctxTeardown r _ => r.ok
  | .ctxReset r _ => r.ok
  | .drainComplete c => c.ok
  | .scrubComplete c => c.ok
  | .loadSegment r _ => r.ok
  | .relocate r _ => r.ok
  | .patch r _ => r.ok
  | .start r _ => r.ok
  | .haltCommand r _ => r.ok
  | .resume r _ => r.ok
  | .dmaHost r _ => r.ok
  | .dmaHostComplete r => r.ok
  | .windowOpen r _ => r.ok
  | .windowClose r _ => r.ok
  | .flagSet r _ => r.ok
  | .flagRead r _ => r.ok
  | .scratchSample r _ => r.ok
  | .sampleComplete c => c.ok
  | .eventRead r _ => r.ok
  | .eventAck r _ => r.ok
  | .powerMode r _ => r.ok
  | .powerModeComplete => true
  | .bankPower r _ => r.ok
  | .bankOffComplete cid grp => cidOk cid && grpOk grp
  | .bankOffTimeout cid grp => cidOk cid && grpOk grp
  | .bankOnComplete cid grp => cidOk cid && grpOk grp
  | .lifecycle r _ => r.ok
  | .lock r _ => r.ok
  | .linkControl r _ => r.ok
  | .resetEscalate r _ => r.ok
  | .fwUpdate r _ => r.ok
  | .functionLevelReset pf => pfOk pf
  | .bar4Access pf _ _ => pfOk pf
  | .bar0LowWordRead pf a => barReadOk pf a
  | .registerWrite who bar _ _ => regByOk who bar
  | .mmuInval pf die _ => pfOk pf && dieOk die
  | .mmuInvalComplete die => dieOk die
  | .mmuFaultResume pf die rec _ => pfOk pf && dieOk die && rec < 32
  | .mmuFaultAbort pf die rec _ => pfOk pf && dieOk die && rec < 32
  | .numWctlClear pf die slot _ => pfOk pf && dieOk die && slot < 256
  | .msixModerationTimeout pf vec => pfOk pf && vec < 512
  | .msixUnmask pf vec => pfOk pf && vec < 512
  | .pcieL1Entry => true
  | .d3hotEntry pf _ => pfOk pf
  | .d0Return pf => pfOk pf
  | .pmeTurnOff => true
  | .eventRaise die _ _ => dieOk die
  | .stormWindow => true
  | .evcClaim die => dieOk die
  | .evcEoi die => dieOk die
  | .evcHoldSet die => dieOk die
  | .evcHoldRelease die => dieOk die
  | .latchTransfer die latch => dieOk die && latch < 5
  | .logAppend => true
  | .pageCommitTimer => true
  | .pageProgramComplete => true
  | .powerUp => true
  | .bootSample _ => true
  | .perstEdge => true
  | .perstRise => true
  | .powerFail => true
  | .pfRise => true
  | .railLoss => true
  | .idleEntry => true
  | .standbyEntry => true
  | .standbyWake => true
  | .throttleStep _ _ => true
  | .throttleApply cid => cidOk cid
  | .tripClear _ => true
  | .ssWatchdog c => c.ok
  | .engineHang _ => true
  | .resetBudgetExpiry _ => true
  | .tileFence tid => tidOk tid
  | .resetComplete _ => true
  | .hallTimeSetTimeout => true
  | .fwUpdateComplete _ => true
  | .clusterGating cid => cidOk cid

end Sys2Proof
end

