-- ==== Sys2Proof/Machine/Ops.lean ====
section
/-!
DEFINITION. The named operations on tables, memories, bits and the parts of the state that every family uses.
-/

namespace Sys2Proof.Machine

abbrev Res := Host.Outcome State Fault Refusal

/-! ### Tables -/

/-- The entry of a table at an index. -/
def sget {α : Type} (d : α) : Sparse α → Nat → α
  | [], _ => d
  | (i, x) :: m, k => if k = i then x else if k < i then d else sget d m k

/-- A table with one entry set. -/
def sput {α : Type} : Sparse α → Nat → α → Sparse α
  | [], k, v => [(k, v)]
  | (i, x) :: m, k, v =>
    if k < i then (k, v) :: (i, x) :: m
    else if k = i then (k, v) :: m
    else (i, x) :: sput m k v

/-- A table without the entries whose index satisfies `p`. -/
def sdrop {α : Type} (p : Nat → Bool) (m : Sparse α) : Sparse α := m.filter (fun e => !p e.1)

/-! ### Memories: bytes by address, an unlisted byte reads 0 -/

/-- What an unlisted byte of a memory reads as (log entry 6). -/
def Memory.blank : Byte := 0

/-- A byte of a memory. -/
def mget : List Host.Cell → Nat → Byte
  | [], _ => Memory.blank
  | (i, x) :: m, k => if k = i then x else if k < i then Memory.blank else mget m k

/-- A memory with one byte written, in canonical form. -/
def mput : List Host.Cell → Nat → Byte → List Host.Cell
  | [], k, v => if v = Memory.blank then [] else [(k, v)]
  | (i, x) :: m, k, v =>
    if k < i then (if v = Memory.blank then (i, x) :: m else (k, v) :: (i, x) :: m)
    else if k = i then (if v = Memory.blank then m else (k, v) :: m)
    else (i, x) :: mput m k v

/-- The canonical form: addresses rise strictly from above `lo`, and no byte listed is the blank one. -/
def Memory.wfFrom : Nat → List Host.Cell → Bool
  | _, [] => true
  | lo, (i, x) :: m => decide (lo ≤ i) && decide (x ≠ Memory.blank) && Memory.wfFrom (i + 1) m

/-- The canonical form of a memory. -/
def Memory.wf (m : List Host.Cell) : Bool := Memory.wfFrom 0 m

/-- `n` bytes from an address. -/
def mread (m : List Host.Cell) (a : Nat) : Nat → List Byte
  | 0 => []
  | n + 1 => mget m a :: mread m (a + 1) n

/-- Bytes written from an address up. -/
def mwrite (m : List Host.Cell) (a : Nat) : List Byte → List Host.Cell
  | [] => m
  | b :: bs => mwrite (mput m a b) (a + 1) bs

/-- A range of a memory zeroed: its bytes are no longer listed. -/
def mzero (m : List Host.Cell) (a n : Nat) : List Host.Cell :=
  m.filter (fun c => c.1 < a || a + n ≤ c.1)

/-! ### Bits -/

/-- Little-endian bytes as a number (R12). -/
def leNat : List Byte → Nat
  | [] => 0
  | b :: bs => b.toNat + 256 * leNat bs

/-- A number as `n` little-endian bytes (R12). -/
def toLE : Nat → Nat → List Byte
  | 0, _ => []
  | n + 1, v => BitVec.ofNat 8 v :: toLE n (v / 256)

/-- Bits [hi:lo] of a number. -/
def bits (v hi lo : Nat) : Nat := v / 2 ^ lo % 2 ^ (hi + 1 - lo)

/-- Bit n of a number. -/
def bit (v n : Nat) : Bool := v / 2 ^ n % 2 = 1

/-- Bits [hi:lo] of a 64-bit word. -/
def fld (w : W64) (hi lo : Nat) : Nat := bits w.toNat hi lo

/-- A number placed at bit `lo`. -/
def at_ (lo v : Nat) : Nat := v * 2 ^ lo

/-- A truth value as a bit. -/
def b1 (b : Bool) : Nat := if b then 1 else 0

/-- Bits [hi:lo] of a word replaced. -/
def setBits {w : Nat} (x : BitVec w) (hi lo v : Nat) : BitVec w :=
  let n := hi + 1 - lo
  let mask := BitVec.ofNat w ((2 ^ n - 1) * 2 ^ lo)
  (x &&& ~~~mask) ||| BitVec.ofNat w (v % 2 ^ n * 2 ^ lo)

/-- A two's-complement value of `n` bits. -/
def signed (v n : Nat) : Int := if 2 ^ (n - 1) ≤ v % 2 ^ n then (v % 2 ^ n : Int) - 2 ^ n else (v % 2 ^ n : Int)

/-- Bit n of a bit vector set to a truth value. -/
def putBit {w : Nat} (x : BitVec w) (n : Nat) (b : Bool) : BitVec w :=
  if b then x ||| BitVec.ofNat w (2 ^ n) else x &&& ~~~(BitVec.ofNat w (2 ^ n))

/-! ### Parts of the state -/

def State.tile (s : State) (t : Nat) : Tile := sget {} s.tiles t
def State.setTile (s : State) (t : Nat) (x : Tile) : State := { s with tiles := sput s.tiles t x }
def State.cluster (s : State) (c : Nat) : Cluster := sget {} s.clusters c
def State.setCluster (s : State) (c : Nat) (x : Cluster) : State := { s with clusters := sput s.clusters c x }
def State.die (s : State) (d : Nat) : Die := sget {} s.dies d
def State.setDie (s : State) (d : Nat) (x : Die) : State := { s with dies := sput s.dies d x }
def State.port (s : State) (p : Nat) : Port := sget {} s.ports p
def State.setPort (s : State) (p : Nat) (x : Port) : State := { s with ports := sput s.ports p x }
def State.fn (s : State) (f : Nat) : Fn := sget {} s.fns f
def State.setFn (s : State) (f : Nat) (x : Fn) : State := { s with fns := sput s.fns f x }
def State.win (s : State) (w : Nat) : Win := sget {} s.wins w
def State.setWin (s : State) (w : Nat) (x : Win) : State := { s with wins := sput s.wins w x }

/-- The index of a context slot in `ctxs`. -/
def ctxKey (c : CtxRef) : Nat := 8 * c.part + c.slot
def State.ctx (s : State) (c : CtxRef) : Ctx := sget {} s.ctxs (ctxKey c)
def State.setCtx (s : State) (c : CtxRef) (x : Ctx) : State := { s with ctxs := sput s.ctxs (ctxKey c) x }

/-- A thread of a tile. -/
def Tile.thread (x : Tile) (n : Nat) : Thread := sget {} x.thr n
def State.thread (s : State) (t n : Nat) : Thread := (s.tile t).thread n
def State.setThread (s : State) (t n : Nat) (x : Thread) : State :=
  s.setTile t { s.tile t with thr := sput (s.tile t).thr n x }

/-- Tile SRAM, byte by byte. -/
def State.sramByte (s : State) (t a : Nat) : Byte := mget (s.tile t).sram a
def State.sramRead (s : State) (t a n : Nat) : List Byte := mread (s.tile t).sram a n
def State.sramWrite (s : State) (t a : Nat) (bs : List Byte) : State :=
  s.setTile t { s.tile t with sram := mwrite (s.tile t).sram a bs }

/-- A ring of a function. -/
def State.ring (s : State) (r : RingRef) : Ring := sget {} (s.fn r.pf).rings r.ring
def State.setRing (s : State) (r : RingRef) (x : Ring) : State :=
  s.setFn r.pf { s.fn r.pf with rings := sput (s.fn r.pf).rings r.ring x }

/-- HT in ns (R232). -/
def State.now (s : State) : Nat := s.ht.now.toNat

/-- What left the module, newest first. In the power-fail sequence the Uanath transmitters are idle (R301). -/
def State.emit (s : State) (o : Out) : State :=
  match o with
  | .word _ _ => if s.plat.pf then { s with outs := o :: s.outs } else s
  | .frame _ _ => if s.plat.pf then { s with outs := o :: s.outs } else s
  | _ => { s with outs := o :: s.outs }

/-! ### W1C bits that hardware sets (R18) -/

/-- The bit address of bit `n` of the registers at an offset of a die's space, and of BAR2 of a function. -/
def bar0Bit (d off n : Nat) : Nat := 8 * (2 ^ 24 * d + off) + n
def bar2Bit (f off n : Nat) : Nat := 2 ^ 29 * (f + 1) + 8 * off + n

/-- Hardware sets a W1C bit: remembered for the nanosecond (R18). -/
def State.hwSet (s : State) (a : Nat) : State :=
  { s with fresh := if s.fresh.time = s.now then { s.fresh with bits := a :: s.fresh.bits } else { time := s.now, bits := [a] } }

/-- The record of this nanosecond that found the valid one of a register, by the bit address of its V. -/
def State.newRec (s : State) (a : Nat) : Option W64 :=
  if s.fresh.time = s.now then (s.fresh.recs.find? (fun e => e.1 = a)).map Prod.snd else none

/-- A record that finds another one valid: a write of 1 to V in the same nanosecond leaves it held (R18). -/
def State.hwRec (s : State) (a : Nat) (r : W64) : State :=
  { s with fresh := if s.fresh.time = s.now then { s.fresh with recs := (a, r) :: s.fresh.recs.filter (fun e => e.1 ≠ a) }
      else { time := s.now, recs := [(a, r)] } }

/-- The bits of eight bytes of registers, from a bit address on, that hardware set in this nanosecond. -/
def State.freshMask (s : State) (a : Nat) : W64 :=
  if s.fresh.time = s.now then
    (s.fresh.bits.filter (fun b => a ≤ b && b < a + 64)).foldl (fun m b => putBit m (b - a) true) 0
  else 0

/-! ### Physical columns (R24, R28, R34) -/

/-- Physical tile columns of a row, and router columns of a die (R24). -/
def physCols : Nat := 66
def physRouterCols : Nat := 33

/-- The skipped physical columns of a row, ascending, by its FUS_ROWMAP word (R34). -/
def rowSkips (w : W32) : List Nat :=
  (if w.getLsbD 7 then [bits w.toNat 6 0] else []) ++ (if w.getLsbD 15 then [bits w.toNat 14 8] else [])

/-- The physical column of a logical one (R28): each skipped column at or before it steps it on. -/
def physOf (skips : List Nat) (logical : Nat) : Nat := skips.foldl (fun p k => if k ≤ p then p + 1 else p) logical

/-- The row map of a tile's row, the tile's physical column, and its router's row and physical column in its
die (R24, R26, R28). -/
def State.rowMap (s : State) (t : Nat) : W32 := sget 0 s.fuses.rowmap (t / 64)
def State.physColumn (s : State) (t : Nat) : Nat := physOf (rowSkips (s.rowMap t)) (t % 64)
def State.physRouter (s : State) (t : Nat) : Nat × Nat := (t / 64 % 32 / 2, s.physColumn t / 2)

/-! ### Places (R22 to R36) -/

def dieOfTile (t : Nat) : Nat := t / 2048
def cidOfTile (t : Nat) : Nat := t / 256
def dieOfCid (c : Nat) : Nat := c / 8
def dieOfPort (p : Nat) : Nat := p / 4

/-- The partition a die belongs to (R35). -/
def partOfDie (l : Layout) (d : Nat) : Nat :=
  match l with
  | .p1 => 0
  | .p2 => d / 2
  | .p4 => d

/-- The number of partitions of a layout (R35). -/
def nParts (l : Layout) : Nat :=
  match l with
  | .p1 => 1
  | .p2 => 2
  | .p4 => 4

/-- The dies of a partition, ascending (R35). -/
def diesOf (l : Layout) (p : Nat) : List Nat := [0, 1, 2, 3].filter (fun d => partOfDie l d = p)

/-- The die whose control core serves a partition's function (R319). -/
def servingDie (l : Layout) (p : Nat) : Nat :=
  match diesOf l p with
  | [] => 0
  | d :: _ => d

/-- Whether a partition exists (R37, R38). -/
def State.partExists (s : State) (p : Nat) : Bool := p < 4 && s.parts.getLsbD p

/-- The clusters of a partition as a mask (R35). -/
def partMask (l : Layout) (p : Nat) : Nat := ((diesOf l p).map (fun d => 255 * 2 ^ (8 * d))).sum

/-- A context handle (R41). -/
def cxhOf (c : CtxRef) (e : BitVec 8) : BitVec 16 :=
  BitVec.ofNat 16 (c.part * 0x4000 + c.slot * 0x800 + e.toNat)

/-- The handle of a slot's present epoch. -/
def State.cxh (s : State) (c : CtxRef) : BitVec 16 := cxhOf c (s.ctx c).epoch

/-- Whether a slot holds a context that names the cluster. -/
def Ctx.owns (x : Ctx) (cid : Nat) : Bool := x.st != .free && x.clusters.getLsbD cid

/-- All context slots. -/
def allCtx : List CtxRef :=
  (List.range 4).flatMap (fun p => (List.range 8).map (fun c => ⟨p, c⟩))

/-- The context that owns a cluster (R39). -/
def State.ctxOfCid (s : State) (cid : Nat) : Option CtxRef :=
  (allCtx.filter (fun c => (s.ctx c).owns cid)).head?

def State.ctxOfTile (s : State) (t : Nat) : Option CtxRef := s.ctxOfCid (cidOfTile t)

/-- The clusters of a context, ascending. -/
def Ctx.cids (x : Ctx) : List Nat := (List.range 32).filter (fun i => x.clusters.getLsbD i)

/-- The tiles of a cluster, in lane order (R116). -/
def tilesOfCid (cid : Nat) : List Nat := (List.range 256).map (fun i => 256 * cid + i)

/-- The tiles of a context, ascending. -/
def Ctx.tids (x : Ctx) : List Nat := x.cids.flatMap tilesOfCid

/-- The dies that hold a context's tiles. -/
def Ctx.dies (x : Ctx) : List Nat := [0, 1, 2, 3].filter (fun d => bits x.clusters.toNat (8 * d + 7) (8 * d) ≠ 0)

/-- The superstep registers of a slot on a die (R62). -/
def State.ss (s : State) (d c : Nat) : SsRegs := sget {} (s.die d).ss c
def State.setSs (s : State) (d c : Nat) (x : SsRegs) : State :=
  s.setDie d { s.die d with ss := sput (s.die d).ss c x }

/-- Whether a function's BAR0 shows a die's space (R49). -/
def State.sees (s : State) (pf d : Nat) : Bool := pf = 0 || (partOfDie s.layout d = pf && s.partExists pf)

/-- Whether the control and exchange domains of the dies are stopped (R44, R357). -/
def State.asleep (s : State) : Bool := s.plat.pstate = .standby

/-- Whether HBM and the exchange domain go on: not in the power-fail sequence (R384), and not in STANDBY (R44). -/
def State.hbmOn (s : State) : Bool := s.plat.pf && !s.asleep

/-- Whether no cluster clock may start: a trip, the power-fail sequence, or STANDBY (R44, R361, R384). -/
def State.barred (s : State) : Bool := s.plat.trip || !s.plat.pf || s.asleep

/-- The least step K of a mode (R360). -/
def kFloor (envelope : Bool) : Nat := if envelope then 12 else 10

/-- A cluster in a mode, with a step K that is not below the mode's floor (R262). A change of the mode makes an edge
of both its clocks, from which they align at the mode's own ratio (R124); the cycles in progress begin anew there
(log entry 22). -/
def Cluster.setMode (x : Cluster) (env : Bool) : Cluster :=
  { x with envelope := env, k := max x.k (kFloor env), toMode := none,
           cloverPh := if env = x.envelope then x.cloverPh else 0, tilePh := if env = x.envelope then x.tilePh else 0 }

/-- Whether a cluster's clocks may change: at a feed-window boundary, or while they do not run (R124). -/
def Cluster.boundary (x : Cluster) : Bool := x.clk != .running || x.cyc % 16 = 0

/-- A mode ordered for a cluster: taken at once at a boundary, else at the next one (R124, R359). -/
def State.orderMode (s : State) (cid : Nat) (env : Bool) : State :=
  let x := s.cluster cid
  s.setCluster cid (if x.boundary then x.setMode env else { x with toMode := some env })

/-- A cluster that waits for its clocks, once they may start. -/
def Cluster.startWaiting (x : Cluster) (now : Nat) : Cluster :=
  if x.want && x.clk = .stopped then { x with clk := .starting, want := false, since := now } else x

/-- A demand on a cluster's fast clocks (R46): a stopped clock starts; one that is being gated remembers it. A
tripped module starts none (R361). -/
def State.demand (s : State) (cid : Nat) : State :=
  let x := s.cluster cid
  match x.clk with
  | .stopped => s.setCluster cid (if s.barred then { x with want := true } else { x with clk := .starting, since := s.now })
  | .gating => s.setCluster cid { x with want := true }
  | .starting => s
  | .running => s

/-- A change made on each of a list of indices. -/
def forAll {α : Type} (xs : List α) (f : State → α → State) (s : State) : State := xs.foldl f s

/-- A step that happens only under its condition: else the event does not take place (log entry 2). -/
def when_ (b : Bool) (s : State) (f : State) : Res := if b then .next f else .next s

/-- What the control and exchange domains do, which STANDBY stops (R44, R357). -/
def awake (s : State) (r : Res) : Res := if s.asleep then .next s else r

end Sys2Proof.Machine
end

