-- ==== Sys2Proof/Machine/Memory.lean ====
section
/-!
DEFINITION. Physical addresses, HBM and the device MMU (R177 to R182).
-/

namespace Sys2Proof.Machine

/-- Bytes populated in a stack (R177). -/
def stackBytes : Nat := 80000000000

/-- Failure causes of an access (R182). -/
def causeNotPresent : Nat := 1
def causeRights : Nat := 2
def causeUnpopulated : Nat := 3
def causePartition : Nat := 4

/-- The byte of HBM at an offset of a stack: its index in `hbm`. -/
def hbmKey (stack off : Nat) : Nat := stack * 2 ^ 37 + off

/-- Where a PA lands, as stack and stack offset (R178), or none where it is not populated (R179). -/
def paStack (l : Layout) (p pa : Nat) : Option (Nat × Nat) :=
  let sp := pa / 2 ^ 45
  if sp = 0 then
    let st := bits pa 41 37
    let off := bits pa 36 0
    if bits pa 44 42 ≠ 0 ∨ 19 < st ∨ stackBytes ≤ off then none else some (st, off)
  else if sp = 1 then
    let d := bits pa 44 43
    let off := bits pa 42 0
    let g := off / 4096
    if 5 * stackBytes ≤ off then none else some (5 * d + g % 5, g / 5 * 4096 + off % 4096)
  else if sp = 2 then
    let ds := diesOf l p
    let nd := ds.length
    let off := bits pa 44 0
    let g := off / 4096
    if nd * (5 * stackBytes) ≤ off then none
    else some (5 * ds.getD (g % nd) 0 + g / nd % 5, g / (5 * nd) * 4096 + off % 4096)
  else none

/-- The byte of HBM that a PA of a partition names, or the cause of the failure (R179, R182). -/
def paPlace (l : Layout) (p pa : Nat) : Except Nat Nat :=
  match paStack l p pa with
  | none => .error causeUnpopulated
  | some (st, off) => if partOfDie l (st / 5) = p then .ok (hbmKey st off) else .error causePartition

/-- Whether each byte of a range of one PA space of the partition is populated there: its first and its last
byte are. -/
def paRangeOk (l : Layout) (p pa n : Nat) : Bool :=
  match paPlace l p pa, paPlace l p (pa + n - 1) with
  | .ok _, .ok _ => pa / 2 ^ 45 = (pa + n - 1) / 2 ^ 45
      ∧ (pa / 2 ^ 45 = 0 → bits pa 41 37 = bits (pa + n - 1) 41 37)
      ∧ (pa / 2 ^ 45 = 1 → bits pa 44 43 = bits (pa + n - 1) 44 43)
  | _, _ => false

/-- `n` bytes of HBM from a PA; a byte that does not exist is not read. -/
def State.paRead (s : State) (p pa : Nat) : Nat → List Byte
  | 0 => []
  | n + 1 =>
    (match paPlace s.layout p pa with
      | .ok k => mget s.hbm k
      | .error _ => Memory.blank) :: s.paRead p (pa + 1) n

/-- Bytes written to HBM from a PA; a byte that does not exist is not written. -/
def State.paWrite (s : State) (p pa : Nat) : List Byte → State
  | [] => s
  | b :: bs =>
    (match paPlace s.layout p pa with
      | .ok k => { s with hbm := mput s.hbm k b }
      | .error _ => s).paWrite p (pa + 1) bs

/-- Whether a page-table entry counts as valid (R180): V set, reserved bits and misplaced PA bits clear. -/
def pteValid (e : W64) (level : Nat) : Bool :=
  let v := e.toNat
  let leaf := bit v 1
  bit v 0 && bits v 11 4 = 0 && bits v 63 48 = 0 &&
    (if level = 1 then (!leaf || bits v 29 12 = 0) else (!leaf && bits v 20 12 = 0))

/-- The MMU_ROOT of a slot on a die (R181). -/
def State.root (s : State) (d slot : Nat) : W64 := sget 0 (s.die d).str.root slot

/-- A walk of the tables of a slot from a die's root (R180): the leaf and whether it is a 1 GiB page, or the cause. -/
def State.walk (s : State) (d : Nat) (c : CtxRef) (va : Nat) : Except Nat (W64 × Bool) :=
  let root := (s.root d c.slot).toNat
  if !bit root 0 then .error causeNotPresent else
  let a1 := bits root 47 21 * 2 ^ 21 + 8 * bits va 47 30
  match paPlace s.layout c.part a1 with
  | .error e => .error e
  | .ok _ =>
    let e1 : W64 := BitVec.ofNat 64 (leNat (s.paRead c.part a1 8))
    if !pteValid e1 1 then .error causeNotPresent
    else if bit e1.toNat 1 then .ok (e1, true)
    else
      let a2 := bits e1.toNat 47 12 * 4096 + 8 * bits va 29 21
      match paPlace s.layout c.part a2 with
      | .error e => .error e
      | .ok _ =>
        let e2 : W64 := BitVec.ofNat 64 (leNat (s.paRead c.part a2 8))
        if !pteValid e2 2 then .error causeNotPresent else .ok (e2, false)

/-- The PA of a VA under a leaf (R180). -/
def leafPa (leaf : W64) (big : Bool) (va : Nat) : Nat :=
  if big then bits leaf.toNat 47 30 * 2 ^ 30 + va % 2 ^ 30 else bits leaf.toNat 47 21 * 2 ^ 21 + va % 2 ^ 21

/-- The cached translation of a VA on a die. -/
def State.cached (s : State) (d slot va : Nat) : Option TlbEnt :=
  (s.die d).str.tlb.find? (fun e => e.slot = slot && e.page = va / 2 ^ 21)

/-- The leaf that a die uses for a VA (R181): the tables' own, or a cached one that the tables no longer hold,
as a free value says; none while the root is not valid. -/
def State.leafOf (s : State) (d : Nat) (c : CtxRef) (va : Nat) : State × Except Nat (W64 × Bool) :=
  let w := s.walk d c va
  match s.cached d c.slot va with
  | none => (s, w)
  | some e =>
    match w with
    | .ok r => if r = (e.leaf, e.big) then (s, w)
               else ({ s with free := s.free + 1 }, if Config.tlbOld s.free then .ok (e.leaf, e.big) else w)
    | .error _ => if (s.root d c.slot).getLsbD 0 then ({ s with free := s.free + 1 }, if Config.tlbOld s.free then .ok (e.leaf, e.big) else w)
                  else (s, w)

/-- A leaf remembered by a die (R181). -/
def State.remember (s : State) (d slot va : Nat) (leaf : W64) (big : Bool) : State :=
  let x := s.die d
  let t := { slot := slot, page := va / 2 ^ 21, leaf := leaf, big := big : TlbEnt }
  if x.str.tlb.contains t then s
  else s.setDie d { x with str := { x.str with tlb := t :: x.str.tlb.filter (fun e => !(e.slot = slot && e.page = va / 2 ^ 21)) } }

/-- A translation of one byte on a die, with its rights (R182): its byte of HBM or the cause. -/
def State.translate (s : State) (d : Nat) (c : CtxRef) (va : Nat) (wr : Bool) : State × Except Nat Nat :=
  match s.leafOf d c va with
  | (s, .error e) => (s, .error e)
  | (s, .ok (leaf, big)) =>
    if (if wr then bit leaf.toNat 3 else bit leaf.toNat 2) then
      match paPlace s.layout c.part (leafPa leaf big va) with
      | .error e => (s, .error e)
      | .ok k => (s.remember d c.slot va leaf big, .ok k)
    else (s, .error causeRights)

/-- A translation of several VAs: their bytes of HBM, or the first VA that fails and its cause. -/
def State.translateAll (s : State) (d : Nat) (c : CtxRef) (wr : Bool) : List Nat → State × Except (Nat × Nat) (List Nat)
  | [] => (s, .ok [])
  | va :: vas =>
    match s.translate d c va wr with
    | (s, .error e) => (s, .error (va, e))
    | (s, .ok k) =>
      match s.translateAll d c wr vas with
      | (s, .error e) => (s, .error e)
      | (s, .ok ks) => (s, .ok (k :: ks))

/-- Bytes written to places of HBM. -/
def hbmPut (m : List Host.Cell) : List (Nat × Byte) → List Host.Cell
  | [] => m
  | (k, b) :: r => hbmPut (mput m k b) r

/-- `n` bytes from a VA. -/
def vaList (va n : Nat) : List Nat := (List.range n).map (fun i => va + i)

/-- Bytes written through a VA: all of them, or none and the failing VA with its cause. -/
def State.vaWrite (s : State) (d : Nat) (c : CtxRef) (va : Nat) (bs : List Byte) : State × Option (Nat × Nat) :=
  match s.translateAll d c true (vaList va bs.length) with
  | (s, .error e) => (s, some e)
  | (s, .ok ks) => ({ s with hbm := hbmPut s.hbm (ks.zip bs) }, none)

/-- Bytes read through a VA. -/
def State.vaRead (s : State) (d : Nat) (c : CtxRef) (va n : Nat) : State × Except (Nat × Nat) (List Byte) :=
  match s.translateAll d c false (vaList va n) with
  | (s, .error e) => (s, .error e)
  | (s, .ok ks) => (s, .ok (ks.map (mget s.hbm)))

end Sys2Proof.Machine
end

