-- ==== Sys2Proof/Machine/Flags.lean ====
section
/-!
DEFINITION. Event flags: the event controllers, attention bits and MSI-X messages (R324, R325, R333 to R350).
-/

namespace Sys2Proof.Machine

/-! ### Numbers of the master table (R337) -/

def evPowerFail : Nat := 0x000
def evPerstEdge : Nat := 0x001
def evThermHot : Nat := 0x002
def evThrottle : Nat := 0x003
def evSsWatchdog : Nat := 0x004
def evEngineHang : Nat := 0x005
def evResetForced : Nat := 0x006
def evCtxFaulted : Nat := 0x007
def evLifecycleChange : Nat := 0x008
def evLockChange : Nat := 0x009
def evFwImageChange : Nat := 0x00A
def evIllegalInstr : Nat := 0x020
def evSramAccess : Nat := 0x021
def evQueueMisuse : Nat := 0x022
def evDescInvalid : Nat := 0x040
def evQueueFull : Nat := 0x041
def evRegionConflict : Nat := 0x042
def evUpdInvalid : Nat := 0x060
def evNumNonfinite : Nat := 0x061
def evNumZeroStreak : Nat := 0x062
def evSlotNotReady : Nat := 0x080
def evStrMisuse : Nat := 0x081
def evMmuFault : Nat := 0x082
def evHbmUncorrectable : Nat := 0x083
def evBankOff : Nat := 0x084
def evWinReject : Nat := 0x085
def evChkMismatch : Nat := 0x086
def evMsgRetryExhausted : Nat := 0x0C0
def evMsgRecvTimeout : Nat := 0x0C1
def evFlagAccess : Nat := 0x0C2
def evFlagTimeout : Nat := 0x0C3
def evFlagMisuse : Nat := 0x0C4
def evFlagLeft : Nat := 0x0C5
def evDeadlineMiss : Nat := 0x0E0
def evXchCollide : Nat := 0x0F0
def evXchListError : Nat := 0x0F1
def evSlotDead : Nat := 0x0F2
def evSlotFault : Nat := 0x0F3
def evThsSymbolLost : Nat := 0x0F4
def evThsCompleteLate : Nat := 0x0F5
def evThsSeq : Nat := 0x0F6
def evHtUnlock : Nat := 0x0F7
def evHtReparent : Nat := 0x0F8
def evReduceLate : Nat := 0x100
def evPairDiverge : Nat := 0x101
def evPairLost : Nat := 0x102
def evScatBadRoute : Nat := 0x103
def evUlkDown : Nat := 0x120
def evUlkUp : Nat := 0x121
def evUlkDegraded : Nat := 0x122
def evEvcStorm : Nat := 0x140
def evLogLost : Nat := 0x141

/-- The master table (R337): number, default priority, scope M. -/
def evTable : List (Nat × Nat × Bool) :=
  [(0x000, 0, true), (0x001, 0, true), (0x002, 1, true), (0x003, 3, true), (0x004, 2, false), (0x005, 2, false),
   (0x006, 1, false), (0x007, 2, false), (0x008, 6, true), (0x009, 6, true), (0x00A, 6, true), (0x020, 4, false),
   (0x021, 4, false), (0x022, 4, false), (0x040, 4, false), (0x041, 4, false), (0x042, 4, false)] ++
  [(0x060, 4, false), (0x061, 7, false), (0x062, 8, false), (0x080, 4, false), (0x081, 4, false), (0x082, 3, false),
   (0x083, 2, false), (0x084, 4, false), (0x085, 8, false), (0x086, 5, false), (0x0C0, 4, false), (0x0C1, 4, false),
   (0x0C2, 4, false), (0x0C3, 4, false), (0x0C4, 9, false), (0x0C5, 9, false), (0x0E0, 5, false)] ++
  [(0x0F0, 4, false), (0x0F1, 4, false), (0x0F2, 5, false), (0x0F3, 4, false), (0x0F4, 4, false), (0x0F5, 4, false),
   (0x0F6, 4, false), (0x0F7, 3, true), (0x0F8, 10, true), (0x100, 5, false), (0x101, 2, true), (0x102, 2, true),
   (0x103, 4, false), (0x120, 3, false), (0x121, 10, false), (0x122, 6, false), (0x140, 6, false), (0x141, 6, true)]

/-- Whether a number is a listed source (R336). -/
def evListed (n : Nat) : Bool := evTable.any (fun e => e.1 = n)

/-- The default priority of a source (R339); an unlisted source, which is never pending, has 0. -/
def evPrio (n : Nat) : Nat :=
  match evTable.find? (fun e => e.1 = n) with
  | some e => e.2.1
  | none => 0

/-- Whether a source has scope M. -/
def evScopeM (n : Nat) : Bool := evTable.any (fun e => e.1 = n && e.2.2)

/-- The edge latch of an AON source, in the bit order of EVC_LATCH (R348). -/
def evLatch (n : Nat) : Option Nat :=
  if n = evPowerFail then some 0 else if n = evPerstEdge then some 1 else if n = evThermHot then some 2
  else if n = evHtUnlock then some 3 else if n = evHtReparent then some 4 else none

/-- The source of an edge latch. -/
def latchSrc (l : Nat) : Nat :=
  if l = 0 then evPowerFail else if l = 1 then evPerstEdge else if l = 2 then evThermHot
  else if l = 3 then evHtUnlock else evHtReparent

/-! ### MSI-X (R333 to R335) -/

def Fn.vec (x : Fn) (v : Nat) : Vec := sget {} x.vecs v
def Fn.setVec (x : Fn) (v : Nat) (y : Vec) : Fn := { x with vecs := sput x.vecs v y }

/-- COUNT of a vector, 1 to 256 (R334). -/
def Vec.count (v : Vec) : Nat := bits v.mod.toNat 7 0 + 1

/-- TIME of a vector in ns: 1 to 1,000 µs (R334). -/
def Vec.timeNs (v : Vec) : Nat :=
  let t := bits v.mod.toNat 17 8
  1000 * (if t = 0 then 1 else if 1000 < t then 1000 else t)

/-- One message sent on a vector: the count returns to 0 (R334). A message that leaves takes the link out of L1. -/
def State.sendVec (s : State) (f v : Nat) : State :=
  let x := s.fn f
  (({ s with plat := { s.plat with pcie := { s.plat.pcie with l1 := false } } } : State).setFn f
    (x.setVec v { x.vec v with n := 0, t1 := none, pba := false })).emit (.msix f v)

/-- A vector at one of its two sending points (R334): it sends, or a masked one sets its PBA bit; in D3hot it
waits (R335). -/
def State.fireVec (s : State) (f v : Nat) : State :=
  let x := s.fn f
  if x.d3 then s
  else if (x.vec v).masked then s.setFn f (x.setVec v { x.vec v with pba := true })
  else s.sendVec f v

/-- A pending message counted on a vector (R333, R334). -/
def State.countVec (s : State) (f v : Nat) : State :=
  let x := s.fn f
  let y := x.vec v
  let y := { y with n := min 256 (y.n + 1), t1 := (match y.t1 with | none => some s.now | some t => some t) }
  let s := s.setFn f (x.setVec v y)
  if y.count ≤ y.n then s.fireVec f v else s

/-- The PME of a function in D3hot at a reply or an ATTN change (R335). -/
def State.pme (s : State) (f : Nat) : State :=
  if (s.fn f).d3 && (s.fn f).pmeEn then s.emit (.pme f) else s

/-! ### Attention (R324, R325) -/

/-- Whether a module-wide source reaches a function. -/
def State.moduleReach (s : State) (f : Nat) : Bool := f = 0 || s.partExists f

/-- HST_ATTN of a function: its bits, and CONFIG as a level while no configuration is applied. -/
def State.attn (s : State) (f : Nat) : BitVec 8 :=
  if s.cfg.isNone && s.moduleReach f then (s.fn f).attn ||| 0x20#8 else (s.fn f).attn

/-- An attention bit of a function set. -/
def State.setAttn (s : State) (f b : Nat) : State :=
  let x := s.fn f
  let s' := (s.setFn f { x with attn := putBit x.attn b true }).hwSet (bar2Bit f 0x10000 b)
  if (s.attn f).getLsbD b then s'
  else
    let s' := if x.attnCtl.getLsbD 9 then s'.countVec f (bits x.attnCtl.toNat 8 0) else s'
    s'.pme f

/-- An attention bit of module scope set. -/
def State.setAttnM (s : State) (b : Nat) : State :=
  forAll ([0, 1, 2, 3].filter s.moduleReach) (fun s f => s.setAttn f b) s

/-- The attention bit that an event sets at its raise (R324). -/
def evAttn (n : Nat) : Option Nat :=
  if n = evCtxFaulted || n = evMmuFault then some 1
  else if n = evUlkDown || n = evUlkUp || n = evUlkDegraded || n = evHtUnlock || n = evHtReparent then some 2
  else if n = evThrottle then some 3
  else if n = evNumZeroStreak || n = evNumNonfinite || n = evChkMismatch then some 4
  else if n = evLifecycleChange || n = evLockChange || n = evFwImageChange then some 6
  else if n = evPairLost || n = evPairDiverge then some 7
  else none

/-! ### Raising (R338, R345, R346) -/

/-- A raise that names nothing (R349). -/
def noInfo : RaiseInfo := { cxh := 0, tid := 0, thr := 0, ssn := 0, detail := 0 }

/-- The counts of the HT millisecond that holds a time (R345). -/
def Evc.window (e : Evc) (now : Nat) : Evc :=
  if now / 1000000 = e.ms then e else { e with ms := now / 1000000, counts := [] }

/-- The record of a raise (R349). -/
def State.mkRec (s : State) (d src : Nat) (ht : W64) (x : RaiseInfo) : LogRec :=
  { src := src, die := if evScopeM src then 0 else d, part := partOfDie s.layout (if evScopeM src then 0 else d),
    mscope := evScopeM src, ht := ht, info := x }

/-- The raises of the present nanosecond with one more (R338, R340): `rose` notes a pending bit that was clear. -/
def Evc.rise (e : Evc) (now src : Nat) : Evc :=
  let old : Bool := e.roseAt = now
  let rose := if old then e.rose else 0
  let again := if old then e.again else 0
  { e with roseAt := now, rose := if e.pend.getLsbD src then rose else putBit rose src true, again := putBit again src true,
           cut := if old then e.cut else 0 }

/-- A record offered (R350): behind all others, but ahead of those of the same cycle and a higher source number. -/
def offerRec (now : Nat) (r : LogRec) : List (Nat × LogRec) → List (Nat × LogRec)
  | [] => [(now, r)]
  | x :: xs => if x.1 = now && r.src < x.2.src then (now, r) :: x :: xs else x :: offerRec now r xs

/-- A raise that reaches the EVC of a die (R338, R345): the pending bit, the count, the record, and whether
EVC_STORM is due. -/
def Evc.raise (e : Evc) (now src : Nat) (offer : Bool) (r : LogRec) : Evc × Bool :=
  let e := (e.window now).rise now src
  let n := sget 0 e.counts src + 1
  let hit := e.limit.toNat ≠ 0 && n = e.limit.toNat && !(e.masked.getLsbD src)
  let e1 := { e with pend := putBit e.pend src true, counts := sput e.counts src n,
                     offers := if offer && !(e.masked.getLsbD src) then offerRec now r e.offers else e.offers }
  if hit then
    ({ e1 with storm := putBit e1.storm src true, masked := putBit e1.masked src true,
               en := if e.hold then e1.en else putBit e1.en src false,
               cut := if e.hold || !e1.en.getLsbD src then e1.cut else putBit e1.cut src true,
               deferred := if e.hold then putBit e1.deferred src true else e1.deferred }, true)
  else (e1, false)

/-- A raise in the EVC of one die, without its attention. -/
def State.evcRaise (s : State) (d src : Nat) (ht : W64) (offer : Bool) (x : RaiseInfo) : State :=
  let y := s.die d
  let r := y.evc.raise s.now src offer (s.mkRec d src ht x)
  let r2 := if r.2 then r.1.raise s.now evEvcStorm true (s.mkRec d evEvcStorm s.ht.now noInfo) else (r.1, false)
  let s := s.setDie d { y with evc := r2.1 }
  let s := if r.2 then s.hwSet (bar0Bit d 0xA01C0 src) else s
  if r2.2 then s.hwSet (bar0Bit d 0xA01C0 evEvcStorm) else s

/-- An edge caught by the latch of a die (R346). -/
def State.latchEdge (s : State) (d l : Nat) (x : RaiseInfo) : State :=
  let y := s.die d
  let e := y.evc
  let e' : Evc :=
    if e.full.getLsbD l then { e with ovf := putBit e.ovf l true }
    else { e with full := putBit e.full l true, stamps := sput e.stamps l s.ht.now, infos := sput e.infos l x }
  let s := s.setDie d { y with evc := e' }
  if e.full.getLsbD l then s.hwSet (bar0Bit d 0xA0180 (16 + l)) else s

/-- An event raised (R336 to R338): an AON source is caught by the latches; scope M reaches every die and is
logged once. -/
def State.raise (s : State) (d src : Nat) (x : RaiseInfo) : State :=
  let s :=
    match evAttn src with
    | some b => if evScopeM src then s.setAttnM b else s.setAttn (partOfDie s.layout d) b
    | none => s
  match evLatch src with
  | some l => forAll [0, 1, 2, 3] (fun s d => s.latchEdge d l x) s
  | none =>
    if evScopeM src then forAll [0, 1, 2, 3] (fun s d => s.evcRaise d src s.ht.now (d = 0) x) s
    else s.evcRaise d src s.ht.now true x

/-- What a raise of a context's event names: its handle and its SSN (R349). -/
def State.infoCtx (s : State) (c : CtxRef) (detail : W64) : RaiseInfo :=
  { cxh := s.cxh c, tid := 0, thr := 0, ssn := (s.ctx c).run.ssn, detail := detail }

/-- What a raise of a thread's event names. -/
def State.infoThr (s : State) (c : CtxRef) (t n : Nat) (detail : W64) : RaiseInfo :=
  { s.infoCtx c detail with tid := BitVec.ofNat 13 t, thr := BitVec.ofNat 3 n }

/-! ### Delivery (R339 to R341) -/

/-- The priority of a source. -/
def Evc.prioOf (e : Evc) (n : Nat) : Nat := sget (evPrio n) e.prio n

/-- RUNPRI (R339). -/
def Evc.runpri (e : Evc) : Nat :=
  match e.stack with
  | [] => 16
  | p :: _ => p

/-- Whether a source is pending, enabled and above RUNPRI. -/
def Evc.eligible (e : Evc) (n : Nat) : Bool := e.pend.getLsbD n && e.en.getLsbD n && e.prioOf n < e.runpri

/-- The controller as a claim of a nanosecond sees it: without the pending bits that rose in it, and with the
enable bits that storms cleared in it (R340, R345). -/
def Evc.atStart (e : Evc) (now : Nat) : Evc :=
  if e.roseAt = now then { e with pend := e.pend &&& ~~~e.rose, en := e.en ||| e.cut } else e

/-- The eligible source of lowest priority value and lowest number, of a list in ascending number. -/
def Evc.best (e : Evc) : List Nat → Option Nat
  | [] => none
  | n :: ns =>
    match e.best ns with
    | none => if e.eligible n then some n else none
    | some m => if e.eligible n && e.prioOf n ≤ e.prioOf m then some n else some m

/-- What a claim returns (R340), none where V = 0. -/
def Evc.claim (e : Evc) : Option Nat := if e.hold then none else e.best (evTable.map Prod.fst)

/-- The word that a claim reads (R348). -/
def Evc.claimWord (e : Evc) : W32 :=
  match e.claim with
  | none => 0
  | some n => BitVec.ofNat 32 (at_ 31 1 + at_ 9 (e.prioOf n) + n)

end Sys2Proof.Machine
end

