-- ==== Sys2Proof/Machine/Reply.lean ====
section
/-!
DEFINITION. The take of a host command, its common checks and its reply (R317 to R323, R335).
-/

namespace Sys2Proof.Machine

/-! ### Completion codes (R323) -/

def codeOk : Nat := 0
def codeBusy : Nat := 1
def codeBadOpcode : Nat := 2
def codeBadParam : Nat := 3
def codeTcMismatch : Nat := 4
def codeNoResource : Nat := 5
def codeLocked : Nat := 6
def codeConfigInvalid : Nat := 7
def codeFaulted : Nat := 8
def codeTimeout : Nat := 9

/-! ### Fields of a ring (R317) -/

def Ring.log2n (x : Ring) : Nat := bits x.ctl.toNat 3 0
def Ring.n (x : Ring) : Nat := 2 ^ x.log2n
def Ring.en (x : Ring) : Bool := x.ctl.getLsbD 4
def Ring.irqEn (x : Ring) : Bool := x.ctl.getLsbD 5
def Ring.vector (x : Ring) : Nat := bits x.ctl.toNat 14 6

/-- All rings. -/
def allRings : List RingRef := (List.range 4).flatMap (fun f => (List.range 16).map (fun r => ⟨f, r⟩))

/-- A demand on the module (R357): IDLE ends, the HBM leaves self-refresh, and the 1 ms towards IDLE starts again. -/
def State.touch (s : State) : State :=
  { s with plat := { s.plat with idleAt := s.now, hbmSr := s.plat.hbmSr && s.asleep, pstate := (match s.plat.pstate with
      | .idle => .active | .active => .active | .standby => .standby) } }

/-! ### Replies -/

/-- One message on every unmasked vector with n > 0 (R335). -/
def State.flush (s : State) : State :=
  forAll [0, 1, 2, 3] (fun s f =>
    if (s.fn f).d3 then s
    else forAll (s.fn f).vecs (fun s v =>
      if 0 < v.2.n && !v.2.masked then s.sendVec f v.1 else s) s) s

/-- PME_TO_Ack once no command runs, or 1 ms after PME_Turn_Off (R335). -/
def State.pmeAckIfDone (s : State) : State :=
  match s.plat.pcie.turn with
  | none => s
  | some t =>
    if s.plat.pcie.off then s
    else if allRings.all (fun r => (s.ring r).cur.isNone) || t + 1000000 ≤ s.now then
      let s := s.flush
      ({ s with plat := { s.plat with pcie := { s.plat.pcie with off := true } } } : State).emit .pmeAck
    else s

/-- The status word of a reply (R321). -/
def replyW0 (code : Nat) (attn : BitVec 8) (seq : BitVec 16) (tag : W32) : Nat :=
  code + at_ 8 attn.toNat + at_ 16 seq.toNat + at_ 32 tag.toNat

/-- A reply written to host memory, bytes 4 to 31 first, and its message counted (R320, R321, R333); the ring
is free to take. -/
def State.reply (s : State) (r : RingRef) (code w1 w2 w3 : Nat) : State :=
  let x := s.ring r
  match x.cur with
  | none => s
  | some c =>
    let w0 := replyW0 code (s.attn r.pf) c.seq c.tag
    let a := x.rpl.toNat + 32 * c.idx
    let s := s.setRing r { x with cur := none }
    if s.plat.pcie.off then s
    else
      let m := mwrite s.hostMem (a + 4) (toLE 4 (w0 / 2 ^ 32) ++ toLE 8 w1 ++ toLE 8 w2 ++ toLE 8 w3)
      let s := { s with hostMem := mwrite m a (toLE 4 w0) }
      let s := if c.irq && x.irqEn then s.countVec r.pf x.vector else s
      ((s.pme r.pf).touch).pmeAckIfDone

/-- A reply without a result. -/
def State.replyCode (s : State) (r : RingRef) (code : Nat) : State := s.reply r code 0 0 0

/-- A reply to a ring if there is one to answer. -/
def State.replyTo (s : State) (r : Option RingRef) (code w1 w2 w3 : Nat) : State :=
  match r with
  | none => s
  | some r => s.reply r code w1 w2 w3

/-! ### Taking -/

/-- The tail that the firmware reads at a ring's turn: a doorbell of the same cycle is not seen (R318). -/
def Ring.tailSeen (x : Ring) (now : Nat) : Nat := if x.tailAt = some now then x.tailOld else x.tail

/-- Whether the control core that serves a ring takes its next command (R318, R319, R335, R354, R384). -/
def State.canTake (s : State) (r : RingRef) : Bool :=
  let x := s.ring r
  s.plat.powered && s.plat.running && s.plat.pf && s.plat.perst && s.plat.pcie.turn.isNone
    && s.plat.pstate != .standby && x.en && !x.err && x.cur.isNone && x.head != x.tailSeen s.now

/-- Whether a ring's turn has come (R319): no ring that could be served comes before it, in ascending number
from the one whose turn is next. -/
def State.atTurn (s : State) (r : RingRef) : Bool :=
  let t := (s.fn r.pf).turn
  (List.range ((r.ring + 16 - t % 16) % 16)).all (fun i => !s.canTake ⟨r.pf, (t + i) % 16⟩)

/-- The turn passes to the next ring of the function. -/
def State.passTurn (s : State) (r : RingRef) : State := s.setFn r.pf { s.fn r.pf with turn := (r.ring + 1) % 16 }

/-- The take of a command (R318, R319, R320): its sequence number, HEAD, TAKEN, and the turn of the next ring. -/
def State.take (s : State) (r : RingRef) (w : CmdWords) : State :=
  let x := s.ring r
  let c : Cur := { op := bits w.w0.toNat 7 0, seq := x.seq, tag := BitVec.ofNat 32 (w.w0.toNat / 2 ^ 32), idx := x.head,
                   irq := bit w.w0.toNat 8, cxh := BitVec.ofNat 16 (bits w.w0.toNat 31 16), w := w }
  let s := s.setRing r { x with seq := x.seq + 1, head := (x.head + 1) % x.n, cur := some c }
  ((s.passTurn r).setFn r.pf { (s.passTurn r).fn r.pf with taken := satAdd (s.fn r.pf).taken 1 }).touch

/-! ### The checks that every command shares (R322) -/

/-- What a row of the opcode table asks: opcode, PF0 only, Needs P, Needs C, whether it names a context, the
bits that W1 to W7 define, and the lock bit that forbids it. -/
structure CmdSpec where
  op     : Nat
  pf0    : Bool := false
  needP  : Bool := false
  needC  : Bool := false
  cxh    : Bool := false
  masks  : List Nat := []
  lock   : Option Nat := none

/-- Whether a word sets no bit outside a mask. -/
def within (v m : Nat) : Bool := v &&& m = v

def cmdParams (w : CmdWords) : List W64 := [w.w1, w.w2, w.w3, w.w4, w.w5, w.w6, w.w7]

/-- Check 5 of R322: no reserved bit of W0 to W7 is set. -/
def reservedOk (k : CmdSpec) (w : CmdWords) : Bool :=
  within w.w0.toNat (if k.cxh then 0xFFFFFFFFFFFF01FF else 0xFFFFFFFF000001FF)
    && ((cmdParams w).zipIdx).all (fun e => within e.1.toNat (k.masks.getD e.2 0))

/-- The context slot that a CXH names. -/
def cxhSlot (cxh : BitVec 16) : CtxRef := ⟨bits cxh.toNat 15 14, bits cxh.toNat 13 11⟩

/-- Check 7 of R322 (R43): the slot of a CXH that a function may name, or none. -/
def State.checkCxh (s : State) (pf : Nat) (cxh : BitVec 16) : Option CtxRef :=
  let c := cxhSlot cxh
  let x := s.ctx c
  if bits cxh.toNat 10 8 = 0 && c.part < nParts s.layout && c.part = pf
    && x.st != .free && x.st != .tearing && x.epoch.toNat = bits cxh.toNat 7 0 then some c else none

/-- Opcodes taken in recovery mode (R355). -/
def recoveryOps : List Nat := [0x01, 0x02, 0x50, 0x51, 0xF0]

/-- The code of the first of checks 1 to 6 of R322 that fails; recovery mode first (R355). -/
def State.precheck (s : State) (pf : Nat) (w : CmdWords) (k : CmdSpec) : Option Nat :=
  if s.plat.recovery && !recoveryOps.contains k.op then some codeBusy
  else if k.pf0 && pf ≠ 0 then some codeBadOpcode
  else if k.needP && !s.partExists pf then some codeNoResource
  else if k.needC && s.cfg.isNone then some codeConfigInvalid
  else if !reservedOk k w then some codeBadParam
  else match k.lock with
    | some b => if s.plat.lock.getLsbD b then some codeLocked else none
    | none => none

/-- The resource-allocating commands (R40), and RESET_ESCALATE of level 0, which acts as CTX_TEARDOWN (R374). -/
def resourceOp (w : CmdWords) : Bool :=
  [0x10, 0x11, 0x12, 0x13].contains (bits w.w0.toNat 7 0) || (bits w.w0.toNat 7 0 = 0x90 && bits w.w1.toNat 2 0 = 0)

/-- Whether a teardown of a partition that no command waits for runs or waits: one of a Function Level Reset
(R314, R375). -/
def State.flrRuns (s : State) (p : Nat) : Bool :=
  (List.range 8).any (fun i =>
    let x := s.ctx ⟨p, i⟩
    x.flr || (match x.td with | none => false | some t => t.kind = .flr))

/-- Whether a resource-allocating command of a function waits for another one, or for a teardown, that runs
(R40, R375). -/
def State.resourceWait (s : State) (pf : Nat) (w : CmdWords) : Bool :=
  resourceOp w && ((List.range 16).any (fun r =>
    match (s.ring ⟨pf, r⟩).cur with
    | none => false
    | some c => resourceOp c.w) || s.flrRuns pf)

/-- A host command: taken from its ring when the ring's turn has come and W0 holds the opcode; then the
checks; then its own meaning. One that must wait lets the turn pass to the next ring. -/
def hostCmd (s : State) (r : RingRef) (w : CmdWords) (k : CmdSpec) (body : State → State) : Res :=
  if !r.ok then .fault .noSuchUnit
  else if !s.canTake r || !s.atTurn r || bits w.w0.toNat 7 0 ≠ k.op then .next s
  else if s.resourceWait r.pf w then .next (s.passTurn r)
  else
    let s := s.take r w
    match s.precheck r.pf w k with
    | some code => .next (s.replyCode r code)
    | none => .next (body s)

/-- A host command that names a context: check 7 of R322, then its meaning. -/
def hostCtxCmd (s : State) (r : RingRef) (w : CmdWords) (k : CmdSpec) (body : State → CtxRef → State) : Res :=
  hostCmd s r w { k with cxh := true } (fun s =>
    match s.checkCxh r.pf (BitVec.ofNat 16 (bits w.w0.toNat 31 16)) with
    | none => s.replyCode r codeBadParam
    | some c => body s c)

/-! ### The opcode table (R326) -/

def opcodes : List Nat :=
  [0x01, 0x02, 0x03, 0x04, 0x10, 0x11, 0x12, 0x13, 0x14, 0x20, 0x21, 0x22, 0x23, 0x24, 0x25, 0x30] ++
  [0x31, 0x32, 0x40, 0x41, 0x42, 0x50, 0x51, 0x60, 0x61, 0x70, 0x71, 0x80, 0x81, 0x90, 0xF0]

end Sys2Proof.Machine
end

