-- ==== Sys2Proof/Machine/Fault.lean ====
section
/-!
DEFINITION. How a context faults, traps and is sampled (R112, R113, R362, R363, R366).
-/

namespace Sys2Proof.Machine

/-! ### Fault causes (R363) -/

def causeEvent : Nat := 1
def causeWatchdog : Nat := 2
def causeHang : Nat := 3
def causeVictim : Nat := 4
def causeTrip : Nat := 5
def causeFence : Nat := 6

/-! ### Bank groups (R101, R200) -/

/-- The bank group of an SRAM address. -/
def groupOf (a : Nat) : Nat := bits a 17 16

/-- A switchable group of a cluster; group 0 is always ON. -/
def State.bank (s : State) (cid g : Nat) : Bank :=
  if g = 1 then (s.cluster cid).g1 else if g = 2 then (s.cluster cid).g2 else {}

def State.setBank (s : State) (cid g : Nat) (b : Bank) : State :=
  let x := s.cluster cid
  if g = 1 then s.setCluster cid { x with g1 := b } else if g = 2 then s.setCluster cid { x with g2 := b } else s

/-- Whether a group serves accesses: ON, or GOING_OFF, whose queued accesses complete (R201, R202). -/
def Bank.serves (b : Bank) : Bool :=
  match b.st with
  | .on => true
  | .goingOff => true
  | .off => false
  | .goingOn => false

/-! ### Samples (R366) -/

/-- The bytes that a sample takes from a tile: an OFF group reads 0xFF; 1,024 bytes with zeros beyond LEN. -/
def State.tileSample (s : State) (t off len : Nat) : List Byte :=
  (List.range 1024).map (fun i =>
    if len ≤ i then 0
    else
      match (s.bank (cidOfTile t) (groupOf (off + i))).st with
      | .off => 0xFF
      | .on => s.sramByte t (off + i)
      | .goingOff => s.sramByte t (off + i)
      | .goingOn => s.sramByte t (off + i))

/-- The tiles of a context on a die. -/
def Ctx.tidsOn (x : Ctx) (d : Nat) : List Nat := x.tids.filter (fun t => dieOfTile t = d)

/-- A die's dump region: its PA. -/
def DieRst.dumpPa (x : DieRst) : Nat := bits x.dumpBase.toNat 47 21 * 2 ^ 21
def DieRst.dumpEn (x : DieRst) : Bool := x.dumpBase.getLsbD 0
def DieRst.dumpV (x : DieRst) : Bool := x.dumpInfo.getLsbD 63

/-- RST_DUMPINFO of a sample, with ERR as it stands. -/
def dumpInfoOf (cxh : BitVec 16) (len off : Nat) (auto err : Bool) : W64 :=
  BitVec.ofNat 64 (cxh.toNat + at_ 16 (len / 32 - 1) + at_ 21 off + at_ 39 (b1 auto) + at_ 40 (b1 err) + at_ 63 1)

/-- Whether a die's dump region passes R179 and R36. -/
def State.dumpOk (s : State) (d : Nat) : Bool :=
  paRangeOk s.layout (partOfDie s.layout d) (s.die d).rst.dumpPa (2 ^ 21)

/-- A sample of a context's tiles of one die. A region that fails sets ERR, and nothing else changes (log
entry 60); ERR stays until it is cleared. -/
def State.sampleDie (s : State) (c : CtxRef) (d off len : Nat) (auto : Bool) : State :=
  let x := s.die d
  let ok := s.dumpOk d
  if ok then
    let s1 := forAll ((s.ctx c).tidsOn d) (fun s t =>
      s.paWrite (partOfDie s.layout d) (x.rst.dumpPa + 1024 * (t % 2048)) (s.tileSample t off len)) s
    let info := dumpInfoOf (s.cxh c) len off auto (x.rst.dumpInfo.getLsbD 40)
    (s1.setDie d { x with rst := { x.rst with dumpInfo := info, dumpSsn := (s.ctx c).run.ssn } }).hwSet (bar0Bit d 0xB0208 63)
  else (s.setDie d { x with rst := { x.rst with dumpInfo := putBit x.rst.dumpInfo 40 true } }).hwSet (bar0Bit d 0xB0208 40)

/-- The samples that the dies of a context take by themselves at a fault. -/
def State.autoSample (s : State) (c : CtxRef) : State :=
  forAll (s.ctx c).dies (fun s d =>
    let x := (s.die d).rst
    let k := (sget 0 x.sample c.slot).toNat
    if bit k 0 && x.dumpEn && !x.dumpV && s.hbmOn then s.sampleDie c d (bits k 23 6) (32 * (bits k 5 1 + 1)) true else s) s

/-! ### Faults (R362, R363) -/

/-- Whether a context's engines go on: it runs, is halted at a boundary, or is done (R362). -/
def Ctx.live (x : Ctx) : Bool := x.st = .running || x.st = .halted || x.st = .done

/-- RST_CTXSTAT of a fault. -/
def ctxStatOf (cause src : Nat) (ssn : W32) : W64 := BitVec.ofNat 64 (cause + at_ 3 src + at_ 32 ssn.toNat)

/-- RST_FAULT of a fault. -/
def rstFaultOf (cxh : BitVec 16) (cause src : Nat) : W64 :=
  BitVec.ofNat 64 (cxh.toNat + at_ 16 src + at_ 25 cause + at_ 63 1)

/-- Whether a fault takes RST_FAULT: the first since V was cleared; of those in one control cycle, a HANG,
then the lowest slot. -/
def DieRst.takesFault (x : DieRst) (now : W64) (cause slot : Nat) : Bool :=
  let old := x.fault.toNat
  let oldHang : Bool := bits old 27 25 = causeHang
  let newHang : Bool := cause = causeHang
  !bit old 63 || (x.faultHt = now && ((newHang && !oldHang) || (newHang = oldHang && slot < bits old 13 11)))

/-- The record of a fault on one die: RST_CTXSTAT has the event for cause EVENT alone, RST_FAULT the event of
the fault (R363, R389). -/
def State.faultDie (s : State) (c : CtxRef) (cause src : Nat) (d : Nat) : State :=
  let x := s.die d
  let r := { x.rst with ctxStat := sput x.rst.ctxStat c.slot (ctxStatOf cause (if cause = causeEvent then src else 0) (s.ctx c).run.ssn) }
  let a := bar0Bit d 0xB0100 63
  if x.rst.takesFault s.ht.now cause c.slot then
    (s.setDie d { x with rst := { r with fault := rstFaultOf (s.cxh c) cause src, faultHt := s.ht.now } }).hwSet a
  else
    let s := s.setDie d { x with rst := r }
    if { x.rst with fault := (s.newRec a).getD 0, faultHt := s.ht.now }.takesFault s.ht.now cause c.slot then
      s.hwRec a (rstFaultOf (s.cxh c) cause src)
    else s

/-- The ports that a context holds. -/
def State.portsOf (s : State) (c : CtxRef) : List Nat := (List.range 16).filter (fun p => (s.port p).xch.owner = some c)

/-- A port whose slots stop and whose armed channels fault (R275, R362). -/
def stopXch (x : PortXch) : PortXch :=
  { x with slots := [],
           chans := x.chans.map (fun e => (e.1, { e.2 with st := (match e.2.st with
             | .armed => ChSt.fault | .wait => .fault | .idle => .idle | .done => .done | .fault => .fault) })) }

/-- The jobs of a cluster stop at the next Clover cycle (R362). -/
def State.stopJobs (s : State) (cid : Nat) : State :=
  let x := s.cluster cid
  if x.eng.isEmpty then s else s.setCluster cid { x with stopAt := some (x.cyc + 1) }

/-- A context faults (R362): its state, the records of its dies, the stop of its ports, the reply of a waiting
HALT, CTX_FAULTED, ATTN.FAULT, and the samples. A context that is not in use or has faulted is not changed. -/
def State.faultCtx (s : State) (c : CtxRef) (cause src : Nat) : State :=
  let x := s.ctx c
  match x.st with
  | .free => s
  | .tearing => s
  | .faulted => s
  | _ =>
    let s : State := { s.setCtx c { x with st := .faulted, run := { x.run with haltBy := [], faultAt := some (s.now, s.free) } } with free := s.free + 1 }
    let s := forAll (diesOf s.layout c.part) (fun s d => s.faultDie c cause src d) s
    let s := forAll x.cids State.stopJobs s
    let s := forAll (s.portsOf c) (fun s p => s.setPort p { s.port p with xch := stopXch (s.port p).xch }) s
    let s := forAll x.run.haltBy (fun s r => s.replyCode r codeFaulted) s
    let s := s.raise (servingDie s.layout c.part) evCtxFaulted (s.infoCtx c 0)
    s.autoSample c

/-- A fault by an event of the context (cause EVENT). -/
def State.faultEvent (s : State) (c : CtxRef) (src : Nat) : State := s.faultCtx c causeEvent src

/-! ### Traps (R112, R113) -/

/-- DETAIL of a trap (R349). -/
def trapDetail (pc : W64) (sram unit slot : Nat) : W64 :=
  BitVec.ofNat 64 (bits pc.toNat 17 0 + at_ 18 (sram % 2 ^ 18) + at_ 36 (unit % 16) + at_ 40 (slot % 16))

/-- A trap of a thread with the DETAIL of its event, and what it names beyond its record's words: TRAPPED, the
tile's trap record, the event on the tile's die, and the context's fault. Of a target address out of range,
TRAP_PC and DETAIL hold its low 18 bits (DESIGN CHOICE, log entry 60). -/
def State.trapNamed (s : State) (c : CtxRef) (t n src : Nat) (detail : W64) (names : List Nat) : State :=
  let x := s.tile t
  let h := x.thread n
  let y := { x with thr := sput x.thr n { h with st := .trapped, wait := .none } }
  let y := if x.trapV then y else { y with trapPc := BitVec.ofNat 18 h.pc.toNat, trapThr := BitVec.ofNat 3 n, trapV := true }
  let s := s.setTile t y
  let s := s.raise (dieOfTile t) src { s.infoThr c t n detail with names := names }
  s.faultEvent c src

/-- A trap that names no more than its record's words. -/
def State.trapWith (s : State) (c : CtxRef) (t n src : Nat) (detail : W64) : State := s.trapNamed c t n src detail []

/-- A trap whose DETAIL names the PC, an SRAM address, a unit and a slot (R112, R349). -/
def State.trap (s : State) (c : CtxRef) (t n src : Nat) (sram unit slot : Nat) : State :=
  s.trapWith c t n src (trapDetail (s.thread t n).pc sram unit slot)

/-- BANK_OFF of an access that no thread makes (R202): it names the CXH, the tile and the address, and the
context faults. -/
def State.bankOff (s : State) (c : CtxRef) (t a unit : Nat) : State :=
  (s.raise (dieOfTile t) evBankOff { s.infoCtx c (trapDetail 0 a unit 0) with tid := BitVec.ofNat 13 t }).faultEvent c evBankOff

end Sys2Proof.Machine
end

