-- ==== Sys2Proof/Machine/Symbol.lean ====
section
/-!
DEFINITION. Link symbols and check codes (R241, R242, R288, R290).
-/

namespace Sys2Proof.Machine

/-- One bit of CRC-8, polynomial 0x07, n times. -/
def crc8Bits : Nat → Byte → Byte
  | 0, a => a
  | n + 1, a => crc8Bits n (if a.msb then (a <<< 1) ^^^ 0x07 else a <<< 1)

/-- CRC-8 over bytes from 0 (R241). -/
def crc8 (bs : List Byte) : Byte := bs.foldl (fun a b => crc8Bits 8 (a ^^^ b)) 0

/-- CHK of a symbol word: over its bytes 0 to 6. -/
def symChk (w : W64) : Byte := crc8 (toLE 7 w.toNat)

/-- A control word or symbol: TYPE, BODY and CHK (R241). -/
def symWord (ty body : Nat) : W64 :=
  let w : W64 := BitVec.ofNat 64 (ty % 256 + at_ 8 (body % 2 ^ 48))
  w ||| (symChk w).zeroExtend 64 <<< 56

/-- Whether a word passes its check. -/
def symOk (w : W64) : Bool := fld w 63 56 = (symChk w).toNat

def symType (w : W64) : Nat := fld w 7 0
def symBody (w : W64) : Nat := fld w 55 8

/-! ### Types (R241, R288) -/

def tyTsReq : Nat := 0x01
def tyTsResp : Nat := 0x02
def tyTsFup : Nat := 0x03
def tyTree : Nat := 0x04
def tyArrive : Nat := 0x10
def tyComplete : Nat := 0x11
def tyGoing : Nat := 0x20
def tySof : Nat := 0x81
def tyAck : Nat := 0x82
def tyNak : Nat := 0x83
def tyCal : Nat := 0x84

/-! ### CRC-32C (R290) -/

def crc32Bits : Nat → W32 → W32
  | 0, a => a
  | n + 1, a => crc32Bits n (if a.getLsbD 0 then (a >>> 1) ^^^ 0x82F63B78 else a >>> 1)

/-- The CRC-32C of a list of bytes. -/
def crc32c (bs : List Byte) : W32 :=
  ~~~(bs.foldl (fun (a : W32) b => crc32Bits 8 (a ^^^ b.zeroExtend 32)) 0xFFFFFFFF)

/-! ### Ports -/

/-- Whether a port carries symbols: UP or DEGRADED (R296, R299). -/
def Port.live (x : Port) : Bool :=
  match x.link.st with
  | .up => true
  | .degraded => true
  | .down => false
  | .detect => false
  | .train => false
  | .align => false

/-- Whether a port is UP: a DEGRADED port counts as DOWN but for hall time (R299). -/
def Port.isUp (x : Port) : Bool := x.link.st = .up

/-- Whether a port's word stream runs: it carries traffic, or its lanes are locked in ALIGN (R296). -/
def Port.receives (x : Port) : Bool := x.live || x.link.st = .align

/-- The place of a symbol among those that wait at a port: THS_COMPLETE, THS_ARRIVE, GOING_AWAY, then the
hall-time symbols (R242). -/
def symRank (w : W64) : Nat :=
  if symType w = tyComplete then 0 else if symType w = tyArrive then 1 else if symType w = tyGoing then 2 else 3

/-- A symbol put into the queue of a port: behind those that leave before it and those of its own kind (R242). -/
def queueSym (w : W64) : List W64 → List W64
  | [] => [w]
  | v :: vs => if symRank v ≤ symRank w then v :: queueSym w vs else w :: v :: vs

def PortTx.putSym (x : PortTx) (w : W64) : PortTx := { x with syms := queueSym w x.syms }

/-- A symbol for a port whose word stream runs (R241, R242): it waits for the next word boundary. -/
def State.queueOn (s : State) (p : Nat) (w : W64) : State := s.setPort p { s.port p with tx := (s.port p).tx.putSym w }

/-- A symbol sent on a port that carries traffic (R241). -/
def State.sendSym (s : State) (p : Nat) (w : W64) : State := if (s.port p).live then s.queueOn p w else s

/-- The symbols that wait at a port leave in their order (R242). A word takes 0.04 ns, so every symbol leaves
within the nanosecond in which it was queued (log entry 31). -/
def State.flushSyms (s : State) (p : Nat) : State :=
  let x := s.port p
  if x.tx.syms.isEmpty then s
  else forAll x.tx.syms (fun s w => s.emit (.word p w)) (s.setPort p { x with tx := { x.tx with syms := [] } })

/-- A Thistle symbol sent on a port that is UP: two copies in adjacent words (R242, R299). -/
def State.sendThs (s : State) (p : Nat) (w : W64) : State := if (s.port p).isUp then (s.sendSym p w).sendSym p w else s

/-- A symbol that is discarded and counted in SYMERR (R241). -/
def State.symErr (s : State) (p : Nat) : State :=
  let x := s.port p
  s.setPort p { x with ht := { x.ht with symErr := satAdd x.ht.symErr 1 } }

/-- A copy of a symbol: counted in SYMERR where it fails its check (R241). -/
def State.countCopy (s : State) (p : Nat) (w : W64) : State := if symOk w then s else s.symErr p

end Sys2Proof.Machine
end

