-- ==== Sys2Proof/Machine/Lateness.lean ====
section
/-!
DEFINITION. Lateness against the schedule: deadlines, misses and stretch (R57 to R63).
-/

namespace Sys2Proof.Machine

def causeComputeOverrun : Nat := 1
def causeBarrierLate : Nat := 2
def causeLateConsumer : Nat := 4
def causeSlotOverrun : Nat := 8

/-- The budget of the compute phase of a context on a die (R57, R64); 0 is unbudgeted. -/
def State.budget (s : State) (c : CtxRef) (d : Nat) : Nat :=
  (sget 0 (s.die d).budget (256 * c.slot + (s.ctx c).run.budIdx.toNat)).toNat

/-- The deadline D on a die (R58). -/
def State.deadline (s : State) (c : CtxRef) (d : Nat) : Nat := (s.ctx c).run.tcs + s.budget c d

/-- An overrun in 32 bits, saturating (R59). -/
def over32 (n : Nat) : W32 := BitVec.ofNat 32 (min n (2 ^ 32 - 1))

/-- A Strict miss recorded on a die (R59, R63). -/
def State.recordMiss (s : State) (c : CtxRef) (d cause ns : Nat) : State :=
  let x := s.ss d c.slot
  let info : W32 := BitVec.ofNat 32 (at_ 31 1 + cause)
  let x := { x with nmiss := satAdd x.nmiss 1, newAt := some s.now, newInfo := info, newSsn := (s.ctx c).run.ssn, newOver := over32 ns }
  let x := if x.missInfo.getLsbD 31 then x
    else { x with missInfo := info, missSsn := (s.ctx c).run.ssn, missOver := over32 ns }
  (s.setSs d c.slot x).raise d evDeadlineMiss (s.infoCtx c (BitVec.ofNat 64 (cause + at_ 32 (over32 ns).toNat)))

/-- A write of 1 to MISSINFO.VALID (R63): a miss of the same cycle stays held in its place. -/
def SsRegs.clearMiss (x : SsRegs) (now : Nat) : SsRegs :=
  if x.newAt = some now then { x with missInfo := x.newInfo, missSsn := x.newSsn, missOver := x.newOver }
  else { x with missInfo := putBit x.missInfo 31 false }

/-- The cause bits of a Strict miss in the fault record of every die of the partition (R60). -/
def State.setMissBits (s : State) (c : CtxRef) (bits : Nat) : State :=
  forAll (diesOf s.layout c.part) (fun s d =>
    s.setDie d { s.die d with rst := { (s.die d).rst with missBits := sput (s.die d).rst.missBits c.slot (BitVec.ofNat 4 bits) } }) s

/-- The fault of a Strict miss (R60), with its cause bits; of a context that faults otherwise in the same
nanosecond the first fault stands. -/
def State.missFault (s : State) (c : CtxRef) (bits : Nat) : State :=
  let t := s.faultEvent c evDeadlineMiss
  if (s.ctx c).live || (s.ctx c).st = .faulted then t.setMissBits c bits else t

/-- A condition met with MISS_ACT = 1 on some of the dies (R60): noted there until the nanosecond ends, so
that the record holds all that it met. -/
def State.instantMiss (s : State) (c : CtxRef) (cause : Nat) (ns : Nat → Nat) (ds : List Nat) : State :=
  let x := s.ctx c
  let hit := if x.strict then ds.filter (fun d => (s.ss d c.slot).missAct) else []
  s.setCtx c { x with run := { x.run with instant := x.run.instant ++ hit.map (fun d => (d, cause, ns d)) } }

/-- The cause bits, and the largest overrun, of the conditions that a context met on a die in this nanosecond. -/
def instantBits (xs : List (Nat × Nat × Nat)) : Nat := xs.foldl (fun b x => b ||| x.2.1) 0
def instantOver (xs : List (Nat × Nat × Nat)) : Nat := xs.foldl (fun b x => max b x.2.2) 0

/-- The misses of a nanosecond with MISS_ACT = 1, at its end (R60): one record on each die that met a
condition, and the fault; also where the context has faulted otherwise in that nanosecond. -/
def State.endInstant (s : State) (c : CtxRef) : State :=
  let xs := (s.ctx c).run.instant
  if xs.isEmpty then s
  else
    let s := s.setCtx c { s.ctx c with run := { (s.ctx c).run with instant := [] } }
    if (s.ctx c).st = .running || (s.ctx c).st = .faulted then
      (forAll ((s.ctx c).dies.filter (fun d => xs.any (fun x => x.1 = d)))
        (fun s d => s.recordMiss c d (instantBits (xs.filter (fun x => x.1 = d))) (instantOver (xs.filter (fun x => x.1 = d)))) s).missFault c
          (instantBits xs)
    else s

/-- The stretch of a superstep added on a die (R61). -/
def State.addStretch (s : State) (c : CtxRef) (d ns : Nat) : State :=
  let x := s.ss d c.slot
  s.setSs d c.slot { x with stretch := satAdd x.stretch ns, nstretch := satAdd x.nstretch 1 }

/-- The tile cycle of a cluster in progress at a time not later than now, or the earlier of two at their boundary. -/
def State.tileCycAt (s : State) (cid at_ : Nat) : Nat :=
  let x := s.cluster cid
  (80 * x.tileCyc + x.tilePh - (if x.envelope then 7 else 8) * x.k * (s.now - at_) + 79) / 80 - 1

end Sys2Proof.Machine
end

