-- ==== Sys2Proof/Machine/Job.lean ====
section
/-!
DEFINITION. Clover job descriptors: their fields, regions, timing and scoreboard entries (R117, R119, R121,
R122, R127, R129, R137, R139), and the checks that an SRAM access meets before arbitration (R104, R140, R190,
R202). -/

namespace Sys2Proof.Machine

/-! ### Fields of a descriptor (R129) -/

/-- Bits of a word of a descriptor. -/
def jf (w : List W64) (i hi lo : Nat) : Nat := bits (w.getD i 0).toNat hi lo

def jobFmtA (w : List W64) : Nat := jf w 0 3 0
def jobFmtB (w : List W64) : Nat := jf w 0 7 4
def jobFmtAux (w : List W64) : Nat := jf w 0 11 8
def jobFmtOut (w : List W64) : Nat := jf w 0 15 12
def jobDrain (w : List W64) : Nat := jf w 0 18 16
def jobAct (w : List W64) : Nat := jf w 0 21 19
def jobAccum (w : List W64) : Bool := jf w 0 22 22 = 1
def jobSr (w : List W64) : Bool := jf w 0 23 23 = 1
def jobDscale (w : List W64) : Bool := jf w 0 24 24 = 1
def jobDoneEn (w : List W64) : Bool := jf w 0 25 25 = 1
def jobDoneFlag (w : List W64) : Nat := jf w 0 31 26
def jobWatchEn (w : List W64) : Bool := jf w 0 32 32 = 1
def jobWatch (w : List W64) : Nat := jf w 0 40 33
def jobScaleBase (w : List W64) : Nat := jf w 0 49 41
def jobMBlks (w : List W64) : Nat := jf w 1 3 0 + 1
def jobNBlks (w : List W64) : Nat := jf w 1 7 4 + 1
def jobRowMask (w : List W64) : Nat := jf w 1 15 8
def jobColMask (w : List W64) : Nat := jf w 1 23 16
def jobK (w : List W64) : Nat := jf w 1 39 24 + 1
def jobABase (w : List W64) : Nat := jf w 2 17 0
def jobAStride (w : List W64) : Nat := jf w 2 35 18
def jobBBase (w : List W64) : Nat := jf w 2 53 36
def jobBStride (w : List W64) : Nat := jf w 3 17 0
def jobAuxBase (w : List W64) : Nat := jf w 3 35 18
def jobAuxStride (w : List W64) : Nat := jf w 3 53 36
def jobOutBase (w : List W64) : Nat := jf w 4 17 0
def jobOutStride (w : List W64) : Nat := jf w 4 35 18
def jobAscBase (w : List W64) : Nat := jf w 4 53 36
def jobBscBase (w : List W64) : Nat := jf w 5 17 0
def jobSeed (w : List W64) : Nat := jf w 5 63 32
def jobZoutBase (w : List W64) : Nat := jf w 6 17 0
def jobZoutStride (w : List W64) : Nat := jf w 6 35 18
def jobZoutEn (w : List W64) : Bool := jf w 6 36 36 = 1
/-- ZOUT_FMT as a format code. -/
def jobZoutFmt (w : List W64) : Nat := jf w 6 37 37 + 1

/-- Output tiles of a job (R121). -/
def jobTiles (w : List W64) : Nat := jobMBlks w * jobNBlks w

/-- Whether a FMT field names the MX form. -/
def fmtMx (f : Nat) : Bool := 8 ≤ f

/-- The format code of a FMT field. -/
def fmtCode (f : Nat) : Nat := f % 8

/-- Width of a format in bits (R150). -/
def fmtWidth (c : Nat) : Nat :=
  if c = 0 then 32 else if c ≤ 2 then 16 else if c ≤ 4 then 8 else 6

/-- Bytes of `n` elements of a format. -/
def fmtBytes (c n : Nat) : Nat := (n * fmtWidth c + 7) / 8

/-- Clover cycles that one output tile spends on K steps (R117). -/
def jobKc (w : List W64) : Nat :=
  let c := fmtCode (jobFmtA w)
  if c = 0 then 3 * jobK w else if c ≤ 2 then jobK w else jobK w / 2

/-- Output-tile period (R121). -/
def jobP (w : List W64) : Nat := max (jobKc w) 256

/-- Active rows and columns of an output tile (R137). -/
def jobRows (w : List W64) (n : Nat) : Nat := if n / jobNBlks w + 1 = jobMBlks w then jobRowMask w + 1 else 256
def jobCols (w : List W64) (n : Nat) : Nat := if n % jobNBlks w + 1 = jobNBlks w then jobColMask w + 1 else 256

/-- M and N (R129). -/
def jobM (w : List W64) : Nat := 256 * (jobMBlks w - 1) + jobRowMask w + 1
def jobN (w : List W64) : Nat := 256 * (jobNBlks w - 1) + jobColMask w + 1

/-- Whether AUX is a region of the job (R132, R139): DRAIN BIAS, BIAS_ACT or DERIV. -/
def jobUsesAux (w : List W64) : Bool := jobDrain w = 1 || jobDrain w = 3 || jobDrain w = 4
def jobMx (w : List W64) : Bool := fmtMx (jobFmtA w) || fmtMx (jobFmtB w)

/-- A region of a job: its kind, first byte, length rounded up to 32 bytes, and whether it is an output (R137,
R139). -/
structure Region where
  lo  : Nat
  len : Nat
  out : Bool
deriving DecidableEq, Repr

def round32 (n : Nat) : Nat := (n + 31) / 32 * 32

/-- The regions of a job, inputs first (R137, R139). -/
def jobRegions (w : List W64) : List Region :=
  [⟨jobABase w, round32 ((jobMBlks w - 1) * jobAStride w + fmtBytes (fmtCode (jobFmtA w)) (jobK w)), false⟩,
   ⟨jobBBase w, round32 ((jobNBlks w - 1) * jobBStride w + fmtBytes (fmtCode (jobFmtB w)) (jobK w)), false⟩] ++
  (if jobUsesAux w then
    [⟨jobAuxBase w, round32 ((jobMBlks w - 1) * jobAuxStride w + fmtBytes (fmtCode (jobFmtAux w)) (jobNBlks w * 256)), false⟩] else []) ++
  (if jobMx w then
    [⟨jobAscBase w, round32 (jobMBlks w * jobK w / 32), false⟩, ⟨jobBscBase w, round32 (jobNBlks w * jobK w / 32), false⟩] else []) ++
  [⟨jobOutBase w, round32 ((jobMBlks w - 1) * jobOutStride w + fmtBytes (fmtCode (jobFmtOut w)) (jobNBlks w * 256)), true⟩] ++
  (if jobZoutEn w then
    [⟨jobZoutBase w, round32 ((jobMBlks w - 1) * jobZoutStride w + fmtBytes (jobZoutFmt w) (jobNBlks w * 256)), true⟩] else [])

/-- Whether two byte ranges share a byte. -/
def overlaps (a n b m : Nat) : Bool := a < b + m && b < a + n && n ≠ 0 && m ≠ 0

def Region.hits (x y : Region) : Bool := overlaps x.lo x.len y.lo y.len

/-! ### Timing (R119, R121, R122, R124) -/

/-- Clover and tile cycles of one alignment period (R124). -/
def Cluster.align (x : Cluster) : Nat × Nat := if x.envelope then (4, 7) else (5, 8)

/-- An integer quotient rounded up, at least 0. -/
def ceilDiv (a : Int) (b : Nat) : Nat := ((a + b - 1) / b).toNat

/-- The first Clover cycle that begins at or after the end of a tile cycle (R121). -/
def Cluster.readyAt (x : Cluster) (cyc : Nat) : Nat :=
  let (n, d) := x.align
  ceilDiv ((80 * x.cyc + x.cloverPh : Int) * d + (80 * (cyc + 1) - 80 * x.tileCyc - x.tilePh : Int) * n) (80 * d)

/-- The first tile cycle that begins at or after a Clover cycle (R125). -/
def Cluster.tileAt (x : Cluster) (c : Nat) : Nat :=
  let (n, d) := x.align
  ceilDiv ((80 * x.tileCyc + x.tilePh : Int) * n + (80 * c - 80 * x.cyc - x.cloverPh : Int) * d) (80 * n)

/-- The Clover cycle in progress when a tile cycle begins. -/
def Cluster.cloverAt (x : Cluster) (cyc : Nat) : Nat :=
  let (n, d) := x.align
  (((80 * x.cyc + x.cloverPh : Int) * d + (80 * cyc - 80 * x.tileCyc - x.tilePh : Int) * n) / (80 * d : Nat)).toNat

/-- The tile cycle in which a Clover cycle begins. -/
def Cluster.tileOf (x : Cluster) (c : Nat) : Nat :=
  let (n, d) := x.align
  (((80 * x.tileCyc + x.tilePh : Int) * n + (80 * c - 80 * x.cyc - x.cloverPh : Int) * d) / (80 * n : Nat)).toNat

/-- First feed cycle of output tile n, and the cycle of its wavefront (R121, R122). -/
def Job.sAt (j : Job) (n : Nat) : Nat := j.s0 + n * jobP j.words
def Job.wAt (j : Job) (n : Nat) : Nat := j.sAt n + jobKc j.words + 510

/-- The cycles of a job's last wavefront and of its completion (R122). -/
def Job.wLast (j : Job) : Nat := j.wAt (jobTiles j.words - 1)
def Job.doneAt (j : Job) : Nat := j.wLast + 256

/-- The entries that a job still holds in the scoreboard: its inputs until its last wavefront (R139). -/
def Job.entries (j : Job) : List Region :=
  (jobRegions j.words).filter (fun r => r.out || j.waves < jobTiles j.words)

/-- An engine of a cluster. -/
def Cluster.engine (x : Cluster) (e : Nat) : Engine := sget {} x.eng e
def Cluster.setEngine (x : Cluster) (e : Nat) (y : Engine) : Cluster := { x with eng := sput x.eng e y }
def State.engine (s : State) (cid e : Nat) : Engine := (s.cluster cid).engine e
def State.setEngine (s : State) (cid e : Nat) (y : Engine) : State := s.setCluster cid ((s.cluster cid).setEngine e y)

/-- Every incomplete job of a cluster with its engine. -/
def Cluster.jobs (x : Cluster) : List (Nat × Job) := [0, 1, 2].flatMap (fun e => (x.engine e).q.map (fun j => (e, j)))

/-- Scoreboard entries in use (R139). -/
def Cluster.sbUsed (x : Cluster) : Nat := (x.jobs.map (fun j => j.2.entries.length)).sum

/-- The jobs of a cluster with the one that each engine completed last: those whose entries a tile cycle may
still meet. -/
def Cluster.jobsAll (x : Cluster) : List (Nat × Job) :=
  [0, 1, 2].flatMap (fun e => ((x.engine e).last.toList ++ (x.engine e).q).map (fun j => (e, j)))

/-- The entries of a job that stand at the start of a tile cycle (R139, R140): an input until the last
wavefront, an output until completion; one released in that tile cycle still stands. -/
def Cluster.entriesAt (x : Cluster) (j : Job) (cyc : Nat) : List Region :=
  (jobRegions j.words).filter (fun r => cyc ≤ x.tileOf (if r.out then j.doneAt else j.wLast))

/-! ### Checks of an access (R140, R190, R202) -/

/-- Why an access is refused before it reaches a bank: the job whose region it hits; the handle, the slot and
its state; a group without power. -/
inductive AccErr where
  | region (eng : Nat) (seq : BitVec 8)
  | slot (h k : Nat) (st : SlotSt)
  | off
deriving DecidableEq, Repr

def AccErr.event : AccErr → Nat
  | .region _ _ => evRegionConflict
  | .slot _ _ _ => evSlotNotReady
  | .off => evBankOff

/-- The job whose region a core or DMA access of a tile cycle hits (R140): reads meet outputs, writes meet
every region; a job posted in that tile cycle is not met yet. Of several jobs, the first of F, G0 and G1 and
the oldest of its engine is named (DESIGN CHOICE, log entry 17). -/
def Cluster.hit (x : Cluster) (cyc a n : Nat) (wr : Bool) : Option (Nat × Job) :=
  x.jobsAll.find? (fun j => j.2.postAt < cyc && (x.entriesAt j.2 cyc).any (fun r => (wr || r.out) && overlaps a n r.lo r.len))

/-- The slots of a handle, as they stand before a change in a tile cycle. -/
def Handle.slotsOld (y : Handle) (cyc h : Nat) (isOpen : Bool) : List SlotOld :=
  y.slots.zipIdx.map (fun k => { cyc := cyc, h := h, k := k.2, lo := y.base + k.2 * y.size, len := y.size, st := if isOpen then some k.1 else none })

/-- The slots of a tile at the start of a tile cycle (R190): of each the oldest note of a change in that cycle
or later, else as it stands. -/
def Tile.slotsAt (x : Tile) (cyc : Nat) : List SlotOld :=
  (x.slotOld.filter (fun e => cyc ≤ e.cyc) ++ x.handles.flatMap (fun e => e.2.slotsOld cyc e.1 true)).foldl
    (fun l e => if l.any (fun f => f.h = e.h && f.k = e.k) then l else l ++ [e]) []

/-- A handle set, or closed, in a tile cycle, its slots noted as they stood. -/
def Tile.turnHandle (x : Tile) (cyc h : Nat) (y : Option Handle) : Tile :=
  let old : List SlotOld := match (x.handles.find? (fun e => e.1 = h)).map Prod.snd, y with
    | some z, _ => z.slotsOld cyc h true
    | none, some z => z.slotsOld cyc h false
    | none, none => []
  { x with slotOld := x.slotOld.filter (fun e => cyc ≤ e.cyc + 64) ++ old,
           handles := (match y with
             | some z => sput x.handles h z
             | none => sdrop (fun i => i = h) x.handles) }

/-- Whether a slot's state forbids an access (R190). -/
def SlotOld.bars (e : SlotOld) (wr : Bool) : Bool :=
  match e.st with
  | some .full => wr
  | some .empty => !wr
  | some .filling => true
  | some .draining => true
  | none => false

/-- The slot of an OPEN handle, not `own`, whose state at the start of a tile cycle forbids an access (R190). -/
def Tile.slotHit (x : Tile) (cyc a n : Nat) (wr : Bool) (own : Option Nat) : Option (Nat × Nat × SlotSt) :=
  ((x.slotsAt cyc).find? (fun e => own ≠ some e.h && overlaps a n e.lo e.len && e.bars wr)).map
    (fun e => (e.h, e.k, e.st.getD .empty))

/-- The first check that an access of a tile fails in a tile cycle: the scoreboard, then slot states, then the
power of its bank group. -/
def State.checkAccess (s : State) (t cyc a n : Nat) (wr : Bool) (own : Option Nat) : Option AccErr :=
  match (s.cluster (cidOfTile t)).hit cyc a n wr with
  | some j => some (.region j.1 j.2.seq)
  | none =>
    match (s.tile t).slotHit cyc a n wr own with
    | some h => some (.slot h.1 h.2.1 h.2.2)
    | none => if (s.bank (cidOfTile t) (groupOf a)).serves then none else some .off

/-- CLV_ERR_b of an error (R147); a record that is held is not changed. -/
def State.clvErr (s : State) (cid cause check eng seq lane thr : Nat) (dma : Bool) (addr : Nat) : State :=
  let x := s.cluster cid
  let v := cause + at_ 4 check + at_ 8 eng + at_ 10 seq + at_ 18 lane + at_ 26 thr + at_ 29 (b1 dma) + at_ 32 (addr % 2 ^ 18) + at_ 63 1
  let a := bar0Bit (dieOfCid cid) (0x20018 + 0x100 * (cid % 8)) 63
  if x.err.getLsbD 63 then (if (s.newRec a).isSome then s else s.hwRec a (BitVec.ofNat 64 v))
  else (s.setCluster cid { x with err := BitVec.ofNat 64 v }).hwSet a

/-- The record that a refused access leaves in CLV_ERR (R141). -/
def State.noteErr (s : State) (t thr a : Nat) (dma : Bool) (e : AccErr) : State :=
  match e with
  | .region eng seq => s.clvErr (cidOfTile t) 4 0 eng seq.toNat (t % 256) thr dma a
  | .slot _ _ _ => s
  | .off => s

def AccErr.unit : AccErr → Nat
  | .slot h _ _ => h
  | .region _ _ => 0
  | .off => 0

def AccErr.slotNo : AccErr → Nat
  | .slot _ k _ => k
  | .region _ _ => 0
  | .off => 0

/-- The code of a slot state. -/
def SlotSt.code : SlotSt → Nat
  | .empty => 0
  | .filling => 1
  | .full => 2
  | .draining => 3

/-- The ticket of a job (R134). -/
def ticket (seq : BitVec 8) (e : Nat) : W64 := BitVec.ofNat 64 (seq.toNat + at_ 8 e + at_ 10 1)

/-- What the record of a refused access names beyond its words: the ticket of the job (R141), or the state of
the slot (R190). -/
def AccErr.names : AccErr → List Nat
  | .region e seq => [(ticket seq e).toNat]
  | .slot _ _ st => [st.code]
  | .off => []

/-- A core access that a check refuses traps its thread (R112, R141, R190, R202). -/
def State.accTrap (s : State) (c : CtxRef) (t n a : Nat) (e : AccErr) : State :=
  (s.noteErr t n a false e).trapNamed c t n e.event (trapDetail (s.thread t n).pc a e.unit e.slotNo) e.names

/-! ### Banks (R101 to R103) -/

/-- The banks of a wide access. -/
def wideMask (a : Nat) : BitVec 12 := BitVec.ofNat 12 (15 * 2 ^ (4 * groupOf a))

/-- The bank of a narrow access. -/
def narrowMask (a : Nat) : BitVec 12 := BitVec.ofNat 12 (2 ^ (4 * groupOf a + bits a 4 3))

/-- A core issue slot lost to a refused request (R113). -/
def State.countReplay (s : State) (d : Nat) : State := s.setDie d { s.die d with replay := satAdd (s.die d).replay 1 }

end Sys2Proof.Machine
end

