-- ==== Sys2Proof/Machine/Feed.lean ====
section
/-!
DEFINITION. The banks of a tile in a tile cycle (R101 to R105): the accesses that the Clover feed port has due
(R125 to R127), and the requests granted. -/

namespace Sys2Proof.Machine

/-- The context whose jobs a cluster runs, with the fast clocks on (R46, R362). -/
def State.cloverCtx (s : State) (cid : Nat) : Option CtxRef :=
  match s.ctxOfCid cid with
  | none => none
  | some c => if (s.ctx c).live && (s.cluster cid).clk = .running then some c else none

/-- The row and column block of an output tile (R121). -/
def jobMb (w : List W64) (n : Nat) : Nat := n / jobNBlks w
def jobNb (w : List W64) (n : Nat) : Nat := n % jobNBlks w

/-! ### The feed port (R125 to R127) -/

/-- The line of the last bit of element k of a stream of `w`-bit elements from a byte address. -/
def lineOf (base w k : Nat) : Nat := (8 * base + w * k + w - 1) / 256

/-- The lines first needed by the elements lo to lo + n − 1 of a stream: its address, in bytes. -/
def newLines (base w lo n : Nat) : List Nat :=
  ((List.range n).filter (fun i => lo + i = 0 || lineOf base w (lo + i) ≠ lineOf base w (lo + i - 1))).map
    (fun i => 32 * lineOf base w (lo + i))

/-- The lines whose last value is one of the columns lo to lo + n − 1 of a row of `cols` values. -/
def doneLines (base w cols lo n : Nat) : List Nat :=
  ((List.range n).filter (fun i => lo + i < cols && (lo + i + 1 = cols || lineOf base w (lo + i) ≠ lineOf base w (lo + i + 1)))).map
    (fun i => 32 * lineOf base w (lo + i))

/-- The steps 0 to n − 1 of a run that begins at cycle `t` that fall into a window: the first and their number. -/
def stepsIn (win t n : Nat) : Nat × Nat :=
  let a := max t (16 * win)
  let b := min (t + n) (16 * win + 16)
  (a - t, b - a)

/-- K steps per Clover cycle of a pass, and the passes (R117, R118). -/
def jobPerStep (w : List W64) : Nat := if 3 ≤ fmtCode (jobFmtA w) then 2 else 1
def jobPasses (w : List W64) : Nat := if fmtCode (jobFmtA w) = 0 then 3 else 1

/-- One access of the feed port: its engine and kind (0 A, 1 B, 2 ASC, 3 BSC, 4 AUX or ACCUM prior, 5 OUT, 6
ZOUT), its job and output tile, the pass (R118), and its address. -/
structure FeedAcc where
  eng  : Nat
  kind : Nat
  job  : Nat
  n    : Nat
  pass : Nat
  addr : Nat
deriving DecidableEq, Repr

def FeedAcc.writes (a : FeedAcc) : Bool := 5 ≤ a.kind

/-- Operand lines of a lane due two windows before they are needed, each with its pass: of a stream of `w`-bit
elements, each element covering `per` elements of K. -/
def dueOperand (j : Job) (n lane win base w per : Nat) : List (Nat × Nat) :=
  (List.range (jobPasses j.words)).flatMap (fun p =>
    let k := jobPerStep j.words
    let (a, m) := stepsIn (win + 2) (j.sAt n + p * jobK j.words + lane) (jobK j.words / k)
    let lo := (a * k + per - 1) / per
    let hi := ((a + m) * k + per - 1) / per
    (newLines base w lo (hi - lo)).map (fun x => (p, x)))

/-- The accesses of a kind that one output tile of a job makes at a lane in a window, each with its pass
(R125, R127, R137). -/
def dueTile (j : Job) (n lane win kind : Nat) : List (Nat × Nat) :=
  let w := j.words
  let mb := jobMb w n
  let nb := jobNb w n
  let row : Bool := lane < jobRows w n
  let col : Bool := lane < jobCols w n
  let d := j.sAt n + jobKc w + 255 + lane
  let pass (wd base : Nat) (wr : Bool) : List (Nat × Nat) :=
    (if !row then []
     else if wr then (let (a, m) := stepsIn (win - 1) d (jobCols w n); if win = 0 then [] else doneLines base wd (jobCols w n) a m)
     else (let (a, m) := stepsIn (win + 2) d (jobCols w n); newLines base wd a m)).map (fun x => (0, x))
  let out := jobOutBase w + mb * jobOutStride w + nb * fmtBytes (fmtCode (jobFmtOut w)) 256
  if kind = 0 then (if row then dueOperand j n lane win (jobABase w + mb * jobAStride w) (fmtWidth (fmtCode (jobFmtA w))) 1 else [])
  else if kind = 1 then (if col then dueOperand j n lane win (jobBBase w + nb * jobBStride w) (fmtWidth (fmtCode (jobFmtB w))) 1 else [])
  else if kind = 2 then (if row && jobMx w then dueOperand j n lane win (jobAscBase w + mb * (jobK w / 32)) 8 32 else [])
  else if kind = 3 then (if col && jobMx w then dueOperand j n lane win (jobBscBase w + nb * (jobK w / 32)) 8 32 else [])
  else if kind = 4 then
    (if jobUsesAux w then pass (fmtWidth (fmtCode (jobFmtAux w))) (jobAuxBase w + mb * jobAuxStride w + nb * fmtBytes (fmtCode (jobFmtAux w)) 256) false
     else if jobAccum w then pass 32 out false else [])
  else if kind = 5 then pass (fmtWidth (fmtCode (jobFmtOut w))) out true
  else if jobZoutEn w then pass 16 (jobZoutBase w + mb * jobZoutStride w + nb * 512) true else []

/-- Kinds of access in the order of R125: engine and kind. -/
def feedOrder : List (Nat × Nat) :=
  [(0, 0), (0, 1), (0, 2), (0, 3), (1, 0), (1, 1), (2, 0), (2, 1), (0, 4), (1, 4), (2, 4), (0, 5), (0, 6), (1, 5), (2, 5)]

/-- An access put among others by ascending address. -/
def insertAcc (a : FeedAcc) : List FeedAcc → List FeedAcc
  | [] => [a]
  | b :: t => if a.addr ≤ b.addr then a :: b :: t else b :: insertAcc a t

/-- The accesses due at a lane in a feed window, in order. -/
def Cluster.due (x : Cluster) (lane win : Nat) : List FeedAcc :=
  feedOrder.flatMap (fun o =>
    let y := x.engine o.1
    ((y.last.toList ++ y.q).flatMap (fun j =>
      (List.range (jobTiles j.words)).flatMap (fun n =>
        (dueTile j n lane win o.2).map (fun p => ({ eng := o.1, kind := o.2, job := j.order, n := n, pass := p.1, addr := p.2 } : FeedAcc))))).foldr insertAcc [])

/-- The access that the feed port of a tile makes in a tile cycle: the accesses of a window take consecutive
tile cycles from the first that begins in it. -/
def State.feedAcc (s : State) (t cyc : Nat) : Option FeedAcc :=
  let x := s.cluster (cidOfTile t)
  if x.jobsAll.isEmpty || (s.cloverCtx (cidOfTile t)).isNone then none
  else
    let win := x.cloverAt cyc / 16
    if cyc < x.tileAt (16 * win) then none else (x.due (t % 256) win)[cyc - x.tileAt (16 * win)]?

/-! ### Grants (R102, R103) -/

/-- The priorities of the requesters (R102); the Clover feed, of priority 1, and the reads of exchange lists
are known beforehand. -/
def prioExchange : Nat := 2
def prioDma : Nat := 3
def prioWide : Nat := 4
def prioNarrow : Nat := 5
def prioFetch : Nat := 6

/-- The banks granted in a tile cycle to requests that satisfy `p`. -/
def Tile.busy (x : Tile) (cyc : Nat) (p : Nat → Bool) : BitVec 12 :=
  (x.grants.filter (fun g => g.1 = cyc && p g.2.1)).foldl (fun m g => m ||| g.2.2) 0

/-- Banks granted in a tile cycle; grants of cycles more than 64 before are forgotten. -/
def Tile.grant (x : Tile) (cyc prio : Nat) (m : BitVec 12) : Tile :=
  { x with grants := (cyc, prio, m) :: x.grants.filter (fun g => cyc ≤ g.1 + 64) }

/-- The banks of the feed port's access in a tile cycle. -/
def State.feedMask (s : State) (t cyc : Nat) : BitVec 12 :=
  match s.feedAcc t cyc with
  | none => 0
  | some a => wideMask a.addr

/-- The banks of the read of a tile's exchange unit in a tile cycle (R249). -/
def Tile.listMask (x : Tile) (cyc : Nat) : BitVec 12 :=
  match x.xch.next, x.xch.readAt with
  | some a, some k => if k = cyc && !x.xch.read then wideMask (a + 16 * x.xch.list.length) else 0
  | _, _ => 0

/-- The banks of the access that the DMA port of a tile presents again in a tile cycle (R103). -/
def Tile.heldMask (x : Tile) (cyc : Nat) : BitVec 12 :=
  match x.dmaHeld with
  | some (_, k, a) => if k = cyc then wideMask a else 0
  | none => 0

/-- Whether the banks of a request are free of every request of higher priority in its tile cycle (R103). -/
def State.bankFree (s : State) (t cyc prio : Nat) (m : BitVec 12) : Bool :=
  ((s.tile t).busy cyc (fun p => p < prio) ||| s.feedMask t cyc ||| (s.tile t).listMask cyc
    ||| (if prioDma < prio then (s.tile t).heldMask cyc else 0)) &&& m = 0

/-- Whether every access of the exchange unit in a tile cycle is known, so that the DMA port may present one of
its own (log entry 12): the cycle has begun, it has ended where the context's exchange unit may move units (R105),
and the tile's list is read up to it. -/
def State.dmaTurn (s : State) (c : CtxRef) (t cyc : Nat) : Bool :=
  let x := s.tile t
  let r := (s.ctx c).st = .running
  let p := (s.ctx c).run.phase
  let now := (s.cluster (cidOfTile t)).tileCyc
  (if r && p ≠ .compute then cyc < now else cyc ≤ now)
    && !(r && p ≠ .exchange && !x.fenced && x.xch.next.isSome && !x.xch.read && x.xch.readAt.any (fun k => k < cyc))

/-- Whether a request of lower priority holds one of the banks in the tile cycle already: it was given before
its turn. -/
def State.bankTaken (s : State) (t cyc prio : Nat) (m : BitVec 12) : Bool :=
  !((s.tile t).busy cyc (fun p => prio < p) &&& m = 0)

end Sys2Proof.Machine
end

