-- ==== Sys2Proof/Machine/Operands.lean ====
section
/-!
DEFINITION. Tile instructions: their words, the decode checks, the issue slot, register operands and data
accesses (R83 to R99, R101 to R104, R112). -/

namespace Sys2Proof.Machine

/-! ### Words (R87) -/

/-- The word of an instruction, from its class, operation and fields (R87). -/
def encodeWord (cls op : Nat) (f : Fields) : W64 :=
  BitVec.ofNat 64 (at_ 60 cls + at_ 54 op + at_ 49 f.d.toNat + at_ 44 f.a.toNat + at_ 39 f.b.toNat + at_ 32 f.mod.toNat + f.imm.toNat)

/-- Class, operation and fields of a word (R87). -/
def clsOf (w : W64) : Nat := fld w 63 60
def opOf (w : W64) : Nat := fld w 59 54
def fieldsOf (w : W64) : Fields :=
  { d := BitVec.ofNat 5 (fld w 53 49), a := BitVec.ofNat 5 (fld w 48 44), b := BitVec.ofNat 5 (fld w 43 39),
    mod := BitVec.ofNat 7 (fld w 38 32), imm := BitVec.ofNat 32 (fld w 31 0) }

/-! ### Decode checks (R88, and the fields that R92 to R99 mark invalid) -/

/-- Only the bits of a mask are set. -/
def modIn (f : Fields) (m : Nat) : Bool := within f.mod.toNat m
def immIn (f : Fields) (m : Nat) : Bool := within f.imm.toNat m

/-- No MOD bit and no IMM bit is used. -/
def plain (f : Fields) : Bool := modIn f 0 && immIn f 0

/-- A vector register field is at most 15. -/
def vreg (n : BitVec 5) : Bool := n.toNat < 16

/-- The unit field of a wait time is not 0b11 (R94). -/
def tmoOk (f : Fields) : Bool := bits f.mod.toNat 2 1 ≠ 3

/-- A flag of R95: a tile flag with IMM[13:6] = 0, or a global flag of a die of the partition. -/
def flagOk (f : Fields) (dieIn : Nat → Bool) : Bool :=
  if f.mod.getLsbD 0 then dieIn (bits f.imm.toNat 13 12) else bits f.imm.toNat 13 6 = 0

def legal0 (op : Nat) (f : Fields) : Bool :=
  if op ≤ 0x08 || (0x0B ≤ op && op ≤ 0x11) then modIn f 1 && (f.mod.getLsbD 0 || immIn f 0)
  else if op = 0x15 || op = 0x16 then modIn f 0
  else (op ≤ 0x14 || (0x18 ≤ op && op ≤ 0x1B)) && plain f

def legal1 (op : Nat) (f : Fields) : Bool :=
  if op ≤ 0x05 || op = 0x08 || op = 0x09 then modIn f 0 else op = 0x0A && plain f

def legal2 (op : Nat) (f : Fields) : Bool := (op ≤ 0x06 || (0x08 ≤ op && op ≤ 0x0B)) && modIn f 0

def legal3 (op : Nat) (f : Fields) : Bool :=
  if op = 0x00 then modIn f 0 && vreg f.d
  else if op = 0x01 then modIn f 0 && vreg f.b
  else if op ≤ 0x07 then plain f && vreg f.d && vreg f.a && vreg f.b
  else if op = 0x08 then plain f && vreg f.d
  else if op = 0x09 then modIn f 0x7E && immIn f 0 && vreg f.d && vreg f.a && bits f.mod.toNat 3 1 ≠ 7 && bits f.mod.toNat 6 4 ≠ 7
  else if op = 0x0A || op = 0x0B then plain f && vreg f.a
  else op = 0x0C && modIn f 0 && immIn f 7 && vreg f.a

def legal4 (op : Nat) (f : Fields) : Bool :=
  if op = 0x00 then modIn f 7 && immIn f 0x1FFF else op ≤ 0x02 && plain f

def legal5 (op : Nat) (f : Fields) : Bool :=
  if op = 0x00 then modIn f 0x18 && immIn f 0xFFFF
  else if op = 0x01 then modIn f 0x1E && tmoOk f
  else if op = 0x02 then modIn f 0x06 && tmoOk f
  else op = 0x03 && modIn f 0 && immIn f 0xFFFF

def legal6 (op : Nat) (f : Fields) (dieIn : Nat → Bool) : Bool :=
  if op ≤ 0x01 then modIn f 1 && immIn f 0x3FFF && flagOk f dieIn
  else if op ≤ 0x03 then modIn f 7 && immIn f 0xFFFF3FFF && tmoOk f && flagOk f dieIn
  else op = 0x04 && plain f

def legal8 (op : Nat) (f : Fields) : Bool :=
  if op = 0x00 then modIn f 0 && immIn f 0xF else op ≤ 0x02 && modIn f 1 && immIn f 0xF0F

def legalA (op : Nat) (f : Fields) : Bool :=
  if op = 0x00 then modIn f 0 && immIn f 0xFF else op ≤ 0x02 && plain f

/-- Whether a fetched word decodes without ILLEGAL_INSTR. -/
def legalWord (w : W64) (dieIn : Nat → Bool) : Bool :=
  let f := fieldsOf w
  let op := opOf w
  let cls := clsOf w
  if cls = 0 then legal0 op f else if cls = 1 then legal1 op f else if cls = 2 then legal2 op f
  else if cls = 3 then legal3 op f else if cls = 4 then legal4 op f else if cls = 5 then legal5 op f
  else if cls = 6 then legal6 op f dieIn
  else if cls = 7 then op = 0 && modIn f 3 && immIn f 0 && bits f.mod.toNat 1 0 ≠ 3
  else if cls = 8 then legal8 op f
  else if cls = 9 then op = 0 && modIn f 1 && immIn f 0
  else cls = 10 && legalA op f

/-! ### Registers (R84) -/

/-- A scalar register; s0 reads 0. -/
def Thread.sr (h : Thread) (n : BitVec 5) : W64 := if n = 0 then 0 else sget 0 h.s n.toNat

/-- A scalar register written; a write to s0 is discarded. -/
def Thread.setSr (h : Thread) (n : BitVec 5) (v : W64) : Thread := if n = 0 then h else { h with s := sput h.s n.toNat v }

/-- A vector register. -/
def Thread.vr (h : Thread) (n : BitVec 5) : W256 := sget 0 h.v n.toNat

def Thread.setVr (h : Thread) (n : BitVec 5) (v : W256) : Thread := { h with v := sput h.v n.toNat v }

/-- The PC moved to the next word (R87). -/
def Thread.step (h : Thread) : Thread := { h with pc := h.pc + 8 }

def State.modThread (s : State) (t n : Nat) (g : Thread → Thread) : State := s.setThread t n (g (s.thread t n))

/-- IMM sign-extended to 64 bits. -/
def immS (f : Fields) : W64 := f.imm.signExtend 64

/-- sA, and sB or the immediate in the immediate form (R88). -/
def Thread.opA (h : Thread) (f : Fields) : W64 := h.sr f.a
def Thread.opB (h : Thread) (f : Fields) : W64 := h.sr f.b
def Thread.opBI (h : Thread) (f : Fields) : W64 := if f.mod.getLsbD 0 then immS f else h.sr f.b

/-- The wait time of an instruction in ns HT (R94). -/
def tmoNs (f : Fields) : Nat :=
  let u := bits f.mod.toNat 2 1
  let t := max 1 (bits f.imm.toNat 31 16)
  if u = 0 then 100000000 else if u = 1 then 1000 * t else 1000000 * min t 4000

/-! ### The issue slot (R83, R85, R86, R90, R103) -/

/-- Whether a context computes: RUNNING, in a compute phase. -/
def State.computing (s : State) (c : CtxRef) : Bool := (s.ctx c).st = .running && (s.ctx c).run.phase = .compute

/-- The context for which a thread may issue in a tile cycle: its own slot, begun and not yet passed, clocks
running, RUNNABLE by then (R85) and not held. A held DMA access goes before the core requests of its cycle, so it
is decided before an issue whose data access would come later (R103, log entry 12). -/
def State.canIssue (s : State) (r : IssueRef) : Option CtxRef :=
  match s.ctxOfTile r.tid with
  | none => none
  | some c =>
    let x := s.tile r.tid
    let h := x.thread r.thr
    if s.computing c && (s.cluster (cidOfTile r.tid)).clk = .running && !x.fenced
      && h.st = .runnable && h.from_ ≤ r.cyc && r.cyc % 6 = r.thr && x.issueAt ≤ r.cyc
      && r.cyc ≤ (s.cluster (cidOfTile r.tid)).tileCyc && x.dmaHeld.all (fun q => r.cyc + 4 ≤ q.2.1) then some c else none

/-- A slot that has passed. -/
def State.passSlot (s : State) (r : IssueRef) : State :=
  s.setTile r.tid { s.tile r.tid with issueAt := r.cyc + 1 }

/-- Whether a PC can be fetched from: 8-byte aligned and in range (R90, R101). -/
def pcOk (pc : W64) : Bool := pc.toNat % 8 = 0 && pc.toNat ≤ 0x2FFF8

/-- The word at an address. -/
def State.wordAt (s : State) (t a : Nat) : W64 := BitVec.ofNat 64 (leNat (s.sramRead t a 8))

/-- One issue slot of a thread for the instruction (class, op, fields): the fetch and its checks, decode, and
the instruction's own effect. A slot whose word is another instruction is not this command's. The progress
monitor of the core begins anew (R365). -/
def issue (s : State) (r : IssueRef) (cls op : Nat) (f : Fields) (body : State → CtxRef → State) : Res :=
  if !r.ok then .fault .noSuchUnit
  else
    match s.canIssue r with
    | none => .next s
    | some c =>
      let h := s.thread r.tid r.thr
      if h.wait != .none then .next s
      else if !pcOk h.pc then
        .next ((s.passSlot r).trap c r.tid r.thr evSramAccess (h.pc.toNat % 2 ^ 18) 0 0)
      else
        let pc := h.pc.toNat
        match s.checkAccess r.tid r.cyc pc 8 false none with
        | some e => .next ((s.passSlot r).accTrap c r.tid r.thr pc e)
        | none =>
          if !s.bankFree r.tid r.cyc prioFetch (narrowMask pc) then .next ((s.passSlot r).countReplay (dieOfTile r.tid))
          else
            let w := s.wordAt r.tid pc
            let s1 := (s.passSlot r)
            let s1 := s1.setTile r.tid { (s1.tile r.tid).grant r.cyc prioFetch (narrowMask pc) with pmAt := none }
            if !legalWord w (fun d => partOfDie s.layout d = c.part) then .next (s1.trap c r.tid r.thr evIllegalInstr 0 0 0)
            else if w ≠ encodeWord cls op f then .next s
            else .next (body s1 c)

/-! ### Data accesses (R91, R92, R102, R103) -/

/-- Whether `n` bytes at an address are aligned to `n` and in range. -/
def sramOk (a : W64) (n : Nat) : Bool := a.toNat % n = 0 && a.toNat + n ≤ 0x30000

/-- The trap of a misaligned or out-of-range data access. -/
def State.sramTrap (s : State) (r : IssueRef) (c : CtxRef) (a : W64) (unit : Nat) : State :=
  s.trap c r.tid r.thr evSramAccess (a.toNat % 2 ^ 18) unit 0

/-- A thread held in its instruction, before access `k` (R98, R103, R131, R184, R210, R214). -/
def State.hold (s : State) (r : IssueRef) (op : DataOp) (f : Fields) (k : Nat) (got : List Byte) : State :=
  s.modThread r.tid r.thr (fun h => { h with wait := .replay op f k got })

/-- The memory stage of access `k` of an instruction, four tile cycles after its issue slot: its checks, then
the grant, or the replay of a refused one (R103). A write into a group without power is discarded, and raises
BANK_OFF (R202). -/
def State.dataStage (s : State) (r : IssueRef) (c : CtxRef) (op : DataOp) (f : Fields) (k : Nat) (got : List Byte) (wide wr : Bool) (a n : Nat)
    (go : State → State) : State :=
  match s.checkAccess r.tid (r.cyc + 4) a n wr none with
  | some e =>
    if wr && e = .off then
      let t := go (s.modThread r.tid r.thr (fun h => { h with wait := .none }))
      (t.setTile r.tid { t.tile r.tid with sram := (s.tile r.tid).sram }).bankOff c r.tid a 0
    else s.accTrap c r.tid r.thr a e
  | none =>
    let m := if wide then wideMask a else narrowMask a
    let p := if wide then prioWide else prioNarrow
    if s.bankFree r.tid (r.cyc + 4) p m then
      go ((s.setTile r.tid ((s.tile r.tid).grant (r.cyc + 4) p m)).modThread r.tid r.thr (fun h => { h with wait := .none }))
    else (s.countReplay (dieOfTile r.tid)).hold r op f k got

/-- A wide read of 32 bytes as access `k`; a read out of range traps before it (R184). `go` has the bytes of
all reads so far. -/
def State.readStage (s : State) (r : IssueRef) (c : CtxRef) (op : DataOp) (f : Fields) (k : Nat) (got : List Byte) (a unit : Nat)
    (go : State → List Byte → State) : State :=
  if 0x30000 < a + 32 then s.trap c r.tid r.thr evSramAccess (a % 2 ^ 18) unit 0
  else s.dataStage r c op f k got true false a 32 (fun s => go s (got ++ s.sramRead r.tid a 32))

/-- The words of a list of bytes. -/
def bytesWords (bs : List Byte) : List W64 := (List.range (bs.length / 8)).map (fun i => BitVec.ofNat 64 (leNat ((bs.drop (8 * i)).take 8)))

/-- sA + IMM (R91, R92). -/
def Thread.ea (h : Thread) (f : Fields) : W64 := h.sr f.a + immS f

end Sys2Proof.Machine
end

