-- ==== Sys2Proof/Machine/Queue.lean ====
section
/-!
DEFINITION. Decoupling queues (R106 to R111).
-/

namespace Sys2Proof.Machine

def Tile.queue (x : Tile) (q : Nat) : Queue := sget {} x.queues q
def Tile.setQueue (x : Tile) (q : Nat) (y : Queue) : Tile := { x with queues := sput x.queues q y }

/-- Whether a queue holds stores: SQ0 and SQ1 are 6 and 7 (R93). -/
def isStoreQ (q : Nat) : Bool := 6 ≤ q

/-- The conditions of a valid request (R107). -/
def reqOk (sram va : W64) (len : Nat) : Bool :=
  8 ≤ len && len ≤ 4096 && len % 8 = 0 && sram.toNat % 8 = 0 && sram.toNat + len ≤ 0x30000
    && va.toNat % 8 = 0 && fld va 63 48 = 0

/-- A token (R110). -/
def token (q : Nat) (seq : BitVec 8) : W64 := BitVec.ofNat 64 (seq.toNat + at_ 8 q + at_ 11 1)

/-- What QGET and QWAIT find for a token (R110). -/
inductive TokSt where
  | misuse | complete | pending | suspended
deriving DecidableEq, Repr

/-- Whether a transfer is stopped on a page fault. -/
def Stop.faulted : Stop → Bool
  | .run => false
  | .waiting _ _ => true
  | .record _ => true
  | .dead => false

def Tile.tokSt (x : Tile) (tok : W64) : TokSt :=
  if fld tok 63 12 ≠ 0 then .misuse
  else if !tok.getLsbD 11 then .complete
  else
    let q := x.queue (fld tok 10 8)
    let seq : BitVec 8 := BitVec.ofNat 8 (fld tok 7 0)
    if !(seq - q.issue).msb then .misuse
    else if (seq - q.done).msb then .complete
    else if q.reqs.any (fun r => r.seq = seq && r.stop.faulted) then .suspended
    else .pending

/-- QPUT (R93, R107, R110, R111). -/
def execQput (r : IssueRef) (f : Fields) (s : State) : Res :=
  issue s r 0x4 0x00 f (fun s c =>
    let h := s.thread r.tid r.thr
    let q := bits f.mod.toNat 2 0
    let len := bits f.imm.toNat 12 0
    let x := s.tile r.tid
    let y := x.queue q
    if !reqOk (h.opA f) (h.opB f) len || 16 ≤ y.reqs.length then
      s.trap c r.tid r.thr evQueueMisuse ((h.opA f).toNat % 2 ^ 18) q 0
    else
      let z : Req := { seq := y.issue, thr := r.thr, sram := (h.opA f).toNat, va := (h.opB f).toNat, len := len, born := s.now }
      (s.setTile r.tid (x.setQueue q { y with issue := y.issue + 1, reqs := y.reqs ++ [z] })).modThread r.tid r.thr
        (fun h => (h.setSr f.d (token q y.issue)).step))

/-- QGET (R93, R110): 0 pending, 1 complete, 2 suspended. -/
def execQget (r : IssueRef) (f : Fields) (s : State) : Res :=
  issue s r 0x4 0x01 f (fun s c =>
    let tok := (s.thread r.tid r.thr).opA f
    let put (v : W64) : State := s.modThread r.tid r.thr (fun h => (h.setSr f.d v).step)
    match (s.tile r.tid).tokSt tok with
    | .misuse => s.trap c r.tid r.thr evQueueMisuse 0 (fld tok 10 8) 0
    | .pending => put 0
    | .complete => put 1
    | .suspended => put 2)

/-- QWAIT (R93, R110): blocks until the request is complete. -/
def execQwait (r : IssueRef) (f : Fields) (s : State) : Res :=
  issue s r 0x4 0x02 f (fun s c =>
    let tok := (s.thread r.tid r.thr).opA f
    let block : State := s.modThread r.tid r.thr (fun h => { h with st := .blocked, wait := .queue tok })
    match (s.tile r.tid).tokSt tok with
    | .misuse => s.trap c r.tid r.thr evQueueMisuse 0 (fld tok 10 8) 0
    | .complete => s.modThread r.tid r.thr Thread.step
    | .pending => block
    | .suspended => block)

/-- Whether every store-queue request of a thread is complete (R226). -/
def Tile.storesDone (x : Tile) (n : Nat) : Bool := [6, 7].all (fun q => (x.queue q).reqs.all (fun r => r.thr ≠ n))

/-- A thread whose wait ends in a tile cycle: RUNNABLE at the next instruction from the next cycle on (R85). -/
def Thread.wake (h : Thread) (cyc : Nat) : Thread := { h with st := .runnable, wait := .none, from_ := cyc + 1 }.step

/-- A thread of a tile after a request has completed in a tile cycle: a QWAIT whose token is complete and a
FENCE that holds no more are released. -/
def Tile.afterQueue (cyc : Nat) (x : Tile) (n : Nat) : Tile :=
  let h := x.thread n
  match h.wait with
  | .queue tok => if x.tokSt tok = .complete then { x with thr := sput x.thr n (h.wake cyc) } else x
  | .fence => if x.storesDone n then { x with thr := sput x.thr n (h.wake cyc) } else x
  | .none => x
  | .replay _ _ _ _ => x
  | .slot _ _ _ _ _ => x
  | .recv _ _ _ _ _ _ => x
  | .send _ _ _ _ _ _ _ => x
  | .flag _ _ _ => x
  | .sync => x

/-- QUEUE_REQUEST_COMPLETE (R108, R110, R111): the oldest request of a queue has moved its last byte; its
entry is freed. A request of a run before the last START does not count. Threads of a context that does not
run stay as they stand (R362). -/
def execQueueRequestComplete (tid q : Nat) (s : State) : Res :=
  if !(tidOk tid && q < 8) then .fault .noSuchUnit
  else
    let x := s.tile tid
    let y := x.queue q
    match y.reqs with
    | [] => .next s
    | z :: zs =>
      if z.moved = z.len && z.stop = .run && !s.asleep then
        let x := x.setQueue q { y with done := if z.seq = y.done then y.done + 1 else y.done, reqs := zs }
        let x := if ((s.ctxOfTile tid).map (fun c => (s.ctx c).st)) = some .running
          then (List.range 6).foldl (Tile.afterQueue (s.cluster (cidOfTile tid)).tileCyc) x else x
        .next (s.setTile tid x)
      else .next s

end Sys2Proof.Machine
end

