-- ==== Sys2Proof/Machine/Stream.lean ====
section
/-!
DEFINITION. Streams, DMA and page faults (R181 to R199, R206, R207).
-/

namespace Sys2Proof.Machine

/-! ### Block entries and handles (R185, R186, R188) -/

/-- Bytes of an element. -/
def BlkEnt.es (b : BlkEnt) : Nat := 2 ^ b.esize

/-- COUNT and REP of a scale-table entry (R188). -/
def BlkEnt.scCount (b : BlkEnt) : Nat := bits b.base 22 14 + 1
def BlkEnt.scRep (b : BlkEnt) : Nat := bits b.base 26 23 + 1

/-- Bytes of a block. -/
def BlkEnt.bytes (b : BlkEnt) : Nat :=
  if b.src = 1 then b.scCount * b.scRep else b.cols * b.rows * b.planes * b.es

/-- Blocks of one pass, and of the stream (R186). -/
def Handle.perPass (h : Handle) : Nat := (h.ents.map BlkEnt.rep).sum
def Handle.total (h : Handle) : Nat := h.loops * h.perPass

/-- The entry and the repeat of the k-th block of a pass. -/
def blkAt : List BlkEnt → Nat → Option (BlkEnt × Nat)
  | [], _ => none
  | b :: bs, k => if k < b.rep then some (b, k) else blkAt bs (k - b.rep)

/-- The entry and the repeat of block n. -/
def Handle.blkOf (h : Handle) (n : Nat) : Option (BlkEnt × Nat) :=
  if h.perPass = 0 then none else blkAt h.ents (n % h.perPass)

/-- The VA of the byte at a slot offset of a block (R186), in 48 bits. -/
def BlkEnt.va (b : BlkEnt) (rep o : Nat) : Nat :=
  let e := o / b.es
  let tr : Bool := b.xmode = 1 || b.xmode = 3
  let c := if tr then e / b.rows % b.cols else e % b.cols
  let r := if tr then e % b.rows else e / b.cols % b.rows
  let p := e / (b.cols * b.rows)
  let v : Int :=
    (b.base : Int) + (rep : Int) * b.repStride + (p * b.planeStride +
      (if b.xmode < 2 then r * b.rowStride + c * b.es
       else r / 16 * b.rowStride + (c / 16 * 256 + r % 16 * 16 + c % 16) * b.es) + o % b.es : Nat)
  (v % 2 ^ 48).toNat

/-- A scale-table entry as a read in a tile cycle sees it: an update of its Clover cycle is not seen (R164,
R188). -/
def Cluster.scaleAt (x : Cluster) (i cyc : Nat) : W32 :=
  match x.scaleOld.find? (fun e => e.2.1 = i && x.cloverAt cyc ≤ e.1) with
  | some e => e.2.2
  | none => sget 0 x.scale i

/-- The byte of the scale table at a slot offset of a block, read in a tile cycle (R188). -/
def State.scaleByte (s : State) (b : BlkEnt) (cyc o : Nat) : Byte :=
  let x := bits ((s.cluster (bits b.base 4 0)).scaleAt (bits b.base 13 5 + o / b.scRep) cyc).toNat 7 0
  if x = 128 then 0 else BitVec.ofNat 8 (x + 127)

/-- The slot that block n uses. -/
def Handle.slotOf (h : Handle) (n : Nat) : Nat := if h.slots.length = 0 then 0 else n % h.slots.length

def Handle.slotSt (h : Handle) (k : Nat) : SlotSt := h.slots.getD k .empty
def Handle.setSlot (h : Handle) (k : Nat) (x : SlotSt) : Handle := { h with slots := h.slots.set k x }

/-- An OPEN handle of a tile. -/
def Tile.handle (x : Tile) (h : Nat) : Option Handle := (x.handles.find? (fun e => e.1 = h)).map Prod.snd
def Tile.setHandle (x : Tile) (h : Nat) (y : Handle) : Tile := { x with handles := sput x.handles h y }

/-! ### Waiting threads (R191) -/

/-- Whether a remaining block of a stream will fill a slot: of an inbound stream by the DMA, of an outbound
one by the producer. -/
def Handle.willFill (h : Handle) (k : Nat) : Bool :=
  let n := if h.outbound then h.released else h.blk
  let ns := h.slots.length
  let d := if ns = 0 then 0 else (k + ns - n % ns) % ns
  ns ≠ 0 && n + d < h.total

/-- What an SWAIT finds. -/
inductive SwaitSt where
  | ready | block | misuse
deriving DecidableEq, Repr

def Tile.swaitSt (x : Tile) (h k : Nat) (full : Bool) : SwaitSt :=
  match x.handle h with
  | none => if full then .misuse else .ready
  | some y =>
    if y.slots.length ≤ k then .misuse
    else if full then (if y.slotSt k = .full then .ready else if y.willFill k then .block else .misuse)
    else if y.slotSt k = .empty then .ready else .block

/-- One thread after a change of slots: released, trapped, or still waiting. -/
def State.afterSlot (s : State) (c : CtxRef) (t n : Nat) : State :=
  match (s.thread t n).wait with
  | .slot h k full _ _ =>
    match (s.tile t).swaitSt h k full with
    | .ready => s.modThread t n (fun y => y.wake (s.cluster (cidOfTile t)).tileCyc)
    | .block => s
    | .misuse => s.trap c t n evStrMisuse 0 h k
  | .none => s
  | .replay _ _ _ _ => s
  | .queue _ => s
  | .recv _ _ _ _ _ _ => s
  | .send _ _ _ _ _ _ _ => s
  | .flag _ _ _ => s
  | .fence => s
  | .sync => s

/-- The threads of a tile after a change of slots, while their context runs. -/
def State.afterSlots (s : State) (t : Nat) : State :=
  match s.ctxOfTile t with
  | none => s
  | some c => forAll (List.range 6) (fun s n => if (s.ctx c).st = .running then s.afterSlot c t n else s) s

/-! ### SOPEN (R184, R185) -/

/-- A block entry read from its four words. -/
def readEnt (w : List W64) : BlkEnt :=
  let f (i hi lo : Nat) := bits (w.getD i 0).toNat hi lo
  { base := f 0 47 0, src := f 0 49 48, xmode := f 0 51 50, esize := f 0 53 52, cols := f 1 15 0 + 1, rows := f 1 31 16 + 1,
    planes := f 1 47 32 + 1, rowStride := f 2 31 0, planeStride := f 2 63 32, rep := f 3 15 0 + 1, repStride := signed (f 3 63 16) 48 }

/-- Whether a block entry's fields and reserved bits are valid for a context and a direction (R185, R186, R188). -/
def entOk (w : List W64) (outbound : Bool) (cids : List Nat) : Bool :=
  let b := readEnt w
  let w0 := (w.getD 0 0).toNat
  if b.src = 0 then
    b.esize ≠ 3 && bits w0 63 54 = 0 && bits (w.getD 1 0).toNat 63 48 = 0
      && (b.xmode < 2 || (b.cols % 16 = 0 && b.rows % 16 = 0))
  else b.src = 1 && !outbound && bits w0 47 27 = 0 && bits w0 63 50 = 0 && (w.drop 1).all (fun v => v = 0)
    && cids.contains (bits w0 4 0) && bits w0 13 5 + b.scCount ≤ 512

/-- Every OPEN handle of a die with its tile and number. -/
def State.handlesOn (s : State) (d : Nat) : List (Nat × Nat × Handle) :=
  (s.tiles.filter (fun t => dieOfTile t.1 = d)).flatMap (fun t => t.2.handles.map (fun h => (t.1, h.1, h.2)))

def State.chk (s : State) (d u : Nat) : Chk := sget {} (s.die d).str.chk u
def State.setChk (s : State) (d u : Nat) (x : Chk) : State :=
  let y := s.die d
  s.setDie d { y with str := { y.str with chk := sput y.str.chk u x } }
def State.link (s : State) (d l : Nat) : Link := sget {} (s.die d).str.links l
def State.setLink (s : State) (d l : Nat) (x : Link) : State :=
  let y := s.die d
  s.setDie d { y with str := { y.str with links := sput y.str.links l x } }

/-- Whether a check unit serves an OPEN stream (R206). -/
def State.chkBusy (s : State) (d u : Nat) : Bool := (s.handlesOn d).any (fun h => h.2.2.chk = some u)

/-- A handle read from a descriptor, if the descriptor is valid (R184, R185, R195, R206). -/
def State.readDesc (s : State) (t : Nat) (c : CtxRef) (w : List W64) : Option Handle :=
  let w0 := (w.getD 0 0).toNat
  let w1 := (w.getD 1 0).toNat
  let d := dieOfTile t
  let nent := bits w0 8 5 + 1
  let out := bit w0 0
  let ents := (List.range nent).map (fun i => (w.drop (8 + 4 * i)).take 4)
  let y : Handle :=
    { outbound := out, slots := List.replicate (bits w0 4 1 + 1) .empty, ents := ents.map readEnt,
      chk := if bit w0 9 then some (bits w0 15 10) else none, link := if bit w0 16 then some (bits w0 31 24) else none,
      lateNs := bits w0 63 32, base := bits w1 17 0, size := bits w1 35 18, loops := bits w1 51 36 + 1 }
  let cids := (s.ctx c).cids
  let fieldsOk : Bool := bits w0 4 1 ≠ 0 && bits w0 23 17 = 0 && bits w1 63 52 = 0 && ((w.drop 2).take 6).all (fun v => v = 0)
    && y.base % 32 = 0 && y.size % 32 = 0 && y.size ≠ 0 && ents.all (fun e => entOk e out cids)
  let sizeOk : Bool := y.ents.all (fun b => b.bytes ≤ y.size) && y.base + y.slots.length * y.size ≤ 0x30000 && y.total < 2 ^ 32
  let apart : Bool := (s.tile t).handles.all (fun h => !overlaps y.base (y.slots.length * y.size) h.2.base (h.2.slots.length * h.2.size))
  let chkOk : Bool :=
    match y.chk with
    | none => true
    | some u => bit (s.chk d u).ctl.toNat 0 && bits (s.chk d u).ctl.toNat 5 3 = c.slot && !s.chkBusy d u
  let linkOk : Bool :=
    match y.link with
    | none => true
    | some l => bit (s.link d l).cfg.toNat 8 && bits (s.link d l).cfg.toNat 11 9 = c.slot
        && !(s.handlesOn d).any (fun h => h.2.2.link = some l && h.2.2.outbound = out)
  if fieldsOk && sizeOk && apart && chkOk && linkOk then some y else none

/-- Access `k` of SOPEN (R184): the two of the header, then one for each block entry; after the last one the
whole descriptor is validated. -/
def State.stageSopen (s : State) (r : IssueRef) (c : CtxRef) (f : Fields) (k : Nat) (got : List Byte) : State :=
  let a := (s.thread r.tid r.thr).opA f
  let h := bits f.imm.toNat 3 0
  if a.toNat % 32 ≠ 0 || 0x30000 < a.toNat + 64 then s.sramTrap r c a h
  else s.readStage r c .sopen f k got (a.toNat + 32 * k) h (fun s got =>
    let w := bytesWords got
    if k < fld (w.getD 0 0) 8 5 + 2 then s.hold r .sopen f (k + 1) got
    else
      match (s.tile r.tid).handle h, s.readDesc r.tid c w with
      | none, some y => (s.setTile r.tid ((s.tile r.tid).turnHandle (r.cyc + 4) h (some y))).modThread r.tid r.thr Thread.step
      | _, _ => s.trap c r.tid r.thr evStrMisuse 0 h 0)

/-- SOPEN (R97, R184). -/
def execSopen (r : IssueRef) (f : Fields) (s : State) : Res :=
  issue s r 0x8 0x00 f (fun s c => s.stageSopen r c f 0 [])

/-- SWAIT (R97, R191). -/
def execSwait (r : IssueRef) (f : Fields) (s : State) : Res :=
  issue s r 0x8 0x01 f (fun s c =>
    let h := bits f.imm.toNat 3 0
    let k := bits f.imm.toNat 11 8
    let full := !f.mod.getLsbD 0
    match (s.tile r.tid).swaitSt h k full with
    | .ready => s.modThread r.tid r.thr Thread.step
    | .block => s.modThread r.tid r.thr (fun y => { y with st := .blocked, wait := .slot h k full s.now false })
    | .misuse => s.trap c r.tid r.thr evStrMisuse 0 h k)

/-- The block of an inbound stream that a consumer releases next, if it is FULL. -/
def Handle.canConsume (y : Handle) (k : Nat) : Bool :=
  !y.outbound && y.released < y.total && k = y.slotOf y.released && y.slotSt k = .full

/-- Whether a producer may release a slot (R191). -/
def Handle.canProduce (y : Handle) (k : Nat) : Bool :=
  y.outbound && y.released < y.total && k = y.slotOf y.released && y.slotSt k = .empty

/-- SRELEASE (R97, R189, R191, R192, R195). -/
def execSrelease (r : IssueRef) (f : Fields) (s : State) : Res :=
  issue s r 0x8 0x02 f (fun s c =>
    let h := bits f.imm.toNat 3 0
    let k := bits f.imm.toNat 11 8
    let x := s.tile r.tid
    let d := dieOfTile r.tid
    match x.handle h with
    | none => s.trap c r.tid r.thr evStrMisuse 0 h k
    | some y =>
      if f.mod.getLsbD 0 then
        if y.canProduce k then
          ((s.setTile r.tid (x.turnHandle r.cyc h (some { y.setSlot k .full with released := y.released + 1 }))).modThread r.tid r.thr Thread.step).afterSlots r.tid
        else s.trap c r.tid r.thr evStrMisuse 0 h k
      else if y.canConsume k then
        let z := { y.setSlot k .empty with released := y.released + 1 }
        let s := s.setTile r.tid (x.turnHandle r.cyc h (if z.released = z.total then none else some z))
        let s := match y.link with
          | none => s
          | some l => s.setLink d l { s.link d l with ccount := (s.link d l).ccount + 1 }
        (s.modThread r.tid r.thr Thread.step).afterSlots r.tid
      else s.trap c r.tid r.thr evStrMisuse 0 h k)

/-- LATE_CONSUMER (R194): an SWAIT for FULL still blocked at LATE_NS + 1 ns records its cause once. -/
def execLateConsumer (tid thr : Nat) (s : State) : Res :=
  if !(tidOk tid && thrOk thr) then .fault .noSuchUnit
  else
    match s.ctxOfTile tid, (s.thread tid thr).wait with
    | some c, .slot h k true since false =>
      match (s.tile tid).handle h with
      | none => .next s
      | some y =>
        if (s.ctx c).st = .running && y.lateNs ≠ 0 && since + y.lateNs < s.now then
          let s := s.modThread tid thr (fun t => { t with wait := .slot h k true since true })
          let d := dieOfTile tid
          let x := s.ctx c
          if x.strict && (s.ss d c.slot).missAct then .next (s.instantMiss c causeLateConsumer (fun _ => 0) [d])
          else .next (s.setCtx c { x with run := { x.run with late := putBit x.run.late d true } })
        else .next s
    | _, _ => .next s

/-! ### Page faults (R197 to R199) -/

/-- A transfer's stop state changed: a queue's oldest request, or the block of a handle. Units 0 to 7 are
queues, 8 to 23 handles. -/
def State.setStop (s : State) (t u : Nat) (st : Stop) : State :=
  let x := s.tile t
  if u < 8 then
    match (x.queue u).reqs with
    | [] => s
    | z :: zs => s.setTile t (x.setQueue u { x.queue u with reqs := { z with stop := st } :: zs })
  else
    match x.handle (u - 8) with
    | none => s
    | some y => s.setTile t (x.setHandle (u - 8) { y with stop := st })

/-- The stop state of a transfer. -/
def State.stopOf (s : State) (t u : Nat) : Stop :=
  if u < 8 then ((((s.tile t).queue u).reqs.head?).map Req.stop).getD .run
  else ((((s.tile t).handle (u - 8))).map Handle.stop).getD .run

/-- KIND, UNIT, SEQ, BLOCK and INNER of a transfer's record (R199). -/
def State.recOf (s : State) (t u : Nat) : Nat × Nat × Nat × Nat × Nat :=
  if u < 8 then
    match ((s.tile t).queue u).reqs with
    | [] => (0, u, 0, 0, 0)
    | z :: _ => (b1 (isStoreQ u), u, z.seq.toNat, 0, z.moved)
  else
    match (s.tile t).handle (u - 8) with
    | none => (2, u - 8, 0, 0, 0)
    | some y => (2 + b1 y.outbound, u - 8, 0, y.blk, y.inner)

def State.frec (s : State) (d f : Nat) : FaultRec := sget {} (s.die d).str.frec f
def State.setFrec (s : State) (d f : Nat) (x : FaultRec) : State :=
  let y := s.die d
  s.setDie d { y with str := { y.str with frec := sput y.str.frec f x } }

/-- The lowest free fault record of a die. -/
def State.freeRec (s : State) (d : Nat) : Option Nat := (List.range 32).find? (fun f => !(s.frec d f).fva.getLsbD 63)

/-- A stopped transfer takes a fault record, or waits for one (R198). -/
def State.takeRec (s : State) (c : CtxRef) (t u va cause : Nat) : State :=
  let d := dieOfTile t
  match s.freeRec d with
  | none =>
    let s := s.setStop t u (.waiting va cause)
    s.setDie d { s.die d with str := { (s.die d).str with waitq := (s.die d).str.waitq ++ [(t, u)] } }
  | some f =>
    let (kind, unit, seq, blk, inner) := s.recOf t u
    let s := s.setStop t u (.record f)
    let s := s.setFrec d f
      { fva := BitVec.ofNat 64 (va % 2 ^ 48 + at_ 48 cause + at_ 52 kind + at_ 63 1),
        fsrc := BitVec.ofNat 64 ((s.cxh c).toNat + at_ 16 t + at_ 32 unit + at_ 36 seq),
        fcur := BitVec.ofNat 64 (blk % 2 ^ 32 + at_ 32 inner) }
    s.raise d evMmuFault { s.infoCtx c (BitVec.ofNat 64 f) with tid := BitVec.ofNat 13 t }

/-- Whether an entry of the wait queue still stands for a stopped transfer. -/
def State.stillWaits (s : State) (q : Nat × Nat) : Bool :=
  match s.stopOf q.1 q.2, s.ctxOfTile q.1 with
  | .waiting _ _, some _ => true
  | _, _ => false

/-- The oldest transfer that waits for a record takes the one that has freed (R198). -/
def State.serveWait (s : State) (d : Nat) : State :=
  match (s.die d).str.waitq.filter s.stillWaits with
  | [] => s
  | (t, u) :: rest =>
    let s := s.setDie d { s.die d with str := { (s.die d).str with waitq := rest } }
    match s.stopOf t u, s.ctxOfTile t with
    | .waiting va cause, some c => s.takeRec c t u va cause
    | _, _ => s

/-- The transfer that holds a fault record. -/
def State.recHolder (s : State) (d f : Nat) : Option (Nat × Nat) :=
  (s.tiles.flatMap (fun t => if dieOfTile t.1 = d then
      (List.range 24).filterMap (fun u => if s.stopOf t.1 u = .record f then some (t.1, u) else none) else [])).head?

/-- Whether a write to a fault record's MMU_FRES takes place: the function sees the die and V = 1 (R49, R199). -/
def State.fresOk (s : State) (pf d f : Nat) : Bool := s.sees pf d && (s.frec d f).fva.getLsbD 63 && !s.asleep

/-- V of a fault record cleared, and the record given to a transfer that waits. -/
def State.freeFrec (s : State) (d f : Nat) : State :=
  (s.setFrec d f { s.frec d f with fva := putBit (s.frec d f).fva 63 false }).serveWait d

/-- RESUME (R199). -/
def State.fresResume (s : State) (d f : Nat) : State :=
  (match s.recHolder d f with
    | some (t, u) => s.setStop t u .run
    | none => s).freeFrec d f

/-- ABORT (R199): the context faults. -/
def State.fresAbort (s : State) (d f : Nat) : State :=
  let s1 := (match s.recHolder d f with
    | some (t, u) => s.setStop t u .dead
    | none => s).freeFrec d f
  match s.recHolder d f with
  | some (t, _) =>
    match s.ctxOfTile t with
    | some c => s1.faultEvent c evMmuFault
    | none => s1
  | none => s1

/-- MMU_INVAL written (R181): discarded while BUSY. -/
def State.mmuInval (s : State) (d : Nat) (v : W32) : State :=
  let x := s.die d
  if x.str.inval.isNone then s.setDie d { x with str := { x.str with inval := some v } } else s

/-- MMU_FAULT_RESUME (R199): RESUME = 1 and ABORT = 0 let the transfer go on from its cursor. -/
def execMmuFaultResume (pf die rec : Nat) (v : W32) (s : State) : Res :=
  if !(pfOk pf && dieOk die && rec < 32) then .fault .noSuchUnit
  else when_ (s.fresOk pf die rec && v.getLsbD 0 && !v.getLsbD 1) s (s.fresResume die rec)

/-- MMU_FAULT_ABORT (R199): ABORT = 1 faults the context with SRC = MMU_FAULT. -/
def execMmuFaultAbort (pf die rec : Nat) (v : W32) (s : State) : Res :=
  if !(pfOk pf && dieOk die && rec < 32) then .fault .noSuchUnit
  else when_ (s.fresOk pf die rec && v.getLsbD 1) s (s.fresAbort die rec)

/-- MMU_INVAL (R181): a write while BUSY is discarded. -/
def execMmuInval (pf die : Nat) (v : W32) (s : State) : Res :=
  if !(pfOk pf && dieOk die) then .fault .noSuchUnit else when_ (s.sees pf die && !s.asleep) s (s.mmuInval die v)

/-- MMU_INVAL_COMPLETE (R181): the translations named are dropped and BUSY clears. -/
def execMmuInvalComplete (die : Nat) (s : State) : Res :=
  if !dieOk die then .fault .noSuchUnit
  else
    let x := s.die die
    awake s <| match x.str.inval with
    | none => .next s
    | some v =>
      let keep := fun (e : TlbEnt) => !(v.getLsbD 3 || e.slot = bits v.toNat 2 0)
      .next (s.setDie die { x with str := { x.str with inval := none, tlb := x.str.tlb.filter keep } })

/-! ### Check units (R206, R207) -/

/-- One byte folded into a CRC-64 (R206). -/
def crc64Bit : Nat → W64 → W64
  | 0, a => a
  | n + 1, a => crc64Bit n (if a.msb then (a <<< 1) ^^^ 0x42F0E1EBA9EA3693 else a <<< 1)

def crc64Byte (a : W64) (b : Byte) : W64 := crc64Bit 8 (a ^^^ (b.zeroExtend 64 <<< 56))

/-- The fold of R206 over bytes. -/
def crc64 (a : W64) (bs : List Byte) : W64 := bs.foldl crc64Byte a

/-- Bytes moved by a stream folded into its check unit. -/
def State.fold (s : State) (d : Nat) (u : Option Nat) (bs : List Byte) : State :=
  match u with
  | none => s
  | some u => let x := s.chk d u; s.setChk d u { x with acc := crc64 x.acc bs, bytes := satAdd x.bytes bs.length }

/-- The compare at the end of the stream of handle `h` of a tile (R207): a mismatch names the CXH, the unit,
the tile and the handle. -/
def State.chkEnd (s : State) (c : CtxRef) (t h : Nat) (u : Option Nat) : State :=
  match u with
  | none => s
  | some u =>
    let d := dieOfTile t
    let x := s.chk d u
    if bit x.ctl.toNat 1 && x.acc ≠ x.exp then
      let s := (s.setChk d u { x with stat := x.stat ||| 2 }).hwSet (bar0Bit d (0x50000 + 0x20 * u) 33)
      let s := s.raise d evChkMismatch { s.infoCtx c 0 with tid := BitVec.ofNat 13 t, names := [u, h] }
      if bit x.ctl.toNat 2 then s.faultEvent c evChkMismatch else s
    else s

/-! ### Moving units (R109, R186, R189, R190, R202) -/

/-- One unit of a transfer: its direction, SRAM address, VAs (none for a scale-table block), bytes from the
scale table, and the handle whose stream it is. -/
structure Unit32 where
  toSram : Bool
  a      : Nat
  vas    : List Nat
  table  : List Byte
  own    : Option Nat

/-- The next unit of a transfer that is under way, as a presentation in a tile cycle finds it (R106, R186). -/
def State.nextUnit (s : State) (t u cyc : Nat) : Option Unit32 :=
  if u < 8 then
    match ((s.tile t).queue u).reqs with
    | [] => none
    | z :: _ =>
      if z.stop = .run && z.moved < z.len then
        let a := z.sram + z.moved
        let n := min (z.len - z.moved) (32 - a % 32)
        some { toSram := !isStoreQ u, a := a, vas := vaList (z.va + z.moved) n, table := [], own := none }
      else none
  else
    match (s.tile t).handle (u - 8) with
    | none => none
    | some y =>
      match y.blkOf y.blk with
      | none => none
      | some (b, rep) =>
        if y.active && y.stop = .run && y.inner < b.bytes then
          let n := min 32 (b.bytes - y.inner)
          let os := (List.range n).map (fun i => y.inner + i)
          some { toSram := !y.outbound, a := y.base + y.slotOf y.blk * y.size + y.inner,
                 vas := if b.src = 1 then [] else os.map (b.va rep), table := if b.src = 1 then os.map (s.scaleByte b cyc) else [],
                 own := some (u - 8) }
        else none

/-- A transfer moves on by a unit in a tile cycle: its cursor, and the slot's state at the block's first unit. -/
def State.advance (s : State) (t u cyc n : Nat) : State :=
  let x := s.tile t
  if u < 8 then
    match (x.queue u).reqs with
    | [] => s
    | z :: zs => s.setTile t (x.setQueue u { x.queue u with reqs := { z with moved := z.moved + n } :: zs })
  else
    match x.handle (u - 8) with
    | none => s
    | some y =>
      if y.inner = 0 then
        s.setTile t (x.turnHandle cyc (u - 8)
          (some { y.setSlot (y.slotOf y.blk) (if y.outbound then .draining else .filling) with inner := n }))
      else s.setTile t (x.setHandle (u - 8) { y with inner := y.inner + n })

/-- Whether a transfer has just moved the last byte of a stream's last block, and the stream's check unit. -/
def State.streamEnd (s : State) (t u : Nat) : Option Nat :=
  if u < 8 then none
  else
    match (s.tile t).handle (u - 8) with
    | none => none
    | some y =>
      match y.blkOf y.blk with
      | none => none
      | some (b, _) => if y.blk + 1 = y.total && y.inner = b.bytes then y.chk else none

/-- The check unit of a transfer. -/
def State.chkOf (s : State) (t u : Nat) : Option Nat :=
  if u < 8 then none else (((s.tile t).handle (u - 8)).map Handle.chk).getD none

/-- The queue or the handle of a transfer. -/
def unitNo (u : Nat) : Nat := if u < 8 then u else u - 8

/-- A transfer stops for good and its context faults: the event names the CXH, the tile and what `detail` and
`names` hold. -/
def State.killUnit (s : State) (c : CtxRef) (t u ev : Nat) (detail : W64) (names : List Nat) : State :=
  ((s.setStop t u .dead).raise (dieOfTile t) ev { s.infoCtx c detail with tid := BitVec.ofNat 13 t, names := names }).faultEvent c ev

/-- The event of a DMA access that a check refuses (R141, R190, R202): it names the SRAM address, the slot
that it hit, and the transfer, 0 to 7 a queue and 8 to 23 a handle. -/
def State.killAcc (s : State) (c : CtxRef) (t u a : Nat) (e : AccErr) : State :=
  (s.noteErr t 0 a true e).killUnit c t u e.event
    (match e with
      | .slot h k _ => trapDetail 0 a h k
      | .region _ _ => trapDetail 0 a (unitNo u) 0
      | .off => trapDetail 0 a (unitNo u) 0)
    (e.names ++ [u])

/-- The PA that a byte of HBM has in the translation of a VA on a die (R180): by the tables, else by the
cached leaf, else by its stack. -/
def State.paOfByte (s : State) (d : Nat) (c : CtxRef) (va key : Nat) : Nat :=
  let walked := match s.walk d c va with
    | .ok (leaf, big) => [leafPa leaf big va]
    | .error _ => []
  let held := match s.cached d c.slot va with
    | some e => [leafPa e.leaf e.big va]
    | none => []
  ((walked ++ held).find? (fun pa => paPlace s.layout c.part pa == .ok key)).getD key

/-- The event of an uncorrectable HBM read error (R183): it names the CXH, the stack and the PA. -/
def State.hbmError (s : State) (c : CtxRef) (t u va key : Nat) : State :=
  s.killUnit c t u evHbmUncorrectable 0 [key / 2 ^ 37, s.paOfByte (dieOfTile t) c va key]

/-- The bytes of a unit placed: read from HBM into SRAM, or from SRAM (or `fill`) into HBM; folded; the cursor
moved. -/
def State.place (s : State) (t u cyc : Nat) (x : Unit32) (ks : List Nat) (fill : Option Byte) : State :=
  let d := dieOfTile t
  let n := max ks.length x.table.length
  let bs := if x.toSram then (if x.table.isEmpty then ks.map (mget s.hbm) else x.table)
    else match fill with
      | none => s.sramRead t x.a n
      | some b => List.replicate n b
  let s := if x.toSram then s.sramWrite t x.a bs else { s with hbm := hbmPut s.hbm (ks.zip bs) }
  (s.fold d (s.chkOf t u) bs).advance t u cyc n

/-- When the transfer whose unit is next was issued. -/
def State.bornOf (s : State) (t u : Nat) : Nat :=
  if u < 8 then (((s.tile t).queue u).reqs.head?.map Req.born).getD 0 else (((s.tile t).handle (u - 8)).map (fun y => y.born)).getD 0

/-- A request put into the queue of a stack's controller, on the stack's own die. -/
def State.queueHbm (s : State) (h : BitVec 16) (st : Nat) (wr : Bool) : State :=
  let y := s.die (st / 5)
  s.setDie (st / 5) { y with str := { y.str with hbmq := y.str.hbmq ++ [⟨h, st, wr⟩] } }

/-- A unit moved (R365, R375): the DMA group's monitor begins anew, one to SRAM is in flight, and what it reads or
writes of HBM is queued in the controller of its stack (log entry 49). -/
def State.unitMoved (s : State) (c : CtxRef) (t : Nat) (x : Unit32) (ks : List Nat) (born : Nat) : State :=
  let d := dieOfTile t
  let y := s.die d
  let s := s.setDie d { y with str := { y.str with pmAt := none, fly := if x.toSram then y.str.fly ++ [⟨s.cxh c, born⟩] else y.str.fly } }
  forAll ks.head?.toList (fun s k => s.queueHbm (s.cxh c) (k / 2 ^ 37) (!x.toSram)) s

/-- A unit placed, with the compare at the end of its stream (R207). -/
def State.placeEnd (s : State) (c : CtxRef) (t u cyc : Nat) (x : Unit32) (ks : List Nat) (fill : Option Byte) : State :=
  let s := s.place t u cyc x ks fill
  match s.streamEnd t u with
  | some k => s.chkEnd c t (u - 8) (some k)
  | none => s

/-- One presentation of a transfer's next unit in a tile cycle: translation, the checks of R140, R190 and
R202, the port's bank grant, then the move. -/
def State.moveUnit (s : State) (c : CtxRef) (t u cyc : Nat) (x : Unit32) (hbmErr : Bool) : State :=
  match s.translateAll (dieOfTile t) c (!x.toSram) x.vas with
  | (s, .error (va, cause)) => s.takeRec c t u va cause
  | (s, .ok ks) =>
    if x.toSram && hbmErr && !x.vas.isEmpty then s.hbmError c t u (x.vas.headD 0) (ks.headD 0)
    else
      let n := max ks.length x.table.length
      match s.checkAccess t cyc x.a n x.toSram x.own with
      | some .off => (if x.toSram then s else s.placeEnd c t u cyc x ks (some 0xFF)).killAcc c t u x.a .off
      | some e => s.killAcc c t u x.a e
      | none =>
        let y := s.tile t
        if s.bankFree t cyc prioDma (wideMask x.a) then
          ((s.setTile t { y.grant cyc prioDma (wideMask x.a) with dmaAt := cyc + 1, dmaHeld := none }).placeEnd c t u cyc x ks none).unitMoved c t x ks (s.bornOf t u)
        else s.setTile t { y with dmaAt := cyc + 1, dmaHeld := some (u, cyc + 1, x.a) }

/-- Whether a context's transfers go on (R44, R52, R362, R384). -/
def State.dmaRuns (s : State) (c : CtxRef) : Bool :=
  match (s.ctx c).st with
  | .running => s.plat.pf && !s.asleep
  | .halted => s.plat.pf && !s.asleep
  | .done => s.plat.pf && !s.asleep
  | .free => false
  | .created => false
  | .loaded => false
  | .faulted => false
  | .tearing => false

/-- Whether the DMA port of a tile may present a new access in a tile cycle: its turn has come, and no core request
that it would refuse, then or held in the next cycle, has been granted. -/
def State.dmaFirst (s : State) (c : CtxRef) (t cyc : Nat) (m : BitVec 12) : Bool :=
  (s.tile t).dmaAt ≤ cyc && s.dmaTurn c t cyc && !s.bankTaken t cyc prioDma m
    && (s.bankFree t cyc prioDma m || (s.tile t).issueAt ≤ cyc - 3)

/-- DMA_UNIT_MOVE (R103, R109, R186, R197, R202, R206): the transfer's next unit is presented in a tile cycle.
A stopped cluster clock is a demand (R46). A presentation comes before the core requests of its tile cycle, and
one that is refused before those of the next cycle: where one of them has been made already, it does not take place
(log entry 12). -/
def execDmaUnitMove (tid unit cyc : Nat) (hbmErr : Bool) (s : State) : Res :=
  if !(tidOk tid && unit < 24) then .fault .noSuchUnit
  else
    match s.ctxOfTile tid, s.nextUnit tid unit cyc with
    | some c, some x =>
      if !s.dmaRuns c then .next s
      else if (s.cluster (cidOfTile tid)).clk != .running then .next (s.demand (cidOfTile tid))
      else if (s.tile tid).dmaHeld.isNone && s.dmaFirst c tid cyc (wideMask x.a) then .next (s.moveUnit c tid unit cyc x hbmErr)
      else .next s
    | _, _ => .next s

/-- DMA_REPLAY (R103): the held access is presented again in the next tile cycle, before every core request of
it. One whose transfer no longer has that access is dropped (log entry 12). -/
def execDmaReplay (tid unit cyc : Nat) (s : State) : Res :=
  if !(tidOk tid && unit < 24) then .fault .noSuchUnit
  else
    match (s.tile tid).dmaHeld with
    | none => .next s
    | some (u, k, a) =>
      if u ≠ unit || k ≠ cyc then .next s
      else
        let free := s.setTile tid { s.tile tid with dmaHeld := none }
        match s.ctxOfTile tid, s.nextUnit tid unit cyc with
        | some c, some x =>
          if x.a ≠ a then .next free
          else if s.dmaRuns c && (s.cluster (cidOfTile tid)).clk = .running && s.dmaTurn c tid cyc then
            .next (free.moveUnit c tid unit cyc x false)
          else .next s
        | _, _ => .next free

/-- Whether the link of a stream lets its next block start (R195). Blocks are counted from 0 in each stream,
while PCOUNT and CCOUNT go on from the last write of STR_LINK (DESIGN CHOICE, log entry 16). -/
def State.linkOk (s : State) (d : Nat) (y : Handle) : Bool :=
  match y.link with
  | none => true
  | some l =>
    let k := s.link d l
    let n : W32 := BitVec.ofNat 32 y.blk
    if y.outbound then decide ((n - k.ccount).toInt < (bits k.cfg.toNat 7 0 + 1 : Nat)) else serialLt n k.pcount

/-- STREAM_BLOCK_START (R186, R189, R195): the DMA starts the next block when its slot and its link allow. -/
def execStreamBlockStart (tid h : Nat) (s : State) : Res :=
  if !(tidOk tid && h < 16) then .fault .noSuchUnit
  else
    match s.ctxOfTile tid, (s.tile tid).handle h with
    | some c, some y =>
      let k := y.slotOf y.blk
      let slotOk := if y.outbound then y.slotSt k = .full && y.blk < y.released else y.slotSt k = .empty
      when_ (s.dmaRuns c && !y.active && y.stop = .run && y.blk < y.total && slotOk && s.linkOk (dieOfTile tid) y) s
        ((s.setTile tid ((s.tile tid).setHandle h { y with active := true, inner := 0, born := s.now })).demand (cidOfTile tid))
    | _, _ => .next s

/-- STREAM_BLOCK_COMPLETE (R189, R192, R195): an inbound slot becomes FULL, an outbound one EMPTY; the last
EMPTY closes an outbound handle. -/
def execStreamBlockComplete (tid h : Nat) (s : State) : Res :=
  if !(tidOk tid && h < 16) then .fault .noSuchUnit
  else
    match (s.tile tid).handle h with
    | none => .next s
    | some y =>
      match y.blkOf y.blk with
      | none => .next s
      | some (b, _) =>
        if y.active && y.inner = b.bytes && !s.asleep then
          let x := s.tile tid
          let d := dieOfTile tid
          let k := y.slotOf y.blk
          let z := { y.setSlot k (if y.outbound then .empty else .full) with blk := y.blk + 1, active := false, inner := 0 }
          let s := s.setTile tid (x.turnHandle (s.cluster (cidOfTile tid)).tileCyc h (if y.outbound && z.blk = z.total then none else some z))
          let s := match y.link with
            | none => s
            | some l => if y.outbound then s.setLink d l { s.link d l with pcount := (s.link d l).pcount + 1 } else s
          .next (s.afterSlots tid)
        else .next s

end Sys2Proof.Machine
end

