-- ==== Sys2Proof/Machine/Thistle.lean ====
section
/-!
DEFINITION. Barriers: Thistle and its symbols, T_bc and x_start (R55, R58, R60, R259 to R261, R264, R266, R278, R279).
-/

namespace Sys2Proof.Machine

/-! ### Registers (R266, R279) -/

/-- The Thistle registers of a context, on the die that serves its partition. -/
def State.ths (s : State) (c : CtxRef) : Ths := sget {} (s.die (servingDie s.layout c.part)).ths c.slot
def State.setThs (s : State) (c : CtxRef) (x : Ths) : State :=
  let d := servingDie s.layout c.part
  s.setDie d { s.die d with ths := sput (s.die d).ths c.slot x }

def Ths.hbid (x : Ths) : Nat := bits x.cfg.toNat 15 0
def Ths.hall (x : Ths) : Bool := x.cfg.getLsbD 16
def Ths.root (x : Ths) : Bool := x.cfg.getLsbD 17
def Ths.parent (x : Ths) : Nat := bits x.cfg.toNat 21 18
def Ths.altPar (x : Ths) : Nat := bits x.pair.toNat 3 0
def Ths.altV (x : Ths) : Bool := x.pair.getLsbD 4
def Ths.rootTwin (x : Ths) : Bool := x.pair.getLsbD 5

/-- The child ports. -/
def Ths.children (x : Ths) : List Nat := (List.range 16).filter (fun p => x.child.getLsbD p)

/-- Whether this module is the root: by ROOT, or as the root's twin once the twin is lost (R279, R280). -/
def State.isRoot (s : State) (x : Ths) : Bool := x.root || (x.rootTwin && s.pair.lost)

/-- The ports over which an ARRIVE leaves: none at the root, UL14 for the root's twin, else the parent and in
Pair mode the alternate (R260, R279). -/
def State.parents (s : State) (x : Ths) : List Nat :=
  if s.isRoot x then []
  else if x.rootTwin then [14]
  else x.parent :: (if s.pair.on && x.altV && x.altPar ≠ x.parent then [x.altPar] else [])

/-- Whether every child has arrived: an excused child port that is DOWN counts (R260, R279). -/
def State.childrenIn (s : State) (x : Ths) : Bool :=
  x.children.all (fun p => x.arr.getLsbD p || (x.pair.getLsbD (16 + p) && !(s.port p).isUp))

/-- Whether this module and its children have arrived. -/
def State.allIn (s : State) (c : CtxRef) : Bool := (s.ths c).self && s.childrenIn (s.ths c)

/-- THS_ARRIVE (R241). -/
def arriveWord (x : Ths) (ssn : W32) : W64 := symWord tyArrive (x.hbid + at_ 16 ssn.toNat)

/-- THS_COMPLETE (R241). -/
def completeWord (x : Ths) (ssn : W32) (tbc : W64) : W64 :=
  symWord tyComplete (x.hbid + at_ 16 (bits ssn.toNat 7 0) + at_ 24 (bits tbc.toNat 23 0))

/-- The module's ARRIVE leaves once it and its children have arrived (R260). -/
def State.thsTry (s : State) (c : CtxRef) : State :=
  let x := s.ths c
  if x.hall && !x.sent && s.allIn c && (s.ctx c).st = .running && !s.isRoot x then
    forAll (s.parents x) (fun s p => s.sendThs p (arriveWord x (s.ctx c).run.ssn)) (s.setThs c { x with sent := true })
  else s

/-! ### Barrier completion (R55, R58, R60, R278) -/

/-- x_start of a barrier (R55). -/
def xStartOf (tbc : Nat) (islocal : Bool) : Nat := (tbc + (if islocal then 256 else 2000) + 255) / 256 * 256

/-- The check units that a die's digest takes, ascending. -/
def pairUnits (w : W64) : List Nat := (List.range 64).filter (fun u => w.getLsbD u)

/-- The digest of a die (R278). -/
def State.digestOf (s : State) (d : Nat) : W64 :=
  crc64 0 ((pairUnits (s.die d).pairSet).flatMap (fun u => toLE 8 (s.chk d u).acc.toNat))

/-- Whether the module runs in Pair mode with its twin (R276, R280). -/
def State.pairOn (s : State) : Bool := s.pair.on && !s.pair.lost

/-- The first of a list of dies on which two lists of digests differ. -/
def digestDiff (own twin : List W64) : Option Nat := [0, 1, 2, 3].find? (fun d => own.getD d 0 ≠ twin.getD d 0)

/-- The twin's digests compared with a context's own of the present SSN (R278): PAIR_DIVERGE names the lowest
die that differs, and the context faults. -/
def State.compareDigest (s : State) (c : CtxRef) (twin : List W64) : State :=
  let r := (s.ctx c).run
  let s := s.setCtx c { s.ctx c with run := { r with compared := true } }
  let s : State := { s with pair := { s.pair with ssn := r.ssn } }
  match digestDiff r.digest twin with
  | none => s
  | some d =>
    let s := ({ s with pair := { s.pair with diverged := true } } : State).hwSet (bar0Bit 3 0x89108 3)
    (s.raise 3 evPairDiverge { s.infoCtx c 0 with names := [d] }).faultEvent c evPairDiverge

/-- The twin's digest that came before the context's own (R278). -/
def State.openInbox (s : State) (c : CtxRef) : State :=
  let r := (s.ctx c).run
  if r.digest.length = 4 && (s.ctx c).st = .running then
    match r.inbox.find? (fun e => e.1 = r.ssn) with
    | none => s
    | some e => s.compareDigest c e.2
  else s

/-- How far T_bc lies past D + SYNCALLOW on a die, 0 where BARRIER_LATE is not met (R58). -/
def State.barrierLate (s : State) (c : CtxRef) (tbc d : Nat) : Nat :=
  let x := (s.ctx c).run
  match x.arrAt with
  | none => 0
  | some a => if s.budget c d ≠ 0 && a ≤ s.deadline c d then tbc - (s.deadline c d + (s.ss d c.slot).allow.toNat) else 0

/-- A barrier completed at T_bc: x_start, the digests, and BARRIER_LATE where MISS_ACT faults at once. -/
def State.barrierDone (s : State) (c : CtxRef) (tbc : W64) : State :=
  let x := s.ctx c
  let dg := if s.pairOn then [0, 1, 2, 3].map s.digestOf else []
  let xs : W64 := BitVec.ofNat 64 (xStartOf tbc.toNat x.run.islocal)
  let s1 := s.setCtx c { x with run := { x.run with tbc := tbc, tbcV := true, digest := dg, compared := false, xstart := xs } }
  (s1.instantMiss c causeBarrierLate (fun d => s1.barrierLate c tbc.toNat d)
    (x.dies.filter (fun d => s1.barrierLate c tbc.toNat d ≠ 0))).openInbox c

/-- Whether a context waits at its barrier. -/
def State.atBarrier (s : State) (c : CtxRef) : Bool :=
  (s.ctx c).st = .running && (s.ctx c).run.phase = .barrier && !(s.ctx c).run.tbcV

/-- BARRIER_COMPLETE (R259, R260): T_bc at the root, or of a module-local context. -/
def execBarrierComplete (c : CtxRef) (s : State) : Res :=
  if !c.ok then .fault .noSuchUnit
  else
    let x := s.ths c
    let due : Bool := if (s.ctx c).run.islocal then true else x.hall && s.isRoot x && s.allIn c
    if s.atBarrier c && due then
      let s' := s.barrierDone c s.ht.now
      if (s.ctx c).run.islocal then .next s'
      else .next (forAll x.children (fun s p => s.sendThs p (completeWord x (s.ctx c).run.ssn s.ht.now)) s')
    else .next s

/-! ### Symbols (R242, R261) -/

/-- The first copy of a Thistle symbol that passes its check and has its type. -/
def goodCopy (ty : Nat) (a b : W64) : Option W64 :=
  if symOk a && symType a = ty then some a else if symOk b && symType b = ty then some b else none

/-- The hall context with a hall barrier ID that counts symbols: RUNNING or HALTED. -/
def State.hallCtx (s : State) (hbid : Nat) : Option CtxRef :=
  (allCtx.filter (fun c => c.part < nParts s.layout && (s.ths c).hall && (s.ths c).hbid = hbid &&
    ((s.ctx c).st = .running || (s.ctx c).st = .halted))).head?

/-- Both copies failed (R242): the context that the HBID names faults. -/
def State.symLost (s : State) (p : Nat) (a : W64) : State :=
  match s.hallCtx (bits (symBody a) 15 0) with
  | none => s.raise (dieOfPort p) evThsSymbolLost noInfo
  | some c => (s.raise (dieOfPort p) evThsSymbolLost (s.infoCtx c 0)).faultEvent c evThsSymbolLost

/-- An out-of-sequence symbol (R261). -/
def State.thsSeq (s : State) (c : CtxRef) (p : Nat) : State :=
  (s.raise (dieOfPort p) evThsSeq (s.infoCtx c 0)).faultEvent c evThsSeq

/-- Whether one SSN precedes another (R263): a free value where they lie exactly 2^31 apart. -/
def ssnBefore (a b : W32) : Bool := if a - b = 0x8000_0000 then Config.serialHalf a b else serialLt a b

/-- An ARRIVE of a child port (R261, R264). DESIGN CHOICE (log entry 28): one from a port that is no child is
ignored. -/
def State.takeArrive (s : State) (c : CtxRef) (p : Nat) (ssn : W32) : State :=
  let x := s.ths c
  let here := (s.ctx c).run.ssn
  if !x.child.getLsbD p then s
  else if ssnBefore ssn here then s.setThs c { x with stale := satAdd x.stale 1 }
  else if ssn = here then (s.setThs c { x with arr := putBit x.arr p true }).thsTry c
  else if ssn = here + 1 && !x.early.getLsbD p then s.setThs c { x with early := putBit x.early p true }
  else s.thsSeq c p

/-- The copy of an ARRIVE that passes its check (R242, R261). -/
def State.arriveCore (s : State) (port : Nat) (a b : W64) : State :=
  if !(s.port port).isUp then s
  else
    match goodCopy tyArrive a b with
    | none => s.symLost port a
    | some w =>
      match s.hallCtx (bits (symBody w) 15 0) with
      | none => s
      | some c => s.takeArrive c port (BitVec.ofNat 32 (bits (symBody w) 47 16))

/-- The copies of a symbol that fail their check, counted at a port that is UP (R241). -/
def State.countCopies (s : State) (port : Nat) (a b : W64) : State :=
  if (s.port port).isUp then (s.countCopy port a).countCopy port b else s

/-- THS_ARRIVE_RECEIVE (R241, R242, R261): the two copies. -/
def execThsArriveReceive (port : Nat) (a b : BitVec 64) (s : State) : Res :=
  if !portOk port then .fault .noSuchUnit else .next ((s.countCopies port a b).arriveCore port a b)

/-- A time completed from its low `n` bits to the value nearest to `now` (R261); a free value picks one of two
that are equally near. -/
def nearest (low n now : Nat) : Nat :=
  let m := 2 ^ n
  let base := now / m * m + low
  if base + m / 2 < now || (base + m / 2 == now && Config.nearUp n now) then base + m
  else if m ≤ base && (now + m / 2 < base || (now + m / 2 == base && !Config.nearUp n now)) then base - m
  else base

/-- A COMPLETE for the barrier at which a context waits (R261): forwarded, completed, and checked against
x_start − 64. -/
def State.takeComplete (s : State) (c : CtxRef) (p : Nat) (ssn8 t24 : Nat) : State :=
  let x := s.ths c
  let here := (s.ctx c).run.ssn
  if !(s.parents x).contains p then s
  else if ssn8 ≠ bits here.toNat 7 0 then s.thsSeq c p
  else if !s.atBarrier c then s
  else
    let tbc : W64 := BitVec.ofNat 64 (nearest t24 24 s.now)
    let s := forAll x.children (fun s q => s.sendThs q (completeWord x here tbc)) s
    let s := s.barrierDone c tbc
    if xStartOf tbc.toNat (s.ctx c).run.islocal < s.now + 64 then
      (s.raise (dieOfPort p) evThsCompleteLate (s.infoCtx c 0)).faultEvent c evThsCompleteLate
    else s

/-- The copy of a COMPLETE that passes its check (R242, R261, R279). -/
def State.completeCore (s : State) (port : Nat) (a b : W64) : State :=
  if !(s.port port).isUp then s
  else
    match goodCopy tyComplete a b with
    | none => s.symLost port a
    | some w =>
      match s.hallCtx (bits (symBody w) 15 0) with
      | none => s
      | some c => s.takeComplete c port (bits (symBody w) 23 16) (bits (symBody w) 47 24)

/-- THS_COMPLETE_RECEIVE (R241, R242, R261, R279): the two copies. -/
def execThsCompleteReceive (port : Nat) (a b : BitVec 64) (s : State) : Res :=
  if !portOk port then .fault .noSuchUnit else .next ((s.countCopies port a b).completeCore port a b)

end Sys2Proof.Machine
end

