-- ==== Sys2Proof/Machine/HallTime.lean ====
section
/-!
DEFINITION. Hall time: the timing tree, the time-stamp exchange and the master's edges (R232 to R241).
-/

namespace Sys2Proof.Machine

/-! ### Times in 1/16 ns (R234) -/

/-- A local time stamp: HT and a part of a nanosecond. -/
def State.stamp (s : State) (sub : BitVec 4) : Nat := 16 * s.now + sub.toNat

/-- HTM_PORT_p.DELAY of a delay. -/
def delayReg (d : Int) : BitVec 16 := if 0 ≤ d && d < 65536 then BitVec.ofInt 16 d else Config.wideDelay d

/-- HTM_ERR.OFFSET of an offset. -/
def offsetReg (o : Int) : BitVec 16 := if -32768 ≤ o && o < 32768 then BitVec.ofInt 16 o else Config.wideOffset o

/-- F above 512 ns (R265). -/
def slowDelay (d : Int) : Bool := 512 * 16 < d

/-- The 6 ns guard band and the 2 ns of LOCKED, in 1/16 ns (R239). -/
def htGuard : Nat := 96
def htLocked : Nat := 32

def State.setHt (s : State) (h : HallTime) : State := { s with ht := h }
def State.portHt (s : State) (p : Nat) : PortHt := (s.port p).ht
def State.setPortHt (s : State) (p : Nat) (h : PortHt) : State := s.setPort p { s.port p with ht := h }

/-- This module's HDID (R330). -/
def State.hdid (s : State) : BitVec 16 :=
  match s.cfg with
  | none => 0
  | some c => c.hdid

/-! ### The tree (R235, R236, R240) -/

/-- An up link: a partner that advertises a smaller depth than the module's own (R234). -/
def State.upLink (s : State) (p : Nat) : Bool :=
  (s.port p).live && (s.portHt p).known && (s.portHt p).pdepth < s.ht.depth

/-- A candidate for parent (R235, R236). -/
def State.candidate (s : State) (p : Nat) : Bool :=
  let h := s.portHt p
  (s.port p).live && h.known && h.plocked && h.pdepth.toNat < 8 && (!s.ht.limited || h.pdepth.toNat < s.ht.lastDep)

/-- The order of R235: depth, HDID, port number. -/
def State.parentKey (s : State) (p : Nat) : Nat :=
  at_ 20 (s.portHt p).pdepth.toNat + at_ 4 (s.portHt p).phdid.toNat + p

/-- The best of a list of ports. -/
def State.bestParent (s : State) : List Nat → Option Nat
  | [] => none
  | p :: ps =>
    match s.bestParent ps with
    | none => if s.candidate p then some p else none
    | some q => if s.candidate p && s.parentKey p < s.parentKey q then some p else some q

/-- Whether a port is the parent's. -/
def State.isParent (s : State) (p : Nat) : Bool := s.ht.parentV && s.ht.parent.toNat = p

/-- The parent is lost (R236, R240): HOLDOVER, depth 15, and the restriction to smaller depths begins. -/
def State.parentLost (s : State) : State :=
  let h := s.ht
  s.setHt { h with st := if h.st = .free then .free else .holdover, depth := 15, parentV := false,
                   lostAt := some s.now, limited := true, fails := 0 }

/-- A port leaves hall time (R240, R300). -/
def State.htPortDown (s : State) (p : Nat) : State :=
  let h := s.portHt p
  let s' := s.setPortHt p { h with known := false, valid := false, plocked := false, t1 := none, t2 := none }
  if s.isParent p then s'.parentLost else s'

/-- PARENT_SELECT (R235, R236, R240): at a 1,024 ns boundary a module without a parent takes the best candidate. -/
def execParentSelect (s : State) : Res :=
  if !s.ht.master && !s.ht.parentV && s.now % 1024 = 0 then
    match s.bestParent (List.range 16) with
    | none => .next s
    | some p =>
      let h := s.ht
      .next (s.setHt { h with parent := BitVec.ofNat 4 p, parentV := true, depth := (s.portHt p).pdepth + 1,
                              mhdid := (s.portHt p).pmaster, limited := false, lostAt := none, fails := 0, reparent := h.loaded })
  else .next s

/-- HOLDOVER_RESTRICTION_END (R236): after 1 ms without a parent any candidate will do. -/
def execHoldoverRestrictionEnd (s : State) : Res :=
  let due : Bool := match s.ht.lostAt with | none => false | some t => t + 1000000 ≤ s.now
  when_ (s.ht.limited && !s.ht.parentV && due) s (s.setHt { s.ht with limited := false })

/-- The body of a TREE symbol (R236, R241). -/
def State.treeBody (s : State) : Nat :=
  let h := s.ht
  h.mhdid.toNat + at_ 16 h.depth.toNat + at_ 20 (b1 (h.st = .locked)) + at_ 21 s.hdid.toNat

/-- TREE_SEND (R236, R241, R296): every 1,024 ns, on every port whose word stream runs, one in ALIGN among them. -/
def execTreeSend (s : State) : Res :=
  when_ (s.now % 1024 = 0) s
    (forAll ((List.range 16).filter (fun p => (s.port p).receives)) (fun s p => s.queueOn p (symWord tyTree s.treeBody)) s)

/-- What a TREE of the parent changes (R235, R240): depth and master; a parent that is no candidate any more
is lost. -/
def State.parentTree (s : State) (p : Nat) : State :=
  let h := s.portHt p
  if h.plocked && h.pdepth.toNat < 8 then
    let d := h.pdepth + 1
    s.setHt { s.ht with depth := d, mhdid := h.pmaster, lastDep := if s.ht.st = .locked then d.toNat else s.ht.lastDep }
  else s.parentLost

/-- A TREE at a port whose word stream runs (R235, R236, R241, R296). -/
def State.treeIn (s : State) (port : Nat) (x : W64) : State :=
  if !(s.port port).receives then s
  else if !(symOk x && symType x = tyTree) then s.symErr port
  else
    let b := symBody x
    let h := s.portHt port
    let s := s.setPortHt port { h with pmaster := BitVec.ofNat 16 (bits b 15 0), pdepth := BitVec.ofNat 4 (bits b 19 16),
                                       plocked := bit b 20, phdid := BitVec.ofNat 16 (bits b 36 21), known := true }
    if s.isParent port then s.parentTree port else s

/-- TREE_RECEIVE (R235, R236, R241). -/
def execTreeReceive (port : Nat) (x : BitVec 64) (s : State) : Res :=
  if !portOk port then .fault .noSuchUnit else .next (s.treeIn port x)

/-! ### The time-stamp exchange (R234, R237, R239, R240) -/

/-- A parent exchange that brought no result (R234, R240): the eighth in a row loses the parent. -/
def State.exchangeMissed (s : State) : State :=
  if s.ht.parentV && (s.portHt s.ht.parent.toNat).t1.isSome then
    if 7 ≤ s.ht.fails then s.parentLost else s.setHt { s.ht with fails := s.ht.fails + 1 }
  else s

/-- TS_EXCHANGE_START (R234): every 1,024 ns, a TS_REQ on each up link. `sub` is the part of a nanosecond of t1. -/
def execTsExchangeStart (sub : BitVec 4) (s : State) : Res :=
  if !s.ht.master && s.now % 1024 = 0 then
    let s := s.exchangeMissed
    .next (forAll ((List.range 16).filter s.upLink) (fun s p =>
      let h := s.portHt p
      (s.setPortHt p { h with seq := h.seq + 1, t1 := some (s.stamp sub), t2 := none }).sendSym p
        (symWord tyTsReq (h.seq + 1).toNat)) s)
  else .next s

/-- A TS_REQ at a port (R234): t2 goes back in TS_RESP and t3 in TS_FUP. -/
def State.tsReqIn (s : State) (port : Nat) (x : W64) (t2 t3 : BitVec 4) : State :=
  if !(s.port port).live then s
  else if !(symOk x && symType x = tyTsReq) then s.symErr port
  else
    let q := bits (symBody x) 7 0
    (s.sendSym port (symWord tyTsResp (q + at_ 8 (bits (s.stamp t2) 39 0)))).sendSym port
      (symWord tyTsFup (q + at_ 8 (bits (s.stamp t3) 39 0)))

/-- TS_REQ_RECEIVE (R234). -/
def execTsReqReceive (port : Nat) (x : BitVec 64) (t2 t3 : BitVec 4) (s : State) : Res :=
  if !portOk port then .fault .noSuchUnit else .next (s.tsReqIn port x t2 t3)

/-- A TS_RESP at a port (R234): t2 of the exchange with its sequence number. -/
def State.tsRespIn (s : State) (port : Nat) (x : W64) : State :=
  if !(s.port port).live then s
  else if !(symOk x && symType x = tyTsResp) then s.symErr port
  else
    let h := s.portHt port
    if h.t1.isSome && h.seq.toNat = bits (symBody x) 7 0 then
      s.setPortHt port { h with t2 := some (BitVec.ofNat 40 (bits (symBody x) 47 8)) }
    else s

/-- TS_RESP_RECEIVE (R234). -/
def execTsRespReceive (port : Nat) (x : BitVec 64) (s : State) : Res :=
  if !portOk port then .fault .noSuchUnit else .next (s.tsRespIn port x)

/-- A bound beyond the guard band (R239): HT_UNLOCK once per loss of lock. -/
def State.checkBound (s : State) : State :=
  if htGuard < s.ht.bound.toNat && !s.ht.told then
    ((s.setHt { s.ht with unlock := true, told := true }).hwSet (bar0Bit 0 0x8 12)).raise 0 evHtUnlock noInfo
  else s

/-- BOUND of an offset (R239). -/
def boundOf (o : Int) : BitVec 16 := BitVec.ofNat 16 (min 0xFFFF (max htLocked o.natAbs))

/-- The acquisition load (R232, R237): HT takes the parent's time. -/
def State.acquire (s : State) (t4 : Nat) (o : Int) : State :=
  s.setHt { s.ht with now := BitVec.ofInt 64 (((t4 : Int) + o) / 16), loaded := true, st := .acquire }

/-- A bound renewed in LOCKED (R239): once it is back at 2 ns under a LOCKED parent, a loss of lock that was
told is over. -/
def State.renewBound (s : State) (o : Int) (plocked : Bool) : State :=
  let s := (s.setHt { s.ht with bound := boundOf o }).checkBound
  if (boundOf o).toNat = htLocked && plocked then s.setHt { s.ht with told := false } else s

/-- An exchange with the parent (R237, R239, R240): it loads HT or steers it, and renews the bound. -/
def State.steer (s : State) (t4 : Nat) (o : Int) (plocked : Bool) : State :=
  let s := s.setHt { s.ht with fails := 0, offset := offsetReg o }
  let s :=
    match s.ht.st with
    | .free => if s.ht.loaded then s else s.acquire t4 o
    | .acquire => s
    | .locked => s.renewBound o plocked
    | .holdover =>
      let s := s.renewBound o plocked
      if (boundOf o).toNat = htLocked && plocked then s.setHt { s.ht with st := .locked, lastDep := s.ht.depth.toNat }
      else s
  let s := s.setHt { s.ht with goodAt := s.now, steps := 0 }
  if s.ht.reparent then (s.setHt { s.ht with reparent := false }).raise 0 evHtReparent noInfo else s

/-- A TS_FUP at a port (R234, R237, R240): delay and offset of the exchange; the parent's steers. `sub` is the
part of a nanosecond of t4. -/
def State.tsFupIn (s : State) (port : Nat) (x : W64) (sub : BitVec 4) : State :=
  if !(s.port port).live then s
  else if !(symOk x && symType x = tyTsFup) then s.symErr port
  else
    let h := s.portHt port
    match h.t1, h.t2 with
    | some t1, some t2w =>
      if h.seq.toNat = bits (symBody x) 7 0 then
        let t4 := s.stamp sub
        let t2 : Int := nearest t2w.toNat 40 t1
        let t3 : Int := nearest (bits (symBody x) 47 8) 40 t4
        let delay := ((t2 - t1) + (t4 - t3)).tdiv 2
        let offset := ((t2 - t1) - (t4 - t3)).tdiv 2 - (s.port port).link.asym.toInt
        let h' : PortHt := { h with delay := delayReg delay, valid := true, slow := slowDelay delay, t1 := none, t2 := none }
        let s := s.setPortHt port h'
        if s.isParent port && h.plocked then s.steer t4 offset h.plocked else s
      else s
    | _, _ => s

/-- TS_FUP_RECEIVE (R234, R237, R240). -/
def execTsFupReceive (port : Nat) (x : BitVec 64) (sub : BitVec 4) (s : State) : Res :=
  if !portOk port then .fault .noSuchUnit else .next (s.tsFupIn port x sub)

/-- HT_LOCK (R237): a module whose loop has converged. -/
def execHtLock (s : State) : Res :=
  when_ (s.ht.st = .acquire && !s.ht.master && s.ht.parentV) s
    (s.setHt { s.ht with st := .locked, bound := boundOf s.ht.offset.toInt, lastDep := s.ht.depth.toNat, told := false }).checkBound

/-- HOLDOVER_BOUND_STEP (R239): 1/16 ns every 125 µs since the last valid parent exchange. -/
def execHoldoverBoundStep (s : State) : Res :=
  let h := s.ht
  when_ (!h.master && (h.st = .locked || h.st = .holdover) && h.goodAt + 125000 * (h.steps + 1) ≤ s.now) s
    (s.setHt { h with bound := satAdd h.bound 1, steps := h.steps + 1 }).checkBound

/-! ### The master and the pulses (R233, R237) -/

/-- HALL_TIME_SET (R233): taken on the master; it waits for the next edge. -/
def execHallTimeSet (r : RingRef) (w : CmdWords) (s : State) : Res :=
  hostCmd s r w { op := 0x80, pf0 := true, needC := true, masks := [2 ^ 64 - 1], lock := some 5 } (fun s =>
    if s.ht.master then s.setHt { s.ht with sets := s.ht.sets ++ [(some r, w.w1, s.now)] } else s.replyCode r codeBadParam)

/-- One HALL_TIME_SET at an edge: the first of all loads HT, a later one the time of day. -/
def State.setAtEdge (s : State) (q : Option RingRef × W64 × Nat) : State :=
  let s :=
    if s.ht.loaded then s.setHt { s.ht with todoff := q.2.1 - s.ht.now }
    else s.setHt { s.ht with now := q.2.1, loaded := true }
  s.replyTo q.1 codeOk 0 0 0

/-- HT_PPS_IN_EDGE (R233, R237), on the master. A master that ran without discipline is LOCKED again at an
edge once HT is loaded (log entry 30). -/
def execHtPpsInEdge (s : State) : Res :=
  if s.ht.master && s.plat.powered && !s.asleep then
    let h := s.ht
    let st := match h.st with
      | .free => if h.sets.isEmpty then HtSt.free else .acquire
      | .acquire => .locked
      | .locked => .locked
      | .holdover => if h.loaded then .locked else .holdover
    let locked : Bool := st = .locked
    let h' := { h with st := st, sets := [], bound := if locked then BitVec.ofNat 16 htLocked else h.bound, told := h.told && !locked }
    let s := forAll h.sets State.setAtEdge (s.setHt h')
    .next (s.setHt { s.ht with pps := s.ht.now })
  else .next s

/-- HT_PPS_OUT_PULSE (R233): high for 100 ns from each multiple of 10⁹ ns. -/
def execHtPpsOutPulse (s : State) : Res :=
  when_ s.plat.powered s (s.setHt { s.ht with ppsOut := s.now % 1000000000 < 100 })

/-- HALL_TIME_SET_TIMEOUT (R233): no edge within 2 s of the take. -/
def execHallTimeSetTimeout (s : State) : Res :=
  let old (q : Option RingRef × W64 × Nat) : Bool := q.2.2 + 2000000000 ≤ s.now
  let h := s.ht
  awake s (.next (forAll (h.sets.filter old) (fun s q => s.replyTo q.1 codeTimeout 0 0 0)
    (s.setHt { h with sets := h.sets.filter (fun q => !old q) })))

end Sys2Proof.Machine
end

