-- ==== Sys2Proof/Machine/Float.lean ====
section
/-!
DEFINITION. Floating point by exact integers (R92, R149 to R157, R169): formats are read into exact values,
arithmetic is exact, and one rounding leads back. -/

namespace Sys2Proof.Machine

/-- An exact value: NaN, an infinity, or (−1)^neg × m × 2^e (m = 0 is a signed zero). -/
inductive FVal where
  | nan
  | inf (neg : Bool)
  | fin (neg : Bool) (m : Nat) (e : Int)
deriving DecidableEq, Repr

/-! ### Formats (R149, R150) -/

/-- Which encodings of a format are not finite. -/
inductive FSpecial where
  | ieee | e4m3 | none
deriving DecidableEq, Repr

/-- The layout of a format: exponent bits, mantissa bits, bias. -/
structure FLayout where
  eb   : Nat
  mb   : Nat
  bias : Nat
  sp   : FSpecial
deriving DecidableEq, Repr

/-- The layouts of the format codes (R150). -/
def fLayout (c : Nat) : FLayout :=
  if c = 0 then ⟨8, 23, 127, .ieee⟩ else if c = 1 then ⟨8, 7, 127, .ieee⟩ else if c = 2 then ⟨5, 10, 15, .ieee⟩
  else if c = 3 then ⟨4, 3, 7, .e4m3⟩ else if c = 4 then ⟨5, 2, 15, .ieee⟩ else if c = 5 then ⟨2, 3, 1, .none⟩
  else ⟨3, 2, 3, .none⟩

/-- The exponent of the last place of the subnormals of a format. -/
def FLayout.emin (l : FLayout) : Int := 1 - (l.bias : Int) - (l.mb : Int)

/-- An encoding read exactly (R150). -/
def fDecode (c v : Nat) : FVal :=
  let l := fLayout c
  let neg := bit v (l.eb + l.mb)
  let x := v / 2 ^ l.mb % 2 ^ l.eb
  let m := v % 2 ^ l.mb
  let special : Bool :=
    match l.sp with
    | .ieee => x + 1 = 2 ^ l.eb
    | .e4m3 => x + 1 = 2 ^ l.eb && m + 1 = 2 ^ l.mb
    | .none => false
  if special then (if l.sp = .ieee && m = 0 then .inf neg else .nan)
  else if x = 0 then .fin neg m l.emin
  else .fin neg (m + 2 ^ l.mb) (l.emin + (x : Int) - 1)

def f32 (w : W32) : FVal := fDecode 0 w.toNat

/-! ### Exact arithmetic (R156) -/

def FVal.isNeg : FVal → Bool
  | .nan => false
  | .inf n => n
  | .fin n _ _ => n

def FVal.isNan : FVal → Bool
  | .nan => true
  | .inf _ => false
  | .fin _ _ _ => false

def FVal.isZero : FVal → Bool
  | .nan => false
  | .inf _ => false
  | .fin _ m _ => m = 0

def FVal.finite : FVal → Bool
  | .nan => false
  | .inf _ => false
  | .fin _ _ _ => true

def FVal.neg : FVal → FVal
  | .nan => .nan
  | .inf n => .inf (!n)
  | .fin n m e => .fin (!n) m e

/-- A finite value times 2^k. -/
def FVal.scale (x : FVal) (k : Int) : FVal :=
  match x with
  | .nan => .nan
  | .inf n => .inf n
  | .fin n m e => .fin n m (e + k)

/-- An exact product. -/
def FVal.mul : FVal → FVal → FVal
  | .nan, _ => .nan
  | _, .nan => .nan
  | .inf a, .inf b => .inf (a != b)
  | .inf a, .fin b m _ => if m = 0 then .nan else .inf (a != b)
  | .fin a m _, .inf b => if m = 0 then .nan else .inf (a != b)
  | .fin a m e, .fin b n f => .fin (a != b) (m * n) (e + f)

/-- A signed integer times 2^e, as a value; a zero sum is +0. -/
def fOfInt (v : Int) (e : Int) : FVal := .fin (v < 0) v.natAbs e

/-- An exact sum; two zeros of one sign keep it, any other zero sum is +0. -/
def FVal.add : FVal → FVal → FVal
  | .nan, _ => .nan
  | _, .nan => .nan
  | .inf a, .inf b => if a = b then .inf a else .nan
  | .inf a, .fin _ _ _ => .inf a
  | .fin _ _ _, .inf b => .inf b
  | .fin a m e, .fin b n f =>
    if m = 0 && n = 0 then .fin (a && b) 0 (min e f)
    else if m = 0 then .fin b n f
    else if n = 0 then .fin a m e
    else
      let k := min e f
      let x : Int := (if a then -1 else 1) * (m * 2 ^ (e - k).toNat : Nat)
      let y : Int := (if b then -1 else 1) * (n * 2 ^ (f - k).toNat : Nat)
      fOfInt (x + y) k

/-! ### Rounding (R152 to R154) -/

/-- Whether a magnitude m × 2^e is rounded away, to nearest even or by 32 random bits: q and the part beyond
it, r of d. -/
def roundsUp (rnd : Option Nat) (q r d : Nat) : Bool :=
  match rnd with
  | none => d < 2 * r || (2 * r = d && q % 2 = 1)
  | some b => 2 ^ 32 * (d - r) ≤ b * d && r ≠ 0

/-- A magnitude m × 2^e rounded to `mb` mantissa bits with last places of 2^emin at least: q × 2^k, the
exponent not bounded above. -/
def roundMag (rnd : Option Nat) (mb : Nat) (emin : Int) (m : Nat) (e : Int) : Nat × Int :=
  if m = 0 then (0, emin)
  else
    let k := max ((m.log2 : Int) + e - (mb : Int)) emin
    if k ≤ e then (m * 2 ^ (e - k).toNat, k)
    else
      let d := 2 ^ (k - e).toNat
      let q := m / d
      (if roundsUp rnd q (m % d) d then q + 1 else q, k)

/-- Whether q × 2^k exceeds m × 2^e. -/
def magAbove (q : Nat) (k : Int) (m : Nat) (e : Int) : Bool :=
  let l := min k e
  m * 2 ^ (e - l).toNat < q * 2 ^ (k - l).toNat

/-- The largest finite magnitude of a format (R150). -/
def fMax (c : Nat) : Nat × Int :=
  if c = 0 then (2 ^ 24 - 1, 104) else if c = 1 then (2 ^ 8 - 1, 120) else if c = 2 then (2 ^ 11 - 1, 5)
  else if c = 3 then (448, 0) else if c = 4 then (57344, 0) else if c = 5 then (15, -1) else (28, 0)

/-- The encoding of q × 2^k within the range of a layout. -/
def FLayout.encode (l : FLayout) (neg : Bool) (q : Nat) (k : Int) : Nat :=
  let sgn := b1 neg * 2 ^ (l.eb + l.mb)
  if q < 2 ^ l.mb then sgn + q
  else
    let (q, k) := if 2 ^ (l.mb + 1) ≤ q then (q / 2, k + 1) else (q, k)
    sgn + (k - l.emin + 1).toNat * 2 ^ l.mb + (q - 2 ^ l.mb)

/-- The canonical NaN of a format; a format without NaN gives +0 (R150, R153). -/
def fNan (c : Nat) : Nat :=
  if c = 0 then 0x7FC00000 else if c = 1 then 0x7FC0 else if c = 2 then 0x7E00 else if c = 3 then 0x7F else if c = 4 then 0x7E else 0

/-- An infinity in a format (R153): FP32, BF16, FP16 and E5M2 have it, E4M3 gives NaN, FP6 its maximum. -/
def fInf (c : Nat) (neg : Bool) : Nat :=
  if c = 0 then b1 neg * 2 ^ 31 + 0x7F800000 else if c = 1 then b1 neg * 2 ^ 15 + 0x7F80 else if c = 2 then b1 neg * 2 ^ 15 + 0x7C00
  else if c = 3 then 0x7F else if c = 4 then b1 neg * 2 ^ 7 + 0x7C
  else b1 neg * 2 ^ 5 + 0x1F

/-- Whether a format saturates in place of overflowing (R153). -/
def fSaturates (c : Nat) : Bool := 3 ≤ c

/-- Whether a format flushes subnormal results (R153). -/
def fFlushes (c : Nat) : Bool := c = 3 || c = 4

/-- An exact value converted to a format with one rounding, and whether it saturated (R152, R153, R154). -/
def fConvert (c : Nat) (rnd : Option Nat) (x : FVal) : Nat × Bool :=
  let l := fLayout c
  match x with
  | .nan => (fNan c, false)
  | .inf n => (fInf c n, false)
  | .fin n m e =>
    let (q, k) := roundMag rnd l.mb l.emin m e
    let (mm, me) := fMax c
    if magAbove q k mm me then
      (if fSaturates c then (l.encode n (roundMag none l.mb l.emin mm me).1 (roundMag none l.mb l.emin mm me).2, true) else (fInf c n, false))
    else if fFlushes c && q < 2 ^ l.mb then (b1 n * 2 ^ (l.eb + l.mb), false)
    else (l.encode n q k, false)

/-- An exact value rounded to nearest even into binary32. -/
def toF32 (x : FVal) : W32 := BitVec.ofNat 32 (fConvert 0 none x).1

/-! ### Binary32 operations (R92, R156, R169) -/

def nan32 : W32 := 0x7FC00000

def addF (a b : W32) : W32 := toF32 ((f32 a).add (f32 b))
def subF (a b : W32) : W32 := toF32 ((f32 a).add (f32 b).neg)
def mulF (a b : W32) : W32 := toF32 ((f32 a).mul (f32 b))
/-- a × b + c rounded once. -/
def fmaF (a b c : W32) : W32 := toF32 (((f32 a).mul (f32 b)).add (f32 c))

/-- A quotient to 64 bits or more with a sticky last bit: rounding it once is rounding the exact quotient. -/
def FVal.div : FVal → FVal → FVal
  | .nan, _ => .nan
  | _, .nan => .nan
  | .inf _, .inf _ => .nan
  | .inf a, .fin b _ _ => .inf (a != b)
  | .fin a _ _, .inf b => .fin (a != b) 0 0
  | .fin a m e, .fin b n f =>
    if n = 0 then (if m = 0 then .nan else .inf (a != b))
    else
      let k := 64 + n.log2
      let q := m * 2 ^ k / n
      .fin (a != b) (2 * q + b1 (m * 2 ^ k % n ≠ 0)) (e - f - k - 1)

def divF (a b : W32) : W32 := toF32 ((f32 a).div (f32 b))

/-- The integer square root, by bits from bit n − 1 down. -/
def isqrt (v : Nat) : Nat → Nat → Nat
  | 0, r => r
  | n + 1, r => if (r + 2 ^ n) * (r + 2 ^ n) ≤ v then isqrt v n (r + 2 ^ n) else isqrt v n r

/-- A square root to 40 bits or more with a sticky last bit. -/
def FVal.sqrt : FVal → FVal
  | .nan => .nan
  | .inf n => if n then .nan else .inf false
  | .fin n m e =>
    if m = 0 then .fin n 0 e
    else if n then .nan
    else
      let k : Int := if e % 2 = 0 then 80 else 81
      let v := m * 2 ^ k.toNat
      let r := isqrt v (v.log2 / 2 + 1) 0
      .fin false (2 * r + b1 (r * r ≠ v)) ((e - k) / 2 - 1)

def sqrtF (a : W32) : W32 := toF32 (f32 a).sqrt

/-- The order of VMAX and VMIN on numbers that are not NaN: −0 below +0 (R92). -/
def keyF (a : W32) : Int := if a.msb then -1 - (a.toNat % 2 ^ 31 : Int) else (a.toNat : Int)

def maxF (a b : W32) : W32 := if (f32 a).isNan || (f32 b).isNan then nan32 else if keyF a < keyF b then b else a
def minF (a b : W32) : W32 := if (f32 a).isNan || (f32 b).isNan then nan32 else if keyF a < keyF b then a else b

/-- Truncation toward zero to BF16, as a binary32 value (R152, R157). -/
def hiF (a : W32) : W32 := if (f32 a).finite then a &&& 0xFFFF0000 else a

/-- The lo part of the three-pass split, as an exact value (R157). -/
def loF (a : W32) : FVal :=
  if (f32 a).finite then fDecode 1 (fConvert 1 none ((f32 a).add (f32 (hiF a)).neg)).1 else .fin false 0 0

/-! ### Lanes (R84, R151) -/

def lane (v : W256) (i : Nat) : W32 := v.extractLsb' (32 * i) 32

/-- A vector from a list of lanes, lane 0 first. -/
def ofLanes : List W32 → W256
  | [] => 0
  | x :: xs => (ofLanes xs <<< 32) ||| x.zeroExtend 256

/-- Eight lanes formed by number. -/
def mkLanes (g : Nat → W32) : W256 := ofLanes ((List.range 8).map g)

/-- VCVT: eight elements of one format converted to another, packed from lane 0 up (R92, R151). -/
def vcvt (src dst : Nat) (v : W256) : W256 :=
  let ws := fmtWidth src
  let wd := fmtWidth dst
  BitVec.ofNat 256 (((List.range 8).map (fun k =>
    (fConvert dst none (fDecode src (bits v.toNat (ws * k + ws - 1) (ws * k)))).1 * 2 ^ (wd * k))).sum)

/-- The fixed tree of VREDS and VREDM (R92). -/
def treeF (op : W32 → W32 → W32) (v : W256) : W32 :=
  op (op (op (lane v 0) (lane v 1)) (op (lane v 2) (lane v 3))) (op (op (lane v 4) (lane v 5)) (op (lane v 6) (lane v 7)))

end Sys2Proof.Machine
end

