-- ==== Sys2Proof/Machine/Activation.lean ====
section
/-!
DEFINITION. The activations of the drain (R144, R145). A value is formed in fixed point with 1,400 fraction
bits, far beyond the last place that decides a binary32 rounding, and rounded once; algebraic functions are
formed exactly (log entry 20). -/

namespace Sys2Proof.Machine

/-- Fraction bits of the fixed-point reals. -/
def fxF : Nat := 1400
def fxOne : Int := 2 ^ fxF

def fxMul (a b : Int) : Int := a * b / fxOne
def fxDiv (a b : Int) : Int := a * fxOne / b
/-- p ÷ q. -/
def fxRat (p q : Nat) : Int := p * fxOne / q

/-- m × 2^e of a sign, e ≥ −149. -/
def fxOf (neg : Bool) (m : Nat) (e : Int) : Int := (if neg then -1 else 1) * (m * 2 ^ (e + fxF).toNat : Nat)

/-- The exponential series from its n-th term: the term and the sum so far. -/
def expLoop (a : Int) : Nat → Nat → Int → Int → Int
  | 0, _, _, acc => acc
  | fuel + 1, n, t, acc => if t = 0 then acc else expLoop a fuel (n + 1) (fxMul t a / (n + 1 : Nat)) (acc + t)

/-- e^a. -/
def fxExp (a : Int) : Int :=
  if 0 ≤ a then expLoop a 6000 0 fxOne 0 else fxDiv fxOne (expLoop (-a) 6000 0 fxOne 0)

/-- σ(z) = 1 ÷ (1 + e^(−z)). -/
def fxSigma (z : Int) : Int :=
  if 0 ≤ z then fxDiv fxOne (fxOne + fxExp (-z)) else let e := fxExp z; fxDiv e (fxOne + e)

/-- The series of atan(1 ÷ q): p is 1 ÷ q^(2n+1), the sign alternates. -/
def atanLoop (q : Nat) : Nat → Nat → Int → Int → Int
  | 0, _, _, acc => acc
  | fuel + 1, n, p, acc =>
    if p = 0 then acc else atanLoop q fuel (n + 1) (p / (q * q : Nat)) (acc + (if n % 2 = 0 then 1 else -1) * (p / (2 * n + 1 : Nat)))

def fxPi : Int := 16 * atanLoop 5 2000 0 (fxRat 1 5) 0 - 4 * atanLoop 239 2000 0 (fxRat 1 239) 0

def fxSqrt (a : Int) : Int := let v := a.toNat * 2 ^ fxF; (isqrt v (v.log2 / 2 + 1) 0 : Nat)

/-- φ(x) = e^(−x²/2) ÷ √(2π). -/
def fxPhi (x : Int) : Int := fxDiv (fxExp (-(fxMul x x) / 2)) (fxSqrt (2 * fxPi))

/-- The series Σ x^(2n+1) ÷ (2n+1)!! from its n-th term. -/
def phiLoop (x2 : Int) : Nat → Nat → Int → Int → Int
  | 0, _, _, acc => acc
  | fuel + 1, n, t, acc => if t = 0 || t = -1 then acc else phiLoop x2 fuel (n + 1) (fxMul t x2 / (2 * n + 3 : Nat)) (acc + t)

/-- Φ(x) = 0.5 (1 + erf(x ÷ √2)) = 0.5 + φ(x) Σ x^(2n+1) ÷ (2n+1)!!, for x ≥ 0; Φ(−x) = 1 − Φ(x). -/
def fxCdf (x : Int) : Int :=
  let p (y : Int) : Int := fxMul (fxPhi y) (phiLoop (fxMul y y) 6000 0 y 0)
  if 0 ≤ x then fxOne / 2 + p x else fxOne / 2 - p (-x)

/-- 0.7978845608 and 2u = 2 × 0.7978845608 × (x + 0.044715 x³). -/
def fxC : Int := fxRat 7978845608 10000000000
def fxU2 (x : Int) : Int := 2 * fxMul fxC (x + fxMul (fxRat 44715 1000000) (fxMul x (fxMul x x)))

/-- f of a finite x for the codes 3 to 7 (R144). -/
def fxF3 (act : Nat) (x : Int) : Int :=
  if act = 3 then fxMul x (fxSigma (fxU2 x))
  else if act = 4 then fxMul x (fxCdf x)
  else if act = 5 then fxMul x (fxSigma x)
  else if act = 6 then fxSigma x
  else 2 * fxSigma (2 * x) - fxOne

/-- f′ of a finite x for the codes 3 to 7 (R144). -/
def fxD3 (act : Nat) (x : Int) : Int :=
  if act = 3 then
    let a := fxSigma (fxU2 x)
    a + 2 * fxMul x (fxMul (fxMul a (fxSigma (-(fxU2 x)))) (fxMul fxC (fxOne + fxMul (fxRat 134145 1000000) (fxMul x x))))
  else if act = 4 then fxCdf x + fxMul x (fxPhi x)
  else if act = 5 then fxMul (fxSigma x) (fxOne + fxMul x (fxSigma (-x)))
  else if act = 6 then fxMul (fxSigma x) (fxSigma (-x))
  else 4 * fxMul (fxSigma (2 * x)) (fxSigma (-2 * x))

/-- From this magnitude on the functions round to their limits: 20 for the GELU codes, 200 for the others. -/
def actCut (act : Nat) : Nat := if act = 3 || act = 4 then 20 else 200

/-- The limit of f at ±∞ (R145); an unbounded f returns `big`. -/
def actLim (act : Nat) (neg : Bool) (big : W32) : W32 :=
  let one : W32 := 0x3F800000
  let mzero : W32 := 0x80000000
  if act = 0 then big
  else if act ≤ 2 then (if neg then 0 else big)
  else if act ≤ 5 then (if neg then mzero else big)
  else if act = 6 then (if neg then 0 else one)
  else if neg then 0xBF800000 else one

/-- The limit of f′ at ±∞ (R145). -/
def actDLim (act : Nat) (neg : Bool) : W32 :=
  let one : W32 := 0x3F800000
  let mzero : W32 := 0x80000000
  if act = 0 then one
  else if act = 1 then (if neg then 0 else one)
  else if act = 2 then (if neg then 0 else 0x7F800000)
  else if act ≤ 5 then (if neg then mzero else one)
  else 0

/-- Whether m × 2^e is at least n. -/
def magAtLeast (m : Nat) (e : Int) (n : Nat) : Bool :=
  if 0 ≤ e then n ≤ m * 2 ^ e.toNat else n * 2 ^ (-e).toNat ≤ m

/-- f (R144, R145). -/
def actF (act : Nat) (w : W32) : W32 :=
  match f32 w with
  | .nan => nan32
  | .inf n => actLim act n w
  | .fin n m e =>
    if act = 0 then w
    else if m = 0 then (if act = 6 then 0x3F000000 else 0)
    else if act = 1 then (if n then 0 else w)
    else if act = 2 then (if n then 0 else mulF w w)
    else if magAtLeast m e (actCut act) then actLim act n w
    else toF32 (fOfInt (fxF3 act (fxOf n m e)) (-(fxF : Int)))

/-- f′ (R144, R145). -/
def actD (act : Nat) (w : W32) : W32 :=
  let one : W32 := 0x3F800000
  let half : W32 := 0x3F000000
  match f32 w with
  | .nan => nan32
  | .inf n => actDLim act n
  | .fin n m e =>
    if act = 0 then one
    else if act = 1 then (if n || m = 0 then 0 else one)
    else if act = 2 then (if n || m = 0 then 0 else toF32 (.fin false (2 * m) e))
    else if m = 0 then (if act = 6 then 0x3E800000 else if act = 7 then one else half)
    else if magAtLeast m e (actCut act) then actDLim act n
    else toF32 (fOfInt (fxD3 act (fxOf n m e)) (-(fxF : Int)))

end Sys2Proof.Machine
end

