-- ==== Sys2Proof/Machine/Cjob.lean ====
section
/-!
DEFINITION. Posting a Clover job (R96, R130 to R135, R139, R140).
-/

namespace Sys2Proof.Machine

/-! ### Validation (R130, R132, R143) -/

/-- Reserved bits of a descriptor and DVER (check 1). -/
def jobVersionOk (w : List W64) : Bool :=
  jf w 0 63 56 = 1 && jf w 0 55 50 = 0 && jf w 1 63 40 = 0 && jf w 2 63 54 = 0 && jf w 3 63 54 = 0 && jf w 4 63 54 = 0
    && jf w 5 31 18 = 0 && jf w 6 63 38 = 0 && jf w 7 63 0 = 0

/-- Operand formats that an engine accepts (R130). -/
def operandsOk (e a b : Nat) : Bool :=
  if fmtMx a || fmtMx b then
    e = 0 && fmtMx a && fmtMx b && 3 ≤ fmtCode a && fmtCode a ≤ 6 && 3 ≤ fmtCode b && fmtCode b ≤ 6
  else (a ≤ 2 && a = b) || ((a = 3 || a = 4) && (b = 3 || b = 4))

/-- The formats of a job (check 2). FMT_AUX is 0 where no AUX is used (R129); no rule names the check that
another value fails, and it fails this one (DESIGN CHOICE, log entry 17). -/
def jobFormatsOk (e : Nat) (w : List W64) : Bool :=
  operandsOk e (jobFmtA w) (jobFmtB w) && jobFmtOut w ≤ 4
    && (if jobUsesAux w && e ≠ 2 then jobFmtAux w ≤ 2 else jobFmtAux w = 0)

/-- Whether an engine accepts a drain function and its activation (check 3, R143). -/
def drainOk (e : Nat) (w : List W64) : Bool :=
  let d := jobDrain w
  (d = 0 || (e = 0 && (d = 1 || d = 2 || d = 3)) || (e = 1 && d = 4))
    && (jobAct w = 0 || d = 2 || d = 3 || d = 4)

/-- K against the formats (check 7). -/
def jobKOk (w : List W64) : Bool :=
  if jobMx w then jobK w % 32 = 0
  else (fmtCode (jobFmtA w) < 3 || jobK w % 2 = 0)

/-- Bases and strides of the regions that a job uses (check 8). -/
def jobAligned (w : List W64) : Bool :=
  ((jobRegions w).map Region.lo ++ [jobAStride w, jobBStride w, jobOutStride w]
    ++ (if jobUsesAux w then [jobAuxStride w] else []) ++ (if jobZoutEn w then [jobZoutStride w] else [])).all (fun x => x % 32 = 0)
  && (jobRegions w).all (fun r => r.lo + r.len ≤ 0x30000)

/-- Whether an output region of a job overlaps another of its regions (check 9). -/
def jobSelfOverlap (w : List W64) : Bool :=
  let rs := (jobRegions w).zipIdx
  rs.any (fun x => x.1.out && rs.any (fun y => x.2 ≠ y.2 && x.1.hits y.1))

/-- Whether a watch slot of a die is assigned to a context (R170, R176). -/
def State.watchOwned (s : State) (d n : Nat) (c : CtxRef) : Bool :=
  (sget {} (s.die d).watch n).own = BitVec.ofNat 32 (c.slot + at_ 3 c.part + at_ 5 1)

/-- The lowest-numbered check of R132 that a descriptor fails. -/
def State.jobCheck (s : State) (c : CtxRef) (d e : Nat) (w : List W64) : Option Nat :=
  if !jobVersionOk w then some 1
  else if !jobFormatsOk e w then some 2
  else if !drainOk e w then some 3
  else if jobAccum w && (jobDrain w ≠ 0 || jobFmtOut w ≠ 0) then some 4
  else if jobSr w && (e = 0 || jobFmtOut w = 0) then some 5
  else if jobDscale w && ((jobFmtOut w ≠ 3 && jobFmtOut w ≠ 4) || 511 < jobScaleBase w + jobTiles w - 1) then some 6
  else if !jobKOk w then some 7
  else if !jobAligned w then some 8
  else if jobSelfOverlap w || (jobZoutEn w && jobDrain w ≠ 2 && jobDrain w ≠ 3) then some 9
  else if jobWatchEn w && !s.watchOwned d (jobWatch w) c then some 10
  else none

/-! ### Queue, scoreboard, slots (R133, R140, R202) -/

/-- The jobs of an engine that are incomplete at the start of a tile cycle: one that completes in it still
counts (R133). Jobs that lower lanes post in it count (DESIGN CHOICE, log entry 17). -/
def Cluster.depthAt (x : Cluster) (e cyc : Nat) : Nat :=
  (((x.engine e).last.toList ++ (x.engine e).q).filter (fun j => cyc ≤ x.tileOf j.doneAt)).length

/-- Scoreboard entries in use at the start of a tile cycle (R133, R139). Entries of jobs that lower lanes post
in it count (DESIGN CHOICE, log entry 17). -/
def Cluster.sbUsedAt (x : Cluster) (cyc : Nat) : Nat := (x.jobsAll.map (fun j => (x.entriesAt j.2 cyc).length)).sum

/-- CLV_ERR cause of an engine queue or a scoreboard that is full for a posting in a tile cycle (R133). -/
def Cluster.postCause (x : Cluster) (e cyc : Nat) (w : List W64) : Option Nat :=
  if 16 ≤ x.depthAt e cyc then some 2
  else if 64 < x.sbUsedAt cyc + (jobRegions w).length then some 3
  else none

/-- The place of a posting among those of its cluster: by tile cycle, then by lane (R133). -/
def postPlace (t cyc : Nat) : Nat := 256 * cyc + t % 256 + 1

/-- The first slot of a tile that a region of a job may not overlap (R140): an input that is not FULL, an
output that is not EMPTY, as the slot stands at the start of the tile cycle of the posting (R190). -/
def Tile.slotBars (x : Tile) (cyc : Nat) (r : Region) : Option (Nat × Nat) :=
  (x.slotHit cyc r.lo r.len r.out none).map (fun h => (h.1, h.2.1))

/-- The first region of a job, with a slot, that a tile of a cluster bars. Of several, the first region in the
order of R139 is named, inputs first, and of its tiles the one of the lowest lane (DESIGN CHOICE, log entry
17). -/
def State.jobSlot (s : State) (cid cyc : Nat) (w : List W64) : Option (Nat × Nat × Nat) :=
  ((jobRegions w).flatMap (fun r => (tilesOfCid cid).filterMap (fun t =>
    ((s.tile t).slotBars cyc r).map (fun h => (r.lo, h.1, h.2))))).head?

/-- The first region of a job in a bank group without service (R202). R131 does not place this check; it
follows that of the slots (DESIGN CHOICE, log entry 17). -/
def State.jobOff (s : State) (cid : Nat) (w : List W64) : Option Nat :=
  ((jobRegions w).find? (fun r => [1, 2].any (fun g => overlaps r.lo r.len (65536 * g) 65536 && !(s.bank cid g).serves))).map Region.lo

/-! ### Timing (R121, R135) -/

/-- The cycle at which an earlier job stops being a hazard for a later one, 0 where it is none (R135). -/
def hazardOf (e : Nat) (w : List W64) (x : Nat × Job) : Nat :=
  let news := jobRegions w
  let olds := x.2.entries
  let outs := olds.any (fun o => o.out && news.any (fun r => o.hits r && !(r.out && x.1 = e)))
  let ins := olds.any (fun o => !o.out && news.any (fun r => r.out && o.hits r))
  if outs then x.2.doneAt else if ins then x.2.wLast else 0

/-- The cycle at which every hazard of a new job is clear, 0 where it has none. -/
def Cluster.clearAt (x : Cluster) (e : Nat) (w : List W64) : Nat := (x.jobs.map (hazardOf e w)).foldl max 0

/-- s_0 of a new job (R121). -/
def Cluster.firstFeed (x : Cluster) (e cyc : Nat) (w : List W64) : Nat :=
  let t := x.readyAt cyc + 48
  let t := match (x.engine e).q.getLast? with
    | none => t
    | some p => max t (p.sAt (jobTiles p.words - 1) + jobKc p.words + (256 - jobKc w))
  if x.clearAt e w = 0 then t else max t (x.clearAt e w + 48)

/-! ### CJOB -/

/-- A job entered in its engine's queue and in the scoreboard; `place` orders its posting. -/
def State.postJob (s : State) (cid e cyc place : Nat) (w : List W64) : State :=
  let x := s.cluster cid
  let y := x.engine e
  let j : Job := { words := w, seq := y.nextSeq, order := x.order, postAt := cyc, s0 := x.firstFeed e cyc w, clearAt := x.clearAt e w }
  let x' := { x.setEngine e { y with q := y.q ++ [j], nextSeq := y.nextSeq + 1 } with order := x.order + 1, posted := place }
  s.setCluster cid { x' with sbPeak := BitVec.ofNat 7 (max x.sbPeak.toNat x'.sbUsed) }

/-- CJOB after its two reads (R131 to R133, R140, R202): the traps in order, or the posted job and its ticket. -/
def State.cjobPost (s : State) (r : IssueRef) (c : CtxRef) (f : Fields) (a : Nat) (w : List W64) : State :=
  let cid := cidOfTile r.tid
  let e := bits f.mod.toNat 1 0
  match s.jobCheck c (dieOfTile r.tid) e w with
  | some k => (s.clvErr cid 1 k e 0 (r.tid % 256) r.thr false a).trap c r.tid r.thr evDescInvalid a 0 0
  | none =>
    match (s.cluster cid).postCause e (r.cyc + 4) w with
    | some k => (s.clvErr cid k 0 e 0 (r.tid % 256) r.thr false a).trap c r.tid r.thr evQueueFull a 0 0
    | none =>
      match s.jobSlot cid (r.cyc + 4) w with
      | some h => s.trap c r.tid r.thr evSlotNotReady h.1 h.2.1 h.2.2
      | none =>
        match s.jobOff cid w with
        | some lo => s.trap c r.tid r.thr evBankOff lo 0 0
        | none =>
          let tk := ticket ((s.engine cid e).nextSeq) e
          ((s.postJob cid e (r.cyc + 4) (postPlace r.tid (r.cyc + 4)) w).demand cid).modThread r.tid r.thr (fun h => (h.setSr f.d tk).step)

/-- Access `k` of CJOB (R96, R131): bytes 0 to 31 of the descriptor in the first slot, bytes 32 to 63 in the
second, at whose end the job is posted. -/
def State.stageCjob (s : State) (r : IssueRef) (c : CtxRef) (f : Fields) (k : Nat) (got : List Byte) : State :=
  let a := (s.thread r.tid r.thr).opA f
  if a.toNat % 64 ≠ 0 || 0x30000 < a.toNat + 64 then s.sramTrap r c a 0
  else s.readStage r c .cjob f k got (a.toNat + 32 * k) 0 (fun s got =>
    if k = 0 then s.hold r .cjob f 1 got else s.cjobPost r c f a.toNat (bytesWords got))

/-- CJOB (R96, R131). -/
def execCjob (r : IssueRef) (f : Fields) (s : State) : Res :=
  issue s r 0x7 0x00 f (fun s c => s.stageCjob r c f 0 [])

end Sys2Proof.Machine
end

