-- ==== Sys2Proof/Machine/Clover.lean ====
section
/-!
DEFINITION. The Clover engines: feed, wavefronts, drain, completion and clocks (R46, R116 to R128, R136 to
R148, R151 to R165, R171 to R174). -/

namespace Sys2Proof.Machine

/-! ### Which steps are due -/

/-- A step of an engine of a cluster, taken only where the context runs. -/
def cloverStep (s : State) (cid e : Nat) (body : CtxRef → State) : Res :=
  if !(cidOk cid && e < 3) then .fault .noSuchUnit
  else
    match s.cloverCtx cid with
    | none => .next s
    | some c => .next (body c)

/-! ### Starts (R119, R121, R161) -/

/-- EXP of a scale-table entry, −128 acting as −127 (R161). -/
def scaleExp (x : W32) : Int := max (signed x.toNat 8) (-127)

/-- The scale-table entry of an output tile of a job that uses one. -/
def Job.scaleKey (j : Job) (n : Nat) : Option Nat := if jobDscale j.words then some (jobScaleBase j.words + n) else none

/-- The updates of a scale entry that are due and have not been made: the Clover cycle and the engine of each
(R163, R164). -/
def Cluster.pendingUpd (x : Cluster) (k : Nat) : List (Nat × Nat) :=
  x.jobs.flatMap (fun j => ((List.range j.2.started).filter (fun n => j.2.drained ≤ n && j.2.scaleKey n = some k)).map
    (fun n => (j.2.wAt n + 256, j.1)))

/-- The starts of output tiles that have still to read a scale entry. -/
def Cluster.pendingStart (x : Cluster) (k : Nat) : List Nat :=
  x.jobs.flatMap (fun j => ((List.range (jobTiles j.2.words)).filter (fun n => j.2.started ≤ n && j.2.scaleKey n = some k)).map j.2.sAt)

/-- Whether the start of an output tile at cycle `at_` may read its scale entry: every update of an earlier
cycle is made (R164). -/
def Cluster.mayStart (x : Cluster) (j : Job) (n : Nat) : Bool :=
  match j.scaleKey n with
  | none => true
  | some k => (x.pendingUpd k).all (fun u => j.sAt n ≤ u.1)

/-- Whether the update at the end of an output tile's drain may be made: every start of its cycle or an
earlier one has read the entry, and every update of an earlier cycle, or of its cycle by an earlier of F, G0,
G1, is made (R164). -/
def Cluster.mayUpdate (x : Cluster) (e : Nat) (j : Job) (n : Nat) : Bool :=
  match j.scaleKey n with
  | none => true
  | some k =>
    let u := j.wAt n + 256
    (x.pendingStart k).all (fun s => u < s) && (x.pendingUpd k).all (fun v => u < v.1 || (u = v.1 && e ≤ v.2))

/-- A job whose output tile n starts to feed: it reads its scale entry. -/
def State.startTile (s : State) (cid : Nat) (j : Job) : Job :=
  let x := scaleExp (sget 0 (s.cluster cid).scale (jobScaleBase j.words + j.started))
  { j with started := j.started + 1, exps := j.exps ++ [if jobDscale j.words then x else 0] }

/-- The first job of a queue that satisfies `p` changed by `g`. -/
def updFirst (p : Job → Bool) (g : Job → Job) : List Job → List Job
  | [] => []
  | j :: js => if p j then g j :: js else j :: updFirst p g js

/-- CLOVER_JOB_START (R121): the first job not started begins its first output tile at s_0; the jobs before it
have fed their last. -/
def execCloverJobStart (cid eng : Nat) (s : State) : Res :=
  cloverStep s cid eng (fun _ =>
    let x := s.cluster cid
    let y := x.engine eng
    let fed := (y.q.takeWhile (fun j => j.started ≠ 0)).all (fun j => j.started = jobTiles j.words)
    s.setEngine cid eng { y with q := updFirst (fun j => j.started = 0) (fun j =>
      if fed && j.s0 ≤ x.cyc && x.mayStart j 0 then s.startTile cid j else j) y.q })

/-- CLOVER_OUTPUT_TILE_START (R119, R121): the next output tile of the feeding job begins at s_n. -/
def execCloverOutputTileStart (cid eng : Nat) (s : State) : Res :=
  cloverStep s cid eng (fun _ =>
    let x := s.cluster cid
    let y := x.engine eng
    s.setEngine cid eng { y with q := updFirst (fun j => j.started < jobTiles j.words) (fun j =>
      if j.started ≠ 0 && j.sAt j.started ≤ x.cyc && x.mayStart j j.started then s.startTile cid j else j) y.q })

/-! ### The feed port (R125 to R127) -/

/-- A byte that the feed reads; a group without power gives a free value (log entry 5). -/
def State.feedByte (s : State) (t a : Nat) : Byte :=
  if (s.bank (cidOfTile t) (groupOf a)).serves then s.sramByte t a else Config.offByte s.free t a

/-- The line that a read of the feed port delivers. -/
def State.feedLine (s : State) (t : Nat) (a : FeedAcc) : FeedLine :=
  { eng := a.eng, kind := a.kind, job := a.job, n := a.n, pass := a.pass, addr := a.addr,
    data := (List.range 32).map (fun i => s.feedByte t (a.addr + i)) }

/-- Whether a line is the one that an access reads. -/
def FeedLine.of (l : FeedLine) (a : FeedAcc) : Bool :=
  l.eng = a.eng && l.kind = a.kind && l.job = a.job && l.n = a.n && l.pass = a.pass && l.addr = a.addr

/-- CLOVER_FEED_WINDOW (R125): the port's due reads, on consecutive tile cycles from the window's first; its
engines hold the lines that they read. The port's banks in each tile cycle are those of `State.feedMask`. -/
def execCloverFeedWindow (cid lane win cyc : Nat) (s : State) : Res :=
  if !(cidOk cid && lane < 256) then .fault .noSuchUnit
  else
    let x := s.cluster cid
    match s.cloverCtx cid with
    | none => .next s
    | some _ =>
      if 16 * win ≤ x.cyc && cyc = x.tileAt (16 * win) then
        let t := 256 * cid + lane
        let rs := (x.due lane win).filter (fun a => !a.writes)
        let y := s.tile t
        .next (({ s with free := s.free + 1 } : State).setTile t
          { y with feed := rs.map (s.feedLine t) ++ y.feed.filter (fun l => !rs.any l.of) })
      else .next s

/-! ### Operands and accumulation (R114, R118, R119, R127, R137, R151, R156, R157) -/

/-- A byte of a stream as the feed port has read it; of a line for which no window was given, as it is now
(log entry 18). -/
def State.fedByte (s : State) (t : Nat) (q : FeedAcc) (a : Nat) : Byte :=
  match (s.tile t).feed.find? (fun l => l.of { q with addr := a / 32 * 32 }) with
  | some l => l.data.getD (a % 32) 0
  | none => s.feedByte t a

/-- Element k of a stream of `w`-bit elements of a tile, as a bit pattern (R127, R151). -/
def State.fedElem (s : State) (t : Nat) (q : FeedAcc) (base w k : Nat) : Nat :=
  let b := base + w * k / 8
  leNat ((List.range ((w + 7) / 8 + 1)).map (fun i => s.fedByte t q (b + i))) / 2 ^ (w * k % 8) % 2 ^ w

/-- A scale byte as a value: 2^(X − 127), or NaN (R151). -/
def e8m0 (x : Nat) : FVal := if x = 255 then .nan else .fin false 1 ((x : Int) - 127)

/-- An operand of a pass as the cells take it (R118, R157): the low parts of A in the first pass of FP32 and
of B in the second, high parts else; other formats decode. -/
def operandOf (code pass : Nat) (b : Bool) (v : Nat) : FVal :=
  if code = 0 then
    (if (pass = 0 && !b) || (pass = 1 && b) then loF (BitVec.ofNat 32 v) else f32 (hiF (BitVec.ofNat 32 v)))
  else fDecode code v

/-- The operands that a lane presents for an output tile, in stream order through all passes: of A, or of B
where `b` says so. -/
def State.laneVals (s : State) (cid e : Nat) (j : Job) (n lane : Nat) (b : Bool) : List FVal :=
  let w := j.words
  let t := 256 * cid + lane
  let base := if b then jobBBase w + jobNb w n * jobBStride w else jobABase w + jobMb w n * jobAStride w
  let sc := if b then jobBscBase w + jobNb w n * (jobK w / 32) else jobAscBase w + jobMb w n * (jobK w / 32)
  let code := fmtCode (if b then jobFmtB w else jobFmtA w)
  (List.range (jobPasses w)).flatMap (fun p =>
    let q (kind : Nat) : FeedAcc := { eng := e, kind := kind + b1 b, job := j.order, n := n, pass := p, addr := 0 }
    (List.range (jobK w)).map (fun i =>
      let x := operandOf code p b (s.fedElem t (q 0) base (fmtWidth code) i)
      if jobMx w then x.mul (e8m0 (s.fedByte t (q 2) (sc + i / 32)).toNat) else x))

/-- One exact product added to an accumulator with one rounding (R156). -/
def macF (acc : W32) (a b : FVal) : W32 := toF32 ((f32 acc).add (a.mul b))

/-- The accumulator of a cell after the products of two streams, in order (R118, R156). -/
def dotF (xs ys : List FVal) : W32 := (xs.zip ys).foldl (fun a p => macF a p.1 p.2) 0

/-- The sum of a position of an output tile. -/
def State.cellSum (s : State) (cid e : Nat) (j : Job) (n row col : Nat) : W32 :=
  dotF (s.laneVals cid e j n row false) (s.laneVals cid e j n col true)

/-- The accumulators of the active positions of an output tile, by rows. -/
def State.tileAcc (s : State) (cid e : Nat) (j : Job) (n : Nat) : List W32 :=
  let bs := (List.range (jobCols j.words n)).map (fun i => s.laneVals cid e j n i true)
  ((List.range (jobRows j.words n)).map (fun i => s.laneVals cid e j n i false)).flatMap (fun x => bs.map (dotF x))

/-- K steps of a cell that are done before a cycle, of a tile that feeds from cycle `t` on (R119). -/
def cellSteps (w : List W64) (t row col cyc : Nat) : Nat := min (jobKc w) (cyc - (t + row + col))

/-- The cycle up to which the engines of a cluster have worked. -/
def Cluster.workCyc (x : Cluster) : Nat :=
  match x.stopAt with
  | none => x.cyc
  | some c => min c x.cyc

/-- The output tiles of an engine that have started, by job. -/
def Engine.tiles (y : Engine) : List (Job × Nat) := y.q.flatMap (fun j => (List.range j.started).map (fun n => (j, n)))

/-- The accumulator of a cell that collects (R114): the sum of the products of the K steps done so far, of the
last output tile that has reached the cell. -/
def State.collecting (s : State) (cid e row col : Nat) : W32 :=
  let x := s.cluster cid
  match ((x.engine e).tiles.filter (fun p => row < jobRows p.1.words p.2 && col < jobCols p.1.words p.2
      && p.1.sAt p.2 + row + col < x.workCyc)).getLast? with
  | none => 0
  | some (j, n) =>
    let m := jobPerStep j.words * cellSteps j.words (j.sAt n) row col x.workCyc
    dotF ((s.laneVals cid e j n row false).take m) ((s.laneVals cid e j n col true).take m)

/-! ### Counts of K steps (R147) -/

/-- The cells (i, j) of an `a` by `b` array with i + j = d. -/
def diagCells (a b d : Nat) : Nat := min (d + 1) a - (d + 1 - b)

/-- Unmasked cell-cycles of K steps that an output tile has performed before a cycle. -/
def tileSteps (j : Job) (n cyc : Nat) : Nat :=
  let a := jobRows j.words n
  let b := jobCols j.words n
  ((List.range (a + b - 1)).map (fun d => diagCells a b d * cellSteps j.words (j.sAt n) d 0 cyc)).sum

/-- The steps performed of the tiles whose wavefront is not complete. -/
def Cluster.partialSteps (x : Cluster) (y : Engine) : Nat :=
  ((y.tiles.filter (fun p => p.1.waves ≤ p.2)).map (fun p => tileSteps p.1 p.2 x.workCyc)).sum

/-- An engine whose step count holds the steps performed so far; it saturates at all-ones. -/
def Cluster.settle (x : Cluster) (y : Engine) : Engine :=
  { y with steps := satAdd y.steps (x.partialSteps y - y.base), base := x.partialSteps y }

/-! ### Wavefronts (R119, R139, R147) -/

/-- CLOVER_WAVEFRONT_COMPLETE (R119, R147): at w_n every cell has its sum, which drains from the next cycles
on; the last wavefront releases the job's inputs (R139). -/
def execCloverWavefrontComplete (cid eng : Nat) (s : State) : Res :=
  cloverStep s cid eng (fun _ =>
    let x := s.cluster cid
    let y := x.settle (x.engine eng)
    match y.q.find? (fun j => j.waves < jobTiles j.words) with
    | none => s
    | some j =>
      let n := j.waves
      if n < j.started && j.wAt n ≤ x.cyc then
        let y := { y with q := updFirst (fun j => j.waves < jobTiles j.words) (fun j => { j with waves := n + 1 }) y.q,
                          acc := s.tileAcc cid eng j n, accOf := some (j.order, n), pmAt := none }
        ({ s with free := s.free + 1 } : State).setEngine cid eng { y with base := x.partialSteps y }
      else s)

/-! ### The drain (R120, R142 to R145, R153, R154, R161) -/

/-- The random bits of a position (R154). -/
def srBits (seed row col : Nat) : Nat :=
  let m (x : W64) : W64 := let x := x ^^^ (x >>> 31); let x := x * 0x9FB21C651E98DF25; x ^^^ (x >>> 29)
  let x : W64 := BitVec.ofNat 64 (row * 2 ^ 32 + col) ^^^ (BitVec.ofNat 64 seed * 0xA24BAED4963EE407)
  (m (m (m x)) >>> 32).toNat

/-- What the drain makes of one accumulator: the value before conversion, and Z. -/
structure Drained where
  c : W32
  z : Nat

/-- The drain function of R142 up to the conversion, with the prior value, and the AUX value as a pattern. -/
def drainFn (w : List W64) (acc prior : W32) (aux : Nat) : Drained :=
  let d := jobDrain w
  let ax := toF32 (fDecode (fmtCode (jobFmtAux w)) aux)
  let c := if jobAccum w then addF prior acc else acc
  let c := if d = 1 || d = 3 then addF c ax else c
  let z := (fConvert (jobZoutFmt w) none (f32 c)).1
  let c := if d = 2 || d = 3 then actF (jobAct w) c else c
  { c := if d = 4 then mulF c (actD (jobAct w) ax) else c, z := z }

/-- The magnitude of a finite value. -/
def FVal.mag : FVal → Nat × Int
  | .nan => (0, 0)
  | .inf _ => (0, 0)
  | .fin _ m e => (m, e)

/-- One stored value: its bits, whether it saturated, whether the value before conversion was finite, and its
scaled magnitude. -/
structure Stored where
  bits : Nat
  sat  : Bool
  fin  : Bool
  mag  : Nat × Int

/-- The output conversion (R142, R152 to R154, R161). -/
def convertOut (w : List W64) (ex : Int) (row col : Nat) (c : W32) : Stored :=
  let x := (f32 c).scale (if jobDscale w then -ex else 0)
  let r := fConvert (fmtCode (jobFmtOut w)) (if jobSr w then some (srBits (jobSeed w) row col) else none) x
  { bits := r.1, sat := r.2, fin := x.finite, mag := x.mag }

/-! ### The watch (R171 to R174) -/

/-- A 48-bit count: it stays at all-ones. -/
def sat48 (x : BitVec 48) (n : Nat) : BitVec 48 := satAdd x n

/-- Stored bits that are a zero, and stored bits that are not finite. -/
def isZeroBits (code v : Nat) : Bool := v % 2 ^ (fmtWidth code - 1) = 0
def isNonfinBits (code v : Nat) : Bool := !(fDecode code v).finite

/-- The WSTAT bits that a contribution of `n` values, `ze` of them zeros, `sa` saturated and `nf` not finite,
sets as hardware (R172, R174, R176): SAT of each count that it brings to all-ones or that is there, also after
the host has cleared the bit (DESIGN CHOICE, log entry 21), and NFALARM at the step's first non-finite value. -/
def Watch.sets (k : Watch) (n ze sa nf : Nat) : List Nat :=
  let full (v : BitVec 48) (m : Nat) : Bool := m ≠ 0 && sat48 v m = BitVec.allOnes 48
  (if full k.elems n then [20] else []) ++ (if full k.zeros ze then [21] else []) ++ (if full k.sats sa then [22] else [])
    ++ (if full k.nonfin nf then [23] else []) ++ (if nf ≠ 0 && !k.told && !k.stat.getLsbD 25 then [25] else [])

/-- The step flags of a contribution: STEP_ANY, STEP_NZ, STEP_BAD (R171, R174). DESIGN CHOICE (log entry 21): each
non-finite value sets STEP_BAD, one that follows a WCTL.CLEAR within the step too. -/
def stepFlags (n ze nf : Nat) : W32 := BitVec.ofNat 32 (at_ 16 (b1 (n ≠ 0)) + at_ 17 (b1 (ze < n)) + at_ 18 (b1 (nf ≠ 0)))

/-- A slot after a contribution in a nanosecond (R171, R172, R174). -/
def Watch.add (k : Watch) (now n ze sa nf : Nat) : Watch :=
  let old : Bool := k.newAt = some now
  { k with elems := sat48 k.elems n, zeros := sat48 k.zeros ze, sats := sat48 k.sats sa, nonfin := sat48 k.nonfin nf,
           stat := (k.sets n ze sa nf).foldl (fun x b => putBit x b true) (k.stat ||| stepFlags n ze nf),
           firstBad := if nf ≠ 0 && !k.told && !k.stat.getLsbD 25 then k.step else k.firstBad,
           told := k.told || nf ≠ 0, newAt := some now,
           newE := (if old then k.newE else 0) + n, newZ := (if old then k.newZ else 0) + ze,
           newS := (if old then k.newS else 0) + sa, newN := (if old then k.newN else 0) + nf,
           newF := (if old then k.newF else 0) ||| stepFlags n ze nf }

/-- The values of a drain counted in a watch slot of a die (R171, R172, R174): NUM_NONFINITE is raised once in a
step. -/
def State.watchAdd (s : State) (c : CtxRef) (d n code : Nat) (xs : List Stored) : State :=
  let y := s.die d
  let k := sget {} y.watch n
  let ze := (xs.filter (fun x => isZeroBits code x.bits)).length
  let sa := (xs.filter (fun x => x.sat)).length
  let nf := (xs.filter (fun x => isNonfinBits code x.bits)).length
  let s := s.setDie d { y with watch := sput y.watch n (k.add s.now xs.length ze sa nf) }
  let s := forAll (k.sets xs.length ze sa nf) (fun s b => s.hwSet (bar0Bit d (0x70000 + 0x40 * n + 0x28) (32 + b))) s
  if nf ≠ 0 && !k.told then s.raise d evNumNonfinite (s.infoCtx c (BitVec.ofNat 64 (n + at_ 32 k.step.toNat))) else s

/-! ### Drain writes (R120, R125, R127, R137, R142) -/

/-- Columns of a unit of an output row: the first, and how many are active. -/
def unitCols (w : List W64) (n unit : Nat) : Nat × Nat :=
  let per := 256 / fmtWidth (fmtCode (jobFmtOut w))
  (per * unit, min per (jobCols w n - per * unit))

/-- Columns of a unit of a row in ZOUT, of 16 values: the first, and how many are active; and the units that
the row has there. -/
def zunitCols (w : List W64) (n unit : Nat) : Nat × Nat := (16 * unit, min 16 (jobCols w n - 16 * unit))
def zrowUnits (w : List W64) (n : Nat) : Nat := (jobCols w n + 15) / 16

/-- Units that a row of an output tile writes. -/
def rowUnits (w : List W64) (n : Nat) : Nat :=
  let per := 256 / fmtWidth (fmtCode (jobFmtOut w))
  (jobCols w n + per - 1) / per

/-- The address in OUT and in ZOUT of a column of a row (R127). -/
def outAddr (w : List W64) (n col : Nat) : Nat :=
  jobOutBase w + jobMb w n * jobOutStride w + fmtBytes (fmtCode (jobFmtOut w)) (256 * jobNb w n + col)
def zoutAddr (w : List W64) (n col : Nat) : Nat :=
  jobZoutBase w + jobMb w n * jobZoutStride w + 2 * (256 * jobNb w n + col)

/-- The key of the reads of the AUX position of an output tile (R125). -/
def auxKey (e : Nat) (j : Job) (n : Nat) : FeedAcc := { eng := e, kind := 4, job := j.order, n := n, pass := 0, addr := 0 }

/-- The AUX value of a column for a row, as a pattern. -/
def State.auxAt (s : State) (t e : Nat) (j : Job) (n col : Nat) : Nat :=
  let w := j.words
  if jobUsesAux w then
    s.fedElem t (auxKey e j n) (jobAuxBase w + jobMb w n * jobAuxStride w) (fmtWidth (fmtCode (jobFmtAux w))) (256 * jobNb w n + col)
  else 0

/-- The prior FP32 value of a column. -/
def State.priorAt (s : State) (t e : Nat) (j : Job) (n col : Nat) : W32 :=
  BitVec.ofNat 32 (s.fedElem t (auxKey e j n) (outAddr j.words n col) 32 0)

/-- A drain write of one engine: discarded with BANK_OFF and a fault where the group has no power (R202). -/
def State.drainPut (s : State) (c : CtxRef) (t a : Nat) (bs : List Byte) : State × Bool :=
  if (s.bank (cidOfTile t) (groupOf a)).serves then (s.sramWrite t a bs, true) else (s.bankOff c t a 0, false)

/-- What an output tile has shown after some more values (R163). -/
def TileStat.note (k : TileStat) (xs : List Stored) : TileStat :=
  xs.foldl (fun k x =>
    let k := { k with sat := k.sat || x.sat, nonf := k.nonf || !x.fin }
    if x.fin && magAbove x.mag.1 x.mag.2 k.m k.e then { k with m := x.mag.1, e := x.mag.2 } else k) k

/-- The accumulator of a position that drains. -/
def State.drainAcc (s : State) (cid e : Nat) (j : Job) (n row col : Nat) : W32 :=
  let y := s.engine cid e
  if y.accOf = some (j.order, n) then y.acc.getD (row * jobCols j.words n + col) 0 else s.cellSum cid e j n row col

/-- The values that `m` columns of a row deliver from column `lo` on, before the conversion and as they are
stored (R142). -/
def State.colVals (s : State) (cid e : Nat) (j : Job) (n row lo m : Nat) : List (Drained × Stored) :=
  let w := j.words
  let t := 256 * cid + row
  (List.range m).map (fun i =>
    let k := lo + i
    let d := drainFn w (s.drainAcc cid e j n row k) (s.priorAt t e j n k) (s.auxAt t e j n k)
    (d, convertOut w (j.exps.getD n 0) (256 * jobMb w n + row) (256 * jobNb w n + k) d.c))

/-- The values of a unit of a row. -/
def State.unitVals (s : State) (cid e : Nat) (j : Job) (n row unit : Nat) : List (Drained × Stored) :=
  s.colVals cid e j n row (unitCols j.words n unit).1 (unitCols j.words n unit).2

/-- A job of an engine changed: one that is queued, or the one that completed last, whose last units are still
to be written. -/
def Engine.modJob (y : Engine) (order : Nat) (g : Job → Job) : Engine :=
  { y with q := y.q.map (fun j => if j.order = order then g j else j), last := y.last.map (fun j => if j.order = order then g j else j) }

/-- Units that a row of an output tile has written to OUT, and to ZOUT. -/
def Job.rowDone (j : Job) (n row : Nat) : Nat := sget 0 j.rows (256 * n + row)
def Job.zrowDone (j : Job) (n row : Nat) : Nat := sget 0 j.zrows (256 * n + row)
def Job.stat (j : Job) (n : Nat) : TileStat := sget {} j.stats n

/-- The output tile whose row is to be written next: the first that has started and whose row is not complete. -/
def Engine.rowTile (y : Engine) (row : Nat) : Option (Job × Nat) :=
  ((y.last.toList ++ y.q).flatMap (fun j => (List.range j.started).map (fun n => (j, n)))).find? (fun p =>
    row < jobRows p.1.words p.2 && p.1.rowDone p.2 row < rowUnits p.1.words p.2)

/-- The output tile whose row is to be written next in ZOUT. -/
def Engine.zrowTile (y : Engine) (row : Nat) : Option (Job × Nat) :=
  ((y.last.toList ++ y.q).flatMap (fun j => (List.range j.started).map (fun n => (j, n)))).find? (fun p =>
    jobZoutEn p.1.words && row < jobRows p.1.words p.2 && p.1.zrowDone p.2 row < zrowUnits p.1.words p.2)

/-- One unit of a row drained: its values formed, written and watched. -/
def State.drainUnit (s : State) (c : CtxRef) (cid e row unit : Nat) (j : Job) (n : Nat) : State :=
  let w := j.words
  let t := 256 * cid + row
  let lo := (unitCols w n unit).1
  let vs := s.unitVals cid e j n row unit
  let xs := vs.map Prod.snd
  let bytes := fmtWidth (fmtCode (jobFmtOut w)) / 8
  let s := s.setEngine cid e ((s.engine cid e).modJob j.order (fun j =>
    { j with rows := sput j.rows (256 * n + row) (unit + 1), stats := if n < j.drained then j.stats else sput j.stats n ((j.stat n).note xs) }))
  let (s, ok) := s.drainPut c t (outAddr w n lo) (xs.flatMap (fun x => toLE bytes x.bits))
  if ok && jobWatchEn w then s.watchAdd c (dieOfCid cid) (jobWatch w) (fmtCode (jobFmtOut w)) xs else s

/-- One unit of a row written to ZOUT: 16 values before the activation (R125, R142). -/
def State.zoutUnit (s : State) (c : CtxRef) (cid e row unit : Nat) (j : Job) (n : Nat) : State :=
  let q := zunitCols j.words n unit
  let vs := s.colVals cid e j n row q.1 q.2
  let s := s.setEngine cid e ((s.engine cid e).modJob j.order (fun j => { j with zrows := sput j.zrows (256 * n + row) (unit + 1) }))
  (s.drainPut c (256 * cid + row) (zoutAddr j.words n q.1) (vs.flatMap (fun v => toLE 2 v.1.z))).1

/-- Whether the last of some columns of a row is delivered in an earlier feed window than the present one. -/
def Job.delivered (j : Job) (n row : Nat) (q : Nat × Nat) (cyc : Nat) : Bool :=
  16 * ((j.sAt n + jobKc j.words + 255 + row + (q.1 + q.2 - 1)) / 16 + 1) ≤ cyc

/-- CLOVER_DRAIN_WRITE (R120, R125, R142): the next unit of a row, in the feed window after the one in which
its last value was delivered. Units 0 to 31 are those of OUT, units 32 to 47 those of ZOUT (log entry 18). -/
def execCloverDrainWrite (cid eng row unit : Nat) (s : State) : Res :=
  if !(row < 256 && unit < 48) then .fault .noSuchUnit
  else
    cloverStep s cid eng (fun c =>
      let x := s.cluster cid
      if unit < 32 then
        match (x.engine eng).rowTile row with
        | none => s
        | some (j, n) =>
          if j.rowDone n row = unit && j.delivered n row (unitCols j.words n unit) x.cyc then s.drainUnit c cid eng row unit j n else s
      else
        match (x.engine eng).zrowTile row with
        | none => s
        | some (j, n) =>
          if j.zrowDone n row = unit - 32 && j.delivered n row (zunitCols j.words n (unit - 32)) x.cyc then
            s.zoutUnit c cid eng row (unit - 32) j n
          else s)

/-! ### Completion (R120, R136, R163) -/

/-- The largest finite magnitude that R163 names max_f, times 2^−LOW_SHIFT. -/
def lowBound (code shift : Nat) : Nat × Int := (if code = 3 then 448 else 57344, -(shift : Int))

/-- A scale-table entry after a step (R163). -/
def scaleNext (x : W32) (ctl : W32) (code : Nat) (k : TileStat) : W32 :=
  let e := scaleExp x
  let clean := bits x.toNat 23 8
  let thr := bits ctl.toNat 15 0
  let b := lowBound code (bits ctl.toNat 19 16)
  let mk (e : Int) (k : Nat) : W32 := BitVec.ofNat 32 ((e % 256).toNat + at_ 8 k)
  if k.sat then mk (min (e + 1) 127) 0
  else if k.nonf then setBits x 23 8 0
  else if magAbove b.1 b.2 k.m k.e then
    let n := min (clean + 1) 0xFFFF
    if thr ≠ 0 && thr ≤ n then mk (max (e - 1) (-127)) 0 else setBits x 23 8 n
  else setBits x 23 8 0

/-- What an output tile has shown of all its active positions: those written, and those delivered whose write
is still due. -/
def State.tileStat (s : State) (cid e : Nat) (j : Job) (n : Nat) : TileStat :=
  ((List.range (jobRows j.words n)).flatMap (fun i =>
    ((List.range (rowUnits j.words n)).filter (fun u => j.rowDone n i ≤ u)).map (fun u => (i, u)))).foldl
      (fun k p => k.note ((s.unitVals cid e j n p.1 p.2).map Prod.snd)) (j.stat n)

/-- The update of the scale entry of output tile n (R163). -/
def State.scaleUpdate (s : State) (c : CtxRef) (cid : Nat) (j : Job) (n : Nat) (k : TileStat) : State :=
  match j.scaleKey n with
  | none => s
  | some i =>
    let x := s.cluster cid
    let d := dieOfCid cid
    let ctl := sget 0x1_03E8 (s.die d).dsCtl c.slot
    let t := s.setCluster cid { x with scale := sput x.scale i (scaleNext (sget 0 x.scale i) ctl (fmtCode (jobFmtOut j.words)) k),
                                       ovf := if k.sat then putBit x.ovf i true else x.ovf,
                                       scaleOld := x.scaleOld.filter (fun e => x.cyc ≤ e.1 + 1024) ++ [(j.wAt n + 256, i, sget 0 x.scale i)] }
    if k.sat then t.hwSet (bar0Bit d (0x2C000 + 0x40 * (cid % 8)) i) else t

/-- The lines of output tiles before tile n of a job, which the engine needs no more. -/
def State.dropLines (s : State) (cid e order n : Nat) : State :=
  { s with tiles := s.tiles.map (fun t => (t.1,
      if cidOfTile t.1 = cid then
        { t.2 with feed := t.2.feed.filter (fun l => l.eng ≠ e || order < l.job || (l.job = order && n ≤ l.n)) }
      else t.2)) }

/-- CLOVER_TILE_DRAIN_COMPLETE (R120, R163, R164): at w_n + 256 the scale entry of the output tile is updated
from all its values. -/
def execCloverTileDrainComplete (cid eng : Nat) (s : State) : Res :=
  cloverStep s cid eng (fun c =>
    let x := s.cluster cid
    match (x.engine eng).q.find? (fun j => j.drained < jobTiles j.words) with
    | none => s
    | some j =>
      let n := j.drained
      if n < j.waves && j.wAt n + 256 ≤ x.cyc && x.mayUpdate eng j n then
        let k := if jobDscale j.words then s.tileStat cid eng j n else {}
        let y := (x.engine eng).modJob j.order (fun j => { j with drained := n + 1, stats := sdrop (fun i => i = n) j.stats })
        ((s.scaleUpdate c cid j n k).setEngine cid eng y).dropLines cid eng j.order n
      else s)

/-- The set of a done flag in every tile of a cluster, in a tile cycle (R136, R223): one request of the job
for each. -/
def State.doneFlags (s : State) (c : CtxRef) (cid n cyc order : Nat) : State :=
  { s with freqs := s.freqs ++ (tilesOfCid cid).map (fun t =>
      ({ g := .tile t n, kind := .set, src := .clover, tid := t, thr := 0, cxh := s.cxh c, arrived := true,
         order := cyc, job := cid * 2 ^ 32 + order + 1 } : FlagReq)) }

/-- CLOVER_JOB_COMPLETE (R136): at w_(T−1) + 256 the job leaves its queue and the scoreboard, and its done
flag is set. -/
def execCloverJobComplete (cid eng : Nat) (s : State) : Res :=
  cloverStep s cid eng (fun c =>
    let x := s.cluster cid
    let y := x.engine eng
    match y.q with
    | [] => s
    | j :: js =>
      if j.drained = jobTiles j.words && j.doneAt ≤ x.cyc then
        let s := s.setEngine cid eng { y with q := js, last := some j }
        if jobDoneEn j.words then s.doneFlags c cid (jobDoneFlag j.words) (x.tileOf j.doneAt) j.order else s
      else s)

/-! ### Cluster clocks (R46) -/

/-- CLUSTER_CLOCK_START (R46): the fast clocks of a cluster that waits for them run. -/
def execClusterClockStart (cid : Nat) (s : State) : Res :=
  if !cidOk cid then .fault .noSuchUnit
  else
    let x := s.cluster cid
    when_ (x.clk = .starting && !s.barred) s (s.setCluster cid { x with clk := .running, since := s.now })

/-- Whether a thread of a tile still needs the clocks. -/
def Tile.demands (x : Tile) : Bool := x.thr.any (fun h => h.2.st = .runnable || h.2.st = .blocked)

/-- Whether a transfer of a tile still moves data. -/
def Tile.moves (x : Tile) : Bool :=
  x.queues.any (fun q => q.2.reqs.any (fun r => r.stop = .run)) || x.handles.any (fun h => h.2.active && h.2.stop = .run)

/-- Whether a cluster's fast clocks have a demand (R46): a job, a thread of a RUNNING context that has not
ended, or a transfer of its tiles. -/
def State.hasDemand (s : State) (cid : Nat) : Bool :=
  match s.ctxOfCid cid with
  | none => false
  | some c =>
    let run : Bool := (s.ctx c).st = .running
    ((s.ctx c).live && !(s.cluster cid).jobs.isEmpty) ||
      (tilesOfCid cid).any (fun t => (run && (s.tile t).demands) || (s.tile t).moves)

/-- CLUSTER_GATING (R46): running clocks without demand begin to stop; clocks that are stopping stop, and
start again where a demand has come meanwhile. -/
def execClusterGating (cid : Nat) (s : State) : Res :=
  if !cidOk cid then .fault .noSuchUnit
  else
    let x := s.cluster cid
    match x.clk with
    | .running => when_ (!s.hasDemand cid) s (s.setCluster cid { x with clk := .gating, since := s.now })
    | .gating =>
      let y := { x with clk := if x.want && !s.barred then ClkSt.starting else .stopped, want := x.want && s.barred, since := s.now }
      .next (s.setCluster cid y)
    | .starting => .next s
    | .stopped => .next s

end Sys2Proof.Machine
end

