-- ==== Sys2Proof/Machine/FlagOps.lean ====
section
/-!
DEFINITION. Tile flags and global flags (R95, R222 to R229).
-/

namespace Sys2Proof.Machine

/-! ### Values -/

def State.flag (s : State) : FlagRef → Bool
  | .tile t n => (s.tile t).flags.getLsbD n
  | .glob d n => sget false (s.die d).flg.gf n

def State.setFlag (s : State) (g : FlagRef) (b : Bool) : State :=
  match g with
  | .tile t n => s.setTile t { s.tile t with flags := putBit (s.tile t).flags n b }
  | .glob d n => s.setDie d { s.die d with flg := { (s.die d).flg with gf := sput (s.die d).flg.gf n b } }

/-- The die that keeps a flag's misuse counter (R228). -/
def FlagRef.die : FlagRef → Nat
  | .tile t _ => dieOfTile t
  | .glob d _ => d

def FlagRef.num : FlagRef → Nat
  | .tile _ n => n
  | .glob _ n => n

def FlagRef.isGlob : FlagRef → Bool
  | .tile _ _ => false
  | .glob _ _ => true

/-- DETAIL of a flag event (R349). -/
def flagDetail (g : FlagRef) : W64 :=
  BitVec.ofNat 64 (FlagRef.num g + at_ 12 (b1 (FlagRef.isGlob g)) + at_ 13 (FlagRef.die g))

/-- The context slot, plus 1, that a global flag is assigned to. -/
def State.gfOwner (s : State) (d n : Nat) : Nat := sget 0 (s.die d).flg.gfOwn n

/-- Whether a flag belongs to a context: its tile's clusters, or the assignment of a global flag (R222, R230). -/
def State.flagOf (s : State) (c : CtxRef) (g : FlagRef) : Bool :=
  match g with
  | .tile t _ => s.ctxOfTile t = some c
  | .glob d n => partOfDie s.layout d = c.part && s.gfOwner d n = c.slot + 1

/-- The flag that an instruction names (R95). -/
def instrFlag (r : IssueRef) (f : Fields) : FlagRef :=
  if f.mod.getLsbD 0 then .glob (bits f.imm.toNat 13 12) (bits f.imm.toNat 11 0) else .tile r.tid (bits f.imm.toNat 5 0)

/-! ### The arbiter (R224, R225) -/

/-- Whether a request is served before another: earlier arrival, then ascending TID, then thread. -/
def FlagReq.before (a b : FlagReq) : Bool :=
  a.order < b.order || (a.order = b.order && (a.tid < b.tid || (a.tid = b.tid && a.thr ≤ b.thr)))

def insertReq (q : FlagReq) : List FlagReq → List FlagReq
  | [] => [q]
  | x :: xs => if q.before x then q :: x :: xs else x :: insertReq q xs

/-- Requests in arbiter order. -/
def sortReqs : List FlagReq → List FlagReq
  | [] => []
  | x :: xs => insertReq x (sortReqs xs)

/-- One misuse counted (R228): the count, the record if it is free, and the event. -/
def State.misuse (s : State) (g : FlagRef) (q : FlagReq) (cause : Nat) : State :=
  let d := FlagRef.die g
  let x := s.die d
  let m := x.flg.misuse
  let n := fld m 7 0
  if n = 255 then s
  else
    let tid := match g, q.src with
      | .tile t _, .clover => t / 256 * 256
      | _, _ => q.tid
    let rec_ := 0 + at_ 8 cause + at_ 9 (b1 (FlagRef.isGlob g)) + at_ 10 (FlagRef.num g) + at_ 22 tid + at_ 35 q.thr
      + at_ 38 (match q.src with | .thread => 0 | .clover => 1 | .host => 0) + at_ 40 q.cxh.toNat + at_ 63 1
    let m' := if m.getLsbD 63 then setBits m 7 0 (n + 1) else BitVec.ofNat 64 (rec_ + n + 1)
    let a := bar0Bit d 0x62000 63
    let s := if m.getLsbD 63 then (if (s.newRec a).isSome then s else s.hwRec a (BitVec.ofNat 64 rec_)) else s.hwSet a
    let info : RaiseInfo := { cxh := q.cxh, tid := BitVec.ofNat 13 tid, thr := BitVec.ofNat 3 q.thr,
                              ssn := (s.ctx (cxhSlot q.cxh)).run.ssn, detail := flagDetail g }
    (s.setDie d { x with flg := { x.flg with misuse := m' } }).raise d evFlagMisuse info

/-- A misuse of a request: a Clover job counts at most one, whatever the number of tiles (R228). -/
def State.misuseReq (s : State) (g : FlagRef) (q : FlagReq) (cause : Nat) : State :=
  match q.src with
  | .thread => s.misuse g q cause
  | .host => s
  | .clover =>
    if q.job = 0 then s
    else ({ s with freqs := s.freqs.map (fun (p : FlagReq) => if p.job = q.job then { p with job := 0 } else p) }).misuse g q cause

/-- A waiter released in a flag cycle: its thread is RUNNABLE at the next instruction, if its context still runs,
from the next tile cycle on (R85, R224). -/
def State.releaseReq (c : Nat) (s : State) (q : FlagReq) : State :=
  let cyc := if FlagRef.isGlob q.g then (s.cluster (cidOfTile q.tid)).tileCyc else c
  let c := cxhSlot q.cxh
  match (s.thread q.tid q.thr).wait with
  | .flag g _ _ => if g = q.g && s.cxh c = q.cxh && (s.ctx c).st = .running then s.modThread q.tid q.thr (fun h => h.wake cyc) else s
  | _ => s

/-- The flag cycle in progress: a tile cycle of the flag's tile, or a control cycle of its die (R223). -/
def State.flagCycle (s : State) (g : FlagRef) : Nat :=
  match g with
  | .tile t _ => (s.cluster (cidOfTile t)).tileCyc
  | .glob _ _ => s.now

/-- The first flag cycle of a flag that is not evaluated. -/
def State.flagAt (s : State) (g : FlagRef) : Nat :=
  match g with
  | .tile t n => sget 0 (s.tile t).flagAt n
  | .glob d n => sget 0 (s.die d).flg.gfAt n

def State.setFlagAt (s : State) (g : FlagRef) (c : Nat) : State :=
  match g with
  | .tile t n => s.setTile t { s.tile t with flagAt := sput (s.tile t).flagAt n c }
  | .glob d n => s.setDie d { s.die d with flg := { (s.die d).flg with gfAt := sput (s.die d).flg.gfAt n c } }

/-- The requests at a flag's arbiter, in its order. -/
def State.reqsAt (s : State) (g : FlagRef) : List FlagReq := sortReqs (s.freqs.filter (fun q => q.g = g && q.arrived))

/-- The next flag cycle in which a flag changes or releases a waiter: that of the first set or clear, or,
while the flag is 1, of the first wait; a flag cycle is evaluated once (R223). -/
def State.dueCycle (s : State) (g : FlagRef) : Option Nat :=
  (((s.reqsAt g).filter (fun q => q.kind = .set || q.kind = .clear || s.flag g)).map (fun q => max q.order (s.flagAt g))).min?

/-- One flag cycle of a flag (R224): the requests that have arrived by it, and the waiters. DESIGN CHOICE (log
entry 24): of several sets (or clears) that meet, the first in the arbiter's order is no misuse, and the others are
recorded in that order. -/
def State.evalAt (s : State) (g : FlagRef) (c : Nat) : State :=
  let here := (s.reqsAt g).filter (fun q => q.order ≤ c)
  let s := s.setFlagAt g (c + 1)
  let v := s.flag g
  let soft (q : FlagReq) : Bool := q.src != .host
  let sets := here.filter (fun q => q.kind = .set)
  let clears := here.filter (fun q => q.kind = .clear)
  let waits := if v then here.filter (fun q => q.kind = .wait) else []
  let claims := if v then (here.filter (fun q => q.kind = .claim)).take 1 else []
  let gone := sets ++ clears ++ waits ++ claims
  let s := { s with freqs := s.freqs.filter (fun q => !gone.contains q) }
  let s := forAll (if v then sets.filter soft else (sets.filter soft).drop 1) (fun s q => s.misuseReq g q 0) s
  let s := forAll (if v then (clears.filter soft).drop 1 else clears.filter soft) (fun s q => s.misuseReq g q 1) s
  let s := if !sets.isEmpty then s.setFlag g true else if !clears.isEmpty || !claims.isEmpty then s.setFlag g false else s
  let s := forAll (waits ++ claims) (State.releaseReq c) s
  forAll (sets ++ clears) (fun s q => s.replyTo q.owner 0 0 0 0) s

/-- The host's sets and clears of a flag that are at its arbiter. -/
def State.hostReqs (s : State) (g : FlagRef) : List FlagReq :=
  (s.reqsAt g).filter (fun q => q.src = .host && (q.kind = .set || q.kind = .clear))

/-- The host's sets and clears of a flag served by themselves: a set wins (R224). -/
def State.evalHost (s : State) (g : FlagRef) : State :=
  let here := s.hostReqs g
  let s := { s with freqs := s.freqs.filter (fun q => !here.contains q) }
  forAll here (fun s q => s.replyTo q.owner 0 0 0 0) (s.setFlag g (here.any (fun q => q.kind = .set)))

/-- Whether a flag's cycle stands: a tile flag of a cluster whose clocks do not run. -/
def State.flagStands (s : State) (g : FlagRef) : Bool :=
  match g with
  | .tile t _ => (s.cluster (cidOfTile t)).clk != .running
  | .glob _ _ => false

/-- The next flag cycle of a flag in which something happens, once that cycle has ended: a request that arrives
in it still counts in it (R223, R224). Where the flag's cycle stands, the host's requests are served in it as they
come, the first with every other request of that cycle (R230, log entry 24). -/
def State.evalFlag (s : State) (g : FlagRef) : State :=
  match s.dueCycle g with
  | none => s
  | some c =>
    if c < s.flagCycle g then s.evalAt g c
    else if s.flagStands g && !(s.hostReqs g).isEmpty then
      if s.flagAt g ≤ s.flagCycle g then s.evalAt g (s.flagCycle g) else s.evalHost g
    else s

/-- The flag cycles of a flag up to one of them; each evaluation serves a request, so as many as there are
requests are enough. -/
def State.evalUpTo : Nat → State → FlagRef → Nat → State
  | 0, s, _, _ => s
  | n + 1, s, g, e =>
    match s.dueCycle g with
    | none => s
    | some c => if c ≤ e then (s.evalAt g c).evalUpTo n g e else s

/-! ### Instructions -/

/-- A request of a thread posted: a tile flag's arrives at once, a global flag's travels (R223). -/
def State.postReq (s : State) (r : IssueRef) (c : CtxRef) (g : FlagRef) (k : FlagKind) : State :=
  let q : FlagReq := { g := g, kind := k, src := .thread, tid := r.tid, thr := r.thr, cxh := s.cxh c,
                       arrived := !(FlagRef.isGlob g), order := if FlagRef.isGlob g then 0 else r.cyc }
  { s with freqs := s.freqs ++ [q] }

/-- A flag instruction: FLAG_ACCESS for a global flag that is not the context's (R222), or its request. -/
def State.flagInstr (s : State) (r : IssueRef) (c : CtxRef) (f : Fields) (k : FlagKind) (g' : Thread → Thread) : State :=
  let g := instrFlag r f
  if !s.flagOf c g then s.trapWith c r.tid r.thr evFlagAccess (flagDetail g)
  else (s.postReq r c g k).modThread r.tid r.thr g'

/-- FSET (R95, R224). -/
def execFset (r : IssueRef) (f : Fields) (s : State) : Res :=
  issue s r 0x6 0x00 f (fun s c => s.flagInstr r c f .set Thread.step)

/-- FCLR (R95, R224). -/
def execFclr (r : IssueRef) (f : Fields) (s : State) : Res :=
  issue s r 0x6 0x01 f (fun s c => s.flagInstr r c f .clear Thread.step)

/-- FWAIT (R95, R225, R227). -/
def execFwait (r : IssueRef) (f : Fields) (s : State) : Res :=
  issue s r 0x6 0x02 f (fun s c => s.flagInstr r c f .wait (fun h => { h with st := .blocked, wait := .flag (instrFlag r f) false (s.now + tmoNs f) }))

/-- FWAITC (R95, R225, R227). -/
def execFwaitc (r : IssueRef) (f : Fields) (s : State) : Res :=
  issue s r 0x6 0x03 f (fun s c => s.flagInstr r c f .claim (fun h => { h with st := .blocked, wait := .flag (instrFlag r f) true (s.now + tmoNs f) }))

/-- FENCE (R226): held, and shown RUNNABLE, until the thread's stores are complete. -/
def execFence (r : IssueRef) (f : Fields) (s : State) : Res :=
  issue s r 0x6 0x04 f (fun s _ =>
    s.modThread r.tid r.thr (fun h => if (s.tile r.tid).storesDone r.thr then h.step else { h with wait := .fence }))

/-! ### The arbiter's steps -/

/-- FLAG_REQUEST_ARRIVAL (R223): a travelling request reaches its arbiter; one of a stale epoch is dropped (R42). -/
def execFlagRequestArrival (q : Nat) (s : State) : Res :=
  match s.freqs[q]? with
  | none => .next s
  | some x =>
    if x.arrived || s.asleep then .next s
    else if s.cxh (cxhSlot x.cxh) ≠ x.cxh then .next (({ s with freqs := s.freqs.eraseIdx q } : State).replyTo x.owner codeBadParam 0 0 0)
    else .next { s with freqs := s.freqs.set q { x with arrived := true, order := s.flagCycle x.g } }

/-- FLAG_EVALUATION (R223 to R225, R228): the next flag cycle of a flag in which something happens. -/
def execFlagEvaluation (g : FlagRef) (s : State) : Res :=
  if !g.ok then .fault .noSuchUnit else awake s (.next (s.evalFlag g))

/-- The flag cycle of expiry of a wait that ends at a time not later than now: the one in progress at that
time, or the earlier of two at their boundary (R227). -/
def State.expiryCycle (s : State) (g : FlagRef) (limit : Nat) : Nat :=
  match g with
  | .glob _ _ => limit - 1
  | .tile t _ => s.tileCycAt (cidOfTile t) limit

/-- FLAG_TIMEOUT (R227): the flag is evaluated up to the cycle of expiry; a waiter that this does not release
traps, at a tile cycle that begins after it, and leaves the arbiter. -/
def execFlagTimeout (tid thr : Nat) (s : State) : Res :=
  if !(tidOk tid && thrOk thr) then .fault .noSuchUnit
  else
    match s.ctxOfTile tid, (s.thread tid thr).wait with
    | some c, .flag g claim limit =>
      if limit ≤ s.now && s.expiryCycle g limit < s.flagCycle g && (s.ctx c).st = .running && !s.asleep then
        let s := s.evalUpTo s.freqs.length g (s.expiryCycle g limit)
        if (s.thread tid thr).wait = .flag g claim limit then
          let keep (q : FlagReq) : Bool := !(q.tid = tid && q.thr = thr && (q.kind = FlagKind.wait || q.kind = FlagKind.claim))
          .next (({ s with freqs := s.freqs.filter keep } : State).trapWith c tid thr evFlagTimeout (flagDetail g))
        else .next s
      else .next s
    | _, _ => .next s

end Sys2Proof.Machine
end

