-- ==== Sys2Proof/Machine/Message.lean ====
section
/-!
DEFINITION. Messages between tiles (R94, R209 to R221).
-/

namespace Sys2Proof.Machine

/-! ### Reply codes (R212) -/

def msgAck : Nat := 0
def msgFull : Nat := 1
def msgNoReader : Nat := 2
def msgReset : Nat := 3
def msgFenced : Nat := 4
def msgBadDest : Nat := 5

/-- Entries of the store that are reserved or held (R213). -/
def Tile.storeUsed (x : Tile) : Nat := (x.store.map (fun m => m.data.length / 64)).sum

/-- Entries in use at the start of an exchange cycle: those freed in it still are (R213, R216). -/
def Tile.storeUsedAt (x : Tile) (now : Nat) : Nat := x.storeUsed + (if x.freedAt = now then x.freed else 0)

/-- Messages held complete (R221). One that a RECV is copying counts (DEDUCED, log entry 23). -/
def Tile.heldMsgs (x : Tile) : Nat := (x.store.filter (fun m => m.whole)).length

/-- A reply of a code decided on a die (R221). -/
def State.countMsg (s : State) (d code : Nat) : State :=
  let x := s.die d
  s.setDie d { x with flg := { x.flg with msgCnt := sput x.flg.msgCnt code (satAdd (sget 0 x.flg.msgCnt code) 1) } }

/-- Whether the sender's router answers BAD_DEST (R94, R212). -/
def State.badDest (s : State) (c : CtxRef) (dst : W64) : Bool :=
  fld dst 63 13 ≠ 0 || partOfDie s.layout (dieOfTile dst.toNat) ≠ c.part || s.fuses.dis.getLsbD (cidOfTile dst.toNat)

/-- A message departs: it travels, or the sender's router has answered it. -/
def State.depart (s : State) (c : CtxRef) (t n : Nat) (d : BitVec 5) (m : Msg) (retry : Bool) (attempts t0 limit : Nat) : State :=
  let w (st : SendSt) : State := s.modThread t n (fun h => { h with st := if retry then .blocked else .runnable, wait := .send d m retry attempts t0 limit st })
  if s.badDest c m.dst then (w (.replied msgBadDest)).countMsg (dieOfTile t) msgBadDest else w .travelling

/-- Access `k` of SEND and SENDW (R210): the reads of the source, one in each issue slot, then the departure. -/
def State.stageSend (s : State) (r : IssueRef) (c : CtxRef) (f : Fields) (retry : Bool) (k : Nat) (got : List Byte) : State :=
  let h := s.thread r.tid r.thr
  let a := h.opB f
  let len := 64 * (bits f.mod.toNat 4 3 + 1)
  let op := if retry then DataOp.sendw else .send
  if a.toNat % 32 ≠ 0 || 0x30000 < a.toNat + len then s.sramTrap r c a 0
  else s.readStage r c op f k got (a.toNat + 32 * k) 0 (fun s got =>
    if 32 * (k + 1) < len then s.hold r op f (k + 1) got
    else
      let m : Msg := { dst := h.opA f, tag := BitVec.ofNat 16 f.imm.toNat, data := got, cxh := s.cxh c }
      s.depart c r.tid r.thr f.d m retry 1 s.now (if retry then tmoNs f else 0))

/-- SEND (R94, R210). -/
def execSend (r : IssueRef) (f : Fields) (s : State) : Res :=
  issue s r 0x5 0x00 f (fun s c => s.stageSend r c f false 0 [])

/-- SENDW (R94, R218). -/
def execSendw (r : IssueRef) (f : Fields) (s : State) : Res :=
  issue s r 0x5 0x01 f (fun s c => s.stageSend r c f true 0 [])

/-- Whether a held message matches a tag under a mask (R214). -/
def Held.matches (m : Held) (tag mask : BitVec 16) : Bool := m.tag &&& mask = tag &&& mask

/-- Whether an instruction of a tile cycle sees a message: it is held complete from an earlier tile cycle, and
no RECV has taken it (R214 to R216). A message that is being copied is not seen (DEDUCED, log entry 23). -/
def Held.seen (m : Held) (cyc : Nat) : Bool := m.whole && m.cyc < cyc && m.taker.isNone

/-- The first message of a store that satisfies `p` changed by `g`. -/
def updHeld (p : Held → Bool) (g : Held → Held) : List Held → List Held
  | [] => []
  | m :: ms => if p m then g m :: ms else m :: updHeld p g ms

/-- The result word of RECV (R214). -/
def recvWord (m : Held) : W64 :=
  BitVec.ofNat 64 (m.tag.toNat + at_ 16 m.data.length + at_ 25 m.tid + at_ 38 m.thr)

/-- A message taken whole by a RECV: its entries are freed, from the next exchange cycle on (R214, R216). -/
def Tile.freeMsg (x : Tile) (now n : Nat) (m : Held) : Tile :=
  { x with store := x.store.filter (fun y => y.taker ≠ some n), freedAt := now,
           freed := (if x.freedAt = now then x.freed else 0) + m.data.length / 64 }

/-- A message that a waiting RECV may take: held complete and taken by none. -/
def Held.open_ (m : Held) : Bool := m.whole && m.taker.isNone

/-- A thread that waits in RECV and for which a message is held, with the order of its issue. -/
def Tile.recvOf (x : Tile) (n : Nat) : Option (Nat × Nat) :=
  match (x.thread n).wait with
  | .recv _ _ tag mask _ o => if x.store.any (fun m => m.open_ && m.matches tag mask) then some (o, n) else none
  | .none => none
  | .replay _ _ _ _ => none
  | .queue _ => none
  | .slot _ _ _ _ _ => none
  | .send _ _ _ _ _ _ _ => none
  | .flag _ _ _ => none
  | .fence => none
  | .sync => none

/-- The earliest-issued of some waiting RECVs. -/
def firstRecv : List (Nat × Nat) → Option Nat
  | [] => none
  | (o, n) :: rest =>
    match firstRecv rest with
    | none => some n
    | some m => if rest.all (fun e => o ≤ e.1) then some n else some m

/-- The RECV that waits longest for a message that is held takes the oldest such (R214): its thread makes the
copy in its issue slots of the tile cycles after the one in which the message came whole (R216). -/
def State.pairUp (s : State) (t : Nat) : State :=
  let x := s.tile t
  match s.ctxOfTile t, firstRecv ((List.range 6).filterMap x.recvOf) with
  | some c, some n =>
    match (x.thread n).wait with
    | .recv f _ tag mask _ _ =>
      if (s.ctx c).st = .running then
        (s.setTile t { x with store := updHeld (fun m => m.open_ && m.matches tag mask) (fun m => { m with taker := some n }) x.store }).modThread t n
          (fun h => { h with st := .runnable, wait := .replay .recv f 0 [] })
      else s
    | _ => s
  | _, _ => s

/-- Write `k` of the copy of a message that a thread has taken (R214): one in each issue slot; with the last
one the entries are freed and sD is written. A message that does not fit below 0x0003_0000 traps at the take
and stays held, for another RECV that waits. -/
def State.stageCopy (s : State) (r : IssueRef) (c : CtxRef) (f : Fields) (k : Nat) (m : Held) : State :=
  let dst := (s.thread r.tid r.thr).opA f
  if 0x30000 < dst.toNat + m.data.length then
    ((s.setTile r.tid { s.tile r.tid with store := updHeld (fun y => y.taker = some r.thr) (fun y => { y with taker := none }) (s.tile r.tid).store }).sramTrap r c dst 0).pairUp r.tid
  else s.dataStage r c .recv f k [] true true (dst.toNat + 32 * k) 32 (fun s =>
    let s := s.sramWrite r.tid (dst.toNat + 32 * k) ((m.data.drop (32 * k)).take 32)
    if 32 * (k + 1) < m.data.length then s.hold r .recv f (k + 1) []
    else (s.setTile r.tid ((s.tile r.tid).freeMsg s.now r.thr m)).modThread r.tid r.thr (fun h => (h.setSr f.d (recvWord m)).step))

/-- The message that a thread has taken. -/
def Tile.takenBy (x : Tile) (n : Nat) : Option Held := x.store.find? (fun m => m.taker = some n)

/-- Access `k` of RECV after its take (R214). -/
def State.stageRecv (s : State) (r : IssueRef) (c : CtxRef) (f : Fields) (k : Nat) : State :=
  match (s.tile r.tid).takenBy r.thr with
  | none => s
  | some m => s.stageCopy r c f k m

/-- RECV at its issue (R94, R214): it takes the oldest matching message that it sees, and makes its first
write; or it waits, and takes in the next tile cycle a message that came whole in this one (R216). A
misaligned destination traps at the issue, whether or not a message is held (DESIGN CHOICE, log entry 23). -/
def State.issueRecv (s : State) (r : IssueRef) (c : CtxRef) (f : Fields) : State :=
  let h := s.thread r.tid r.thr
  let dst := h.opA f
  let tag : BitVec 16 := BitVec.ofNat 16 f.imm.toNat
  let mask : BitVec 16 := BitVec.ofNat 16 (h.opB f).toNat
  let x := s.tile r.tid
  let mine (m : Held) : Bool := m.seen r.cyc && m.matches tag mask
  if dst.toNat % 32 ≠ 0 then s.sramTrap r c dst 0
  else if x.store.any mine then
    (s.setTile r.tid { x with store := updHeld mine (fun m => { m with taker := some r.thr }) x.store }).stageRecv r c f 0
  else
    ((s.setTile r.tid { x with order := x.order + 1 }).modThread r.tid r.thr
      (fun h => { h with st := .blocked, wait := .recv f dst tag mask (s.now + tmoNs f) x.order })).pairUp r.tid

/-- RECV (R94, R214). -/
def execRecv (r : IssueRef) (f : Fields) (s : State) : Res :=
  issue s r 0x5 0x02 f (fun s c => s.issueRecv r c f)

/-- POLL (R94, R215). -/
def execPoll (r : IssueRef) (f : Fields) (s : State) : Res :=
  issue s r 0x5 0x03 f (fun s _ =>
    let h := s.thread r.tid r.thr
    let n := ((s.tile r.tid).store.filter (fun m =>
      m.seen r.cyc && m.matches (BitVec.ofNat 16 f.imm.toNat) (BitVec.ofNat 16 (h.opB f).toNat))).length
    s.modThread r.tid r.thr (fun h => (h.setSr f.d (BitVec.ofNat 64 n)).step))

/-- The rest of a message arrives at a tile: it is held complete, and the RECV that waits for it longest takes it
(R214, R216). -/
def State.assign (s : State) (t : Nat) (m : Held) : State :=
  let x := s.tile t
  let at_ (y : Held) : Bool := !y.whole && y.tid = m.tid && y.thr = m.thr
  (s.setTile t { x with store := updHeld at_ (fun _ => { m with whole := true, cyc := (s.cluster (cidOfTile t)).tileCyc }) x.store }).pairUp t

/-- The tile whose store waits for the rest of a message of a sender. -/
def State.tailAt (s : State) (tid thr : Nat) : Option (Nat × Held) :=
  (s.tiles.filterMap (fun t => (t.2.store.find? (fun m => !m.whole && m.tid = tid && m.thr = thr)).map (fun m => (t.1, m)))).head?

/-- The code of a message at its destination, in the order of R212. -/
def State.msgCode (s : State) (m : Msg) : Nat :=
  let t := m.dst.toNat
  let c := cxhSlot m.cxh
  let x := s.tile t
  if s.ctxOfTile t ≠ some c then msgBadDest
  else if s.cxh c ≠ m.cxh then msgReset
  else if x.fenced then msgFenced
  else if (s.ctx c).st = .faulted || (List.range 6).all (fun n => (x.thread n).st = .halted || (x.thread n).st = .trapped) then msgNoReader
  else if 32 < x.storeUsedAt s.now + m.data.length / 64 then msgFull
  else msgAck

/-- The header of a message at its destination (R212, R213): the reply, and the entries reserved; at most one
in an exchange cycle of a port. -/
def State.header (s : State) (tid thr : Nat) (d : BitVec 5) (m : Msg) (retry : Bool) (attempts t0 limit : Nat) : State :=
  let t := m.dst.toNat
  if s.now < (s.tile t).hdrAt then s
  else
    let code := s.msgCode m
    let s := s.modThread tid thr (fun h => { h with wait := .send d m retry attempts t0 limit (.replied code) })
    let s := s.countMsg (dieOfTile t) code
    let x := { s.tile t with hdrAt := s.now + 1 }
    s.setTile t (if code = msgAck then { x with store := x.store ++ [{ tag := m.tag, data := m.data, tid := tid, thr := thr }] }
      else { x with drops := satAdd x.drops 1 })

/-- MESSAGE_ARRIVAL (R212 to R216): the header of the message that a thread has sent reaches its destination
port; or, where the header of a message of the thread was accepted before, the rest of it arrives, and the
message is held complete. -/
def execMessageArrival (tid thr : Nat) (s : State) : Res :=
  if !(tidOk tid && thrOk thr) then .fault .noSuchUnit
  else
    awake s <| match s.tailAt tid thr with
    | some (t, m) => .next (s.assign t m)
    | none =>
      match (s.thread tid thr).wait with
      | .send d m retry attempts t0 limit .travelling => .next (s.header tid thr d m retry attempts t0 limit)
      | _ => .next s

/-- The status word of SEND and SENDW (R210). -/
def sendStatus (code attempts : Nat) : W64 := BitVec.ofNat 64 (code + at_ 8 (min attempts 255))

/-- The trap of an exhausted SENDW (R219, R349). -/
def State.exhaust (s : State) (c : CtxRef) (t n : Nat) (m : Msg) (attempts : Nat) : State :=
  s.trapWith c t n evMsgRetryExhausted (BitVec.ofNat 64 (bits m.dst.toNat 12 0 + at_ 16 m.tag.toNat + at_ 32 (min attempts 255)))

/-- MESSAGE_REPLY_ARRIVAL (R210, R211, R218): the reply completes the send, or a FULL one leads to the next
attempt of SENDW. The reply to an accepted message comes after the rest of the message: no message of a thread
that goes on is in flight (R217; DEDUCED, log entry 23). A reply whose epoch no longer matches is dropped. -/
def execMessageReplyArrival (tid thr : Nat) (s : State) : Res :=
  if !(tidOk tid && thrOk thr) then .fault .noSuchUnit
  else
    awake s <| match (s.thread tid thr).wait with
    | .send d m retry attempts t0 limit (.replied code) =>
      let c := cxhSlot m.cxh
      let park (st : SendSt) : State := s.modThread tid thr (fun h => { h with wait := .send d m retry attempts t0 limit st })
      if (s.tailAt tid thr).isSome then .next s
      else if s.cxh c ≠ m.cxh || (s.ctx c).st != .running then .next (park .spent)
      else if !retry || code ≠ msgFull then .next (s.modThread tid thr (fun h => (h.setSr d (sendStatus code attempts)).wake (s.cluster (cidOfTile tid)).tileCyc))
      else
        let due := s.now + min (64 * 2 ^ (attempts - 1)) 4096
        if due < t0 + limit then .next (park (.backoff due))
        else if t0 + limit ≤ s.now then .next (s.exhaust c tid thr m attempts)
        else .next (park .spent)
    | _ => .next s

/-- SENDW_RETRY (R218): an attempt departs at its time. -/
def execSendwRetry (tid thr : Nat) (s : State) : Res :=
  if !(tidOk tid && thrOk thr) then .fault .noSuchUnit
  else
    awake s <| match (s.thread tid thr).wait with
    | .send d m true attempts t0 limit (.backoff due) =>
      let c := cxhSlot m.cxh
      when_ (due ≤ s.now && s.cxh c = m.cxh && (s.ctx c).st = .running) s (s.depart c tid thr d m true (attempts + 1) t0 limit)
    | _ => .next s

/-- MSG_RETRY_EXHAUSTED (R218, R219): a SENDW with no attempt left traps at its deadline. -/
def execMsgRetryExhausted (tid thr : Nat) (s : State) : Res :=
  if !(tidOk tid && thrOk thr) then .fault .noSuchUnit
  else awake s <|
    match (s.thread tid thr).wait with
    | .send _ m true attempts t0 limit .spent =>
      let c := cxhSlot m.cxh
      when_ (t0 + limit ≤ s.now && s.cxh c = m.cxh && (s.ctx c).st = .running) s (s.exhaust c tid thr m attempts)
    | _ => .next s

/-- MSG_RECV_TIMEOUT (R220), in a tile cycle that begins after the one of expiry. -/
def execMsgRecvTimeout (tid thr : Nat) (s : State) : Res :=
  if !(tidOk tid && thrOk thr) then .fault .noSuchUnit
  else awake s <|
    match s.ctxOfTile tid, (s.thread tid thr).wait with
    | some c, .recv _ _ tag mask limit _ =>
      when_ (limit ≤ s.now && s.tileCycAt (cidOfTile tid) limit < (s.cluster (cidOfTile tid)).tileCyc && (s.ctx c).st = .running) s
        (s.trapWith c tid thr evMsgRecvTimeout (BitVec.ofNat 64 (tag.toNat + at_ 16 mask.toNat)))
    | _, _ => .next s

end Sys2Proof.Machine
end

