-- ==== Sys2Proof/Machine/PortList.lean ====
section
/-!
DEFINITION. Port lists (R253, R254) and the slots of a phase.
-/

namespace Sys2Proof.Machine

/-- An entry of a port list (R253), fields by value. -/
structure PEnt where
  kind  : Nat
  src   : Bool
  dst   : Bool
  allow : Nat
  off   : Nat
  w     : Nat
  bytes : Nat
  va    : Nat
  tag   : Nat
  hdid  : Nat
  win   : Nat
  next  : Nat
deriving DecidableEq, Repr

/-- The entry at an index of a list RAM. -/
def PortXch.ent (x : PortXch) (i : Nat) : PEnt :=
  let w (k : Nat) : Nat := (sget 0 x.ram (4 * i + k)).toNat
  { kind := bits (w 0) 3 0, src := bit (w 0) 4, dst := bit (w 0) 5, allow := bits (w 0) 7 6, off := bits (w 0) 55 32,
    w := 64 * (bits (w 1) 15 0 + 1), bytes := bits (w 1) 47 16 + 1, va := bits (w 2) 47 0, tag := bits (w 3) 7 0,
    hdid := bits (w 3) 23 8, win := bits (w 3) 31 24, next := bits (w 1) 7 0 }

/-- A list from an entry index to its END: the entries with their indices, and the END entry. -/
def PortXch.chain (x : PortXch) : Nat → Nat → List (Nat × PEnt) × Option PEnt
  | 0, _ => ([], none)
  | n + 1, i =>
    if 256 ≤ i then ([], none)
    else
      let e := x.ent i
      if e.kind = 0 then ([], some e)
      else
        let r := x.chain n (i + 1)
        ((i, e) :: r.1, r.2)

/-- The list of the next phase of a port. -/
def PortXch.list (x : PortXch) : List (Nat × PEnt) × Option PEnt := x.chain 256 x.next.toNat

/-- Frames of a slot of a number of bytes (R254, R289). -/
def frames (bytes : Nat) : Nat := (bytes + 255) / 256

/-- Data time of a slot in ns (R254). -/
def dataTime (bytes : Nat) : Nat := (frames bytes * 34 + 24) / 25

/-- The slots that a port's list gives the coming phase. -/
def PortXch.build (x : PortXch) : List XSlot :=
  x.list.1.map (fun e => { entry := e.1, tx := e.2.kind = 1 })

/-- The HDID of a list or a channel program as the hardware uses it: pair-relative in Pair mode (R277). -/
def State.pairHdid (s : State) (h : Nat) : Nat := if s.pair.on && s.pair.twin then h ^^^ 1 else h

/-- A slot of a port found by its list entry. -/
def PortXch.slot (x : PortXch) (i : Nat) : Option XSlot := x.slots.find? (fun t => t.entry = i)

/-- A slot changed. -/
def PortXch.setSlot (x : PortXch) (t : XSlot) : PortXch :=
  { x with slots := x.slots.map (fun u => if u.entry = t.entry then t else u) }

def State.setXch (s : State) (p : Nat) (x : PortXch) : State := s.setPort p { s.port p with xch := x }

end Sys2Proof.Machine
end

