-- ==== Sys2Proof/Machine/Scatter.lean ====
section
/-!
DEFINITION. Token scatter (R281, R282).
-/

namespace Sys2Proof.Machine

def Scat.word (x : Scat) (i : Nat) : Nat := (sget 0 x.w i).toNat

def Scat.valid (x : Scat) : Bool := bit (x.word 0) 0
def Scat.slot (x : Scat) : Nat := bits (x.word 0) 3 1
def Scat.period (x : Scat) : Nat := bits (x.word 0) 11 4 + 1
def Scat.phase (x : Scat) : Nat := bits (x.word 0) 19 12
def Scat.topk (x : Scat) : Nat := bits (x.word 0) 23 20 + 1
def Scat.nexp (x : Scat) : Nat := bits (x.word 0) 31 24 + 1
def Scat.cap (x : Scat) : Nat := bits (x.word 0) 47 32
def Scat.route (x : Scat) : Nat := bits (x.word 1) 47 0
def Scat.src (x : Scat) : Nat := bits (x.word 2) 47 0
def Scat.dst (x : Scat) : Nat := bits (x.word 3) 47 0
def Scat.mask (x : Scat) : Nat := bits (x.word 4) 47 0
def Scat.ntok (x : Scat) : Nat := bits (x.word 5) 31 0
def Scat.row (x : Scat) : Nat := bits (x.word 5) 63 32
def Scat.stride (x : Scat) : Nat := bits (x.word 6) 47 0

/-- The parts of an expert's region (R282): its start, its indices, its rows. -/
def Scat.region (x : Scat) (e : Nat) : Nat := x.dst + e * x.stride
def Scat.idxAt (x : Scat) (e k : Nat) : Nat := x.region e + 32 + 4 * k
def Scat.rowAt (x : Scat) (e k : Nat) : Nat := x.region e + 32 + 32 * ((x.cap + 7) / 8) + k * x.row

/-- Bytes of a region. -/
def Scat.bytes (x : Scat) : Nat := 32 + 32 * ((x.cap + 7) / 8) + x.cap * x.row

/-- A run in progress: the state, tokens per expert, choices not sent, and the event that ended it. -/
structure ScatRun where
  s   : State
  cnt : Sparse Nat := []
  ovf : Nat := 0
  bad : Option Nat := none

/-- Bytes written in a run. -/
def ScatRun.put (r : ScatRun) (c : CtxRef) (d va : Nat) (bs : List Byte) : ScatRun :=
  if r.bad.isSome then r
  else
    match r.s.vaWrite d c (va % 2 ^ 48) bs with
    | (s, none) => { r with s := s }
    | (s, some _) => { r with s := s, bad := some evSlotFault }

/-- Bytes read in a run. -/
def ScatRun.get (r : ScatRun) (c : CtxRef) (d va n : Nat) : ScatRun × List Byte :=
  if r.bad.isSome then (r, [])
  else
    match r.s.vaRead d c (va % 2 ^ 48) n with
    | (s, .ok bs) => ({ r with s := s }, bs)
    | (s, .error _) => ({ r with s := s, bad := some evSlotFault }, [])

/-- One choice of a token: the run, and whether the token was sent. -/
def ScatRun.choice (r : ScatRun) (c : CtxRef) (d : Nat) (x : Scat) (t k : Nat) : ScatRun × Bool :=
  let (r, bs) := r.get c d (x.route + 2 * (t * x.topk + k)) 2
  let e := leNat bs
  if r.bad.isSome || e = 0xFFFF then (r, false)
  else if x.nexp ≤ e then ({ r with bad := some evScatBadRoute }, false)
  else
    let n := sget 0 r.cnt e
    if n < x.cap then
      let (r, row) := r.get c d (x.src + t * x.row) x.row
      let r := (r.put c d (x.rowAt e n) row).put c d (x.idxAt e n) (toLE 4 t)
      ({ r with cnt := sput r.cnt e (n + 1) }, true)
    else ({ r with ovf := r.ovf + 1 }, false)

/-- The choices of a token and its mask byte. -/
def ScatRun.token (r : ScatRun) (c : CtxRef) (d : Nat) (x : Scat) (t : Nat) : ScatRun :=
  let (r, m) := (List.range x.topk).foldl (fun (a : ScatRun × Nat) k =>
    let (r, ok) := a.1.choice c d x t k
    (r, a.2 + b1 ok * 2 ^ k)) (r, 0)
  r.put c d (x.mask + t) (toLE 1 m)

/-- The header and the padding of an expert's region. -/
def ScatRun.finish (r : ScatRun) (c : CtxRef) (d : Nat) (x : Scat) (e : Nat) : ScatRun :=
  let n := sget 0 r.cnt e
  let pad := 32 * ((x.cap + 7) / 8) - 4 * x.cap
  let r := r.put c d (x.region e) (toLE 32 n)
  let r := r.put c d (x.idxAt e n) (List.replicate (4 * (x.cap - n)) 0xFF ++ List.replicate pad 0)
  r.put c d (x.rowAt e n) (List.replicate ((x.cap - n) * x.row) 0)

/-- The counts of a run, up to where it ended: choices not sent in it, and since START (R281, R282). Both
counts saturate (R281 says so of the second; DESIGN CHOICE, log entry 33). -/
def Scat.counted (x : Scat) (ovf : Nat) : Scat :=
  { w := sput x.w 7 (BitVec.ofNat 64 (min (2 ^ 32 - 1) ovf + at_ 32 (min (2 ^ 32 - 1) (x.word 7 / 2 ^ 32 + ovf)))) }

/-- A run of descriptor j of a die (R282): its counters, and the event that faults the context where one ended it. -/
def State.scatRun (s : State) (c : CtxRef) (d j : Nat) : State :=
  let x := sget {} (s.die d).str.scat j
  let r := (List.range x.ntok).foldl (fun (r : ScatRun) t => r.token c d x t) { s := s }
  let r := (List.range x.nexp).foldl (fun (r : ScatRun) e => r.finish c d x e) r
  let y := r.s.die d
  let s := r.s.setDie d { y with str := { y.str with scat := sput y.str.scat j (x.counted r.ovf) } }
  match r.bad with
  | some ev => (s.raise d ev (s.infoCtx c 0)).faultEvent c ev
  | none => s

/-- The descriptors that run when a context arrives (R281). -/
def State.scatDue (s : State) (c : CtxRef) (d : Nat) : List Nat :=
  (List.range 16).filter (fun j =>
    let x := sget {} (s.die d).str.scat j
    x.valid && x.slot = c.slot && (s.ctx c).run.ssn.toNat % x.period = x.phase)

/-- Every scatter of a context, die by die; none runs after a fault. -/
def State.scatterAll (s : State) (c : CtxRef) : State :=
  forAll ((diesOf s.layout c.part).flatMap (fun d => (s.scatDue c d).map (fun j => (d, j))))
    (fun s x => if (s.ctx c).st = .running then s.scatRun c x.1 x.2 else s) s

end Sys2Proof.Machine
end

