-- ==== Sys2Proof/Machine/TileMem.lean ====
section
/-!
DEFINITION. Narrow loads and stores (R91).
-/

namespace Sys2Proof.Machine

/-- The memory stage of a narrow load. -/
def State.stageLoad (s : State) (r : IssueRef) (c : CtxRef) (f : Fields) (n : Nat) (sx : Bool) : State :=
  let a := (s.thread r.tid r.thr).ea f
  if !sramOk a n then s.sramTrap r c a 0
  else s.dataStage r c (.load n sx) f 0 [] false false a.toNat n (fun s =>
    let v := leNat (s.sramRead r.tid a.toNat n)
    let w := if sx then BitVec.ofInt 64 (signed v (8 * n)) else BitVec.ofNat 64 v
    s.modThread r.tid r.thr (fun h => (h.setSr f.d w).step))

/-- The memory stage of a narrow store. -/
def State.stageStore (s : State) (r : IssueRef) (c : CtxRef) (f : Fields) (n : Nat) : State :=
  let h := s.thread r.tid r.thr
  let a := h.ea f
  if !sramOk a n then s.sramTrap r c a 0
  else s.dataStage r c (.store n) f 0 [] false true a.toNat n (fun s =>
    (s.sramWrite r.tid a.toNat (toLE n (h.opB f).toNat)).modThread r.tid r.thr Thread.step)

/-- LD8 (R91). -/
def execLd8 (r : IssueRef) (f : Fields) (s : State) : Res :=
  issue s r 0x2 0x00 f (fun s c => s.stageLoad r c f 1 false)

/-- LD16 (R91). -/
def execLd16 (r : IssueRef) (f : Fields) (s : State) : Res :=
  issue s r 0x2 0x01 f (fun s c => s.stageLoad r c f 2 false)

/-- LD32 (R91). -/
def execLd32 (r : IssueRef) (f : Fields) (s : State) : Res :=
  issue s r 0x2 0x02 f (fun s c => s.stageLoad r c f 4 false)

/-- LD64 (R91). -/
def execLd64 (r : IssueRef) (f : Fields) (s : State) : Res :=
  issue s r 0x2 0x03 f (fun s c => s.stageLoad r c f 8 false)

/-- LDS8 (R91). -/
def execLds8 (r : IssueRef) (f : Fields) (s : State) : Res :=
  issue s r 0x2 0x04 f (fun s c => s.stageLoad r c f 1 true)

/-- LDS16 (R91). -/
def execLds16 (r : IssueRef) (f : Fields) (s : State) : Res :=
  issue s r 0x2 0x05 f (fun s c => s.stageLoad r c f 2 true)

/-- LDS32 (R91). -/
def execLds32 (r : IssueRef) (f : Fields) (s : State) : Res :=
  issue s r 0x2 0x06 f (fun s c => s.stageLoad r c f 4 true)

/-- ST8 (R91). -/
def execSt8 (r : IssueRef) (f : Fields) (s : State) : Res :=
  issue s r 0x2 0x08 f (fun s c => s.stageStore r c f 1)

/-- ST16 (R91). -/
def execSt16 (r : IssueRef) (f : Fields) (s : State) : Res :=
  issue s r 0x2 0x09 f (fun s c => s.stageStore r c f 2)

/-- ST32 (R91). -/
def execSt32 (r : IssueRef) (f : Fields) (s : State) : Res :=
  issue s r 0x2 0x0A f (fun s c => s.stageStore r c f 4)

/-- ST64 (R91). -/
def execSt64 (r : IssueRef) (f : Fields) (s : State) : Res :=
  issue s r 0x2 0x0B f (fun s c => s.stageStore r c f 8)

end Sys2Proof.Machine
end

