-- ==== Sys2Proof/Machine/Update.lean ====
section
/-!
DEFINITION. UPD.SPLIT (R98, R166 to R169).
-/

namespace Sys2Proof.Machine

/-- A parameter record (R167). -/
structure UpdRec where
  hi   : Nat
  lo   : Nat
  g    : Nat
  gfmt : Nat
  m    : Nat
  v    : Nat
  n    : Nat
  lr   : W32
  wd   : W32
  b1   : W32
  b2   : W32
  eps  : W32
  c1   : W32
  c2   : W32
  gs   : W32
  rsv  : Bool

def lo32 (w : W64) : W32 := w.truncate 32
def hi32 (w : W64) : W32 := (w >>> 32).truncate 32

/-- The record read from its eight words; `rsv` says that a reserved bit is set. -/
def readUpd (w : List W64) : UpdRec :=
  let f (i hi lo : Nat) := bits (w.getD i 0).toNat hi lo
  { hi := f 0 17 0, lo := f 0 35 18, g := f 0 53 36, gfmt := f 0 55 54, m := f 1 17 0, v := f 1 35 18, n := f 1 47 36 + 1,
    lr := lo32 (w.getD 2 0), wd := hi32 (w.getD 2 0), b1 := lo32 (w.getD 3 0), b2 := hi32 (w.getD 3 0),
    eps := lo32 (w.getD 4 0), c1 := hi32 (w.getD 4 0), c2 := lo32 (w.getD 5 0), gs := hi32 (w.getD 5 0),
    rsv := f 0 63 56 ≠ 0 || f 1 63 48 ≠ 0 || w.getD 6 0 ≠ 0 || w.getD 7 0 ≠ 0 }

/-- Bytes of a gradient element. -/
def UpdRec.gBytes (u : UpdRec) : Nat := if u.gfmt = 0 then 4 else 2

/-- The planes of a form with their bytes per group, in the order of a group's reads (R168). -/
def UpdRec.planes (u : UpdRec) (sgd : Bool) : List (Nat × Nat) :=
  [(u.hi, 32), (u.lo, 32), (u.g, 16 * u.gBytes), (u.m, 64)] ++ (if sgd then [] else [(u.v, 64)])

/-- Whether any two planes overlap. -/
def planesOverlap (n : Nat) : List (Nat × Nat) → Bool
  | [] => false
  | p :: ps => ps.any (fun q => overlaps p.1 (n * p.2) q.1 (n * q.2)) || planesOverlap n ps

/-- The first plane that is misaligned or out of range (R168). DESIGN CHOICE (log entry 60): the planes are checked
in the order of the list, master (or HI, LO), G, M, V. -/
def badPlane (n : Nat) (ps : List (Nat × Nat)) : Option Nat :=
  (ps.find? (fun p => p.1 % 32 ≠ 0 || 0x30000 < p.1 + n * p.2)).map Prod.fst

/-- The wide accesses of a plane in a group. -/
def planeAccs (k : Nat) (p : Nat × Nat) : List Nat := (List.range (p.2 / 32)).map (fun i => p.1 + k * p.2 + 32 * i)

/-- One element: w, m, v after the update (R169). -/
def updElem (u : UpdRec) (sgd : Bool) (w g m v : W32) : W32 × W32 × W32 :=
  let one : W32 := 0x3F800000
  let g := mulF g u.gs
  let (m', v', d) :=
    if sgd then
      let m' := fmaF u.b1 m g
      (m', v, m')
    else
      let m' := fmaF u.b1 m (mulF (subF one u.b1) g)
      let v' := fmaF u.b2 v (mulF (subF one u.b2) (mulF g g))
      (m', v', divF (mulF m' u.c1) (addF (sqrtF (mulF v' u.c2)) u.eps))
  (subF w (mulF u.lr (fmaF u.wd w d)), m', v')

/-- The number at bytes lo to lo + n − 1 of a list. -/
def leAt (bs : List Byte) (lo n : Nat) : Nat := leNat ((bs.drop lo).take n)

/-- The sixteen elements of a group after the update, from its bytes in the order of its reads. -/
def updGroup (u : UpdRec) (sgd : Bool) (bs : List Byte) : List (W32 × W32 × W32) :=
  let mAt := 64 + 16 * u.gBytes
  (List.range 16).map (fun i =>
    let w : W32 := BitVec.ofNat 32 (leAt bs (2 * i) 2 * 2 ^ 16 + leAt bs (32 + 2 * i) 2)
    let g := leAt bs (64 + u.gBytes * i) u.gBytes
    let g : W32 := if u.gfmt = 0 then BitVec.ofNat 32 g else BitVec.ofNat 32 (g * 2 ^ 16)
    updElem u sgd w g (BitVec.ofNat 32 (leAt bs (mAt + 4 * i) 4)) (if sgd then 0 else BitVec.ofNat 32 (leAt bs (mAt + 64 + 4 * i) 4)))

/-- A list cut into wide accesses of 32 bytes from an address. -/
def wideWrites (a : Nat) (bs : List Byte) : List (Nat × List Byte) :=
  (List.range (bs.length / 32)).map (fun i => (a + 32 * i, (bs.drop (32 * i)).take 32))

/-- The writes of a group in order: hi, lo, m, v. -/
def groupWrites (u : UpdRec) (sgd : Bool) (k : Nat) (xs : List (W32 × W32 × W32)) : List (Nat × List Byte) :=
  wideWrites (u.hi + 32 * k) (xs.flatMap (fun x => toLE 2 (x.1.toNat / 2 ^ 16)))
  ++ wideWrites (u.lo + 32 * k) (xs.flatMap (fun x => toLE 2 (x.1.toNat % 2 ^ 16)))
  ++ wideWrites (u.m + 64 * k) (xs.flatMap (fun x => toLE 4 x.2.1.toNat))
  ++ (if sgd then [] else wideWrites (u.v + 64 * k) (xs.flatMap (fun x => toLE 4 x.2.2.toNat)))

/-- The reads of a group in order. -/
def groupReads (u : UpdRec) (sgd : Bool) (k : Nat) : List Nat := (u.planes sgd).flatMap (planeAccs k)

/-- Access `k` of an update, access `i` of its group `g`, after the two of the record, whose bytes `got`
begins with (R98, R168): a read of a plane, or a write of the values formed from the group's reads. A trap
keeps what has been written. -/
def State.updAccess (s : State) (r : IssueRef) (c : CtxRef) (f : Fields) (u : UpdRec) (k g i : Nat) (got : List Byte) : State :=
  let sgd := f.mod.getLsbD 0
  let rs := groupReads u sgd g
  match rs[i]? with
  | some a => s.readStage r c .upd f k got a 0 (fun s got => s.hold r .upd f (k + 1) got)
  | none =>
    let ws := groupWrites u sgd g (updGroup u sgd (got.drop 64))
    match ws[i - rs.length]? with
    | none => s
    | some (a, bs) => s.dataStage r c .upd f k got true true a 32 (fun s =>
        let s := s.sramWrite r.tid a bs
        if i + 1 < rs.length + ws.length then s.hold r .upd f (k + 1) got
        else if g + 1 < u.n then s.hold r .upd f (k + 1) (got.take 64)
        else s.modThread r.tid r.thr Thread.step)

/-- The check of a record after its second read (R168): its trap, or the first group in the next slot. -/
def State.updCheck (s : State) (r : IssueRef) (c : CtxRef) (f : Fields) (a : Nat) (got : List Byte) : State :=
  let u := readUpd (bytesWords got)
  let ps := u.planes (f.mod.getLsbD 0)
  if u.rsv || 2 ≤ u.gfmt || planesOverlap u.n ps then s.trap c r.tid r.thr evUpdInvalid (a % 2 ^ 18) 0 0
  else
    match badPlane u.n ps with
    | some p => s.sramTrap r c (BitVec.ofNat 64 p) 0
    | none => s.hold r .upd f 2 got

/-- The accesses of a group: its reads and its writes. -/
def UpdRec.slots (u : UpdRec) (sgd : Bool) : Nat := (groupReads u sgd 0).length + (if sgd then 4 else 6)

/-- Access `k` of UPD.SPLIT (R98, R168): the two reads of the record, then the groups, one access in each
issue slot. -/
def State.stageUpd (s : State) (r : IssueRef) (c : CtxRef) (f : Fields) (k : Nat) (got : List Byte) : State :=
  let a := (s.thread r.tid r.thr).opA f
  if a.toNat % 64 ≠ 0 || 0x30000 < a.toNat + 64 then s.sramTrap r c a 0
  else if k < 2 then s.readStage r c .upd f k got (a.toNat + 32 * k) 0 (fun s got =>
    if k = 0 then s.hold r .upd f 1 got else s.updCheck r c f a.toNat got)
  else
    let u := readUpd (bytesWords (got.take 64))
    let n := u.slots (f.mod.getLsbD 0)
    s.updAccess r c f u k ((k - 2) / n) ((k - 2) % n) got

/-- UPD.SPLIT (R98). -/
def execUpdSplit (r : IssueRef) (f : Fields) (s : State) : Res :=
  issue s r 0x9 0x00 f (fun s c => s.stageUpd r c f 0 [])

end Sys2Proof.Machine
end

