-- ==== Sys2Proof/Machine/Vector.lean ====
section
/-!
DEFINITION. The vector instructions (R92).
-/

namespace Sys2Proof.Machine

/-- The memory stage of VLD: one wide read. -/
def State.stageVld (s : State) (r : IssueRef) (c : CtxRef) (f : Fields) : State :=
  let a := (s.thread r.tid r.thr).ea f
  if !sramOk a 32 then s.sramTrap r c a 0
  else s.dataStage r c .vld f 0 [] true false a.toNat 32 (fun s =>
    s.modThread r.tid r.thr (fun h => (h.setVr f.d (BitVec.ofNat 256 (leNat (s.sramRead r.tid a.toNat 32)))).step))

/-- The memory stage of VST: one wide write. -/
def State.stageVst (s : State) (r : IssueRef) (c : CtxRef) (f : Fields) : State :=
  let h := s.thread r.tid r.thr
  let a := h.ea f
  if !sramOk a 32 then s.sramTrap r c a 0
  else s.dataStage r c .vst f 0 [] true true a.toNat 32 (fun s =>
    (s.sramWrite r.tid a.toNat (toLE 32 (h.vr f.b).toNat)).modThread r.tid r.thr Thread.step)

/-- A vector result written to vD. -/
def State.valu (s : State) (r : IssueRef) (f : Fields) (g : Thread → W256) : State :=
  s.modThread r.tid r.thr (fun h => (h.setVr f.d (g h)).step)

/-- A vector instruction's scalar result written to sD. -/
def State.vtos (s : State) (r : IssueRef) (f : Fields) (g : W256 → W32) : State :=
  s.modThread r.tid r.thr (fun h => (h.setSr f.d ((g (h.vr f.a)).zeroExtend 64)).step)

/-- An operation of two vectors, lane by lane. -/
def Thread.lanes2 (h : Thread) (f : Fields) (op : W32 → W32 → W32) : W256 :=
  mkLanes (fun i => op (lane (h.vr f.a) i) (lane (h.vr f.b) i))

/-- VLD (R92). -/
def execVld (r : IssueRef) (f : Fields) (s : State) : Res :=
  issue s r 0x3 0x00 f (fun s c => s.stageVld r c f)

/-- VST (R92). -/
def execVst (r : IssueRef) (f : Fields) (s : State) : Res :=
  issue s r 0x3 0x01 f (fun s c => s.stageVst r c f)

/-- VFMA (R92): vA × vB + vD, rounded once. -/
def execVfma (r : IssueRef) (f : Fields) (s : State) : Res :=
  issue s r 0x3 0x02 f (fun s _ => s.valu r f (fun h =>
    mkLanes (fun i => fmaF (lane (h.vr f.a) i) (lane (h.vr f.b) i) (lane (h.vr f.d) i))))

/-- VADD (R92). -/
def execVadd (r : IssueRef) (f : Fields) (s : State) : Res :=
  issue s r 0x3 0x03 f (fun s _ => s.valu r f (fun h => h.lanes2 f addF))

/-- VSUB (R92). -/
def execVsub (r : IssueRef) (f : Fields) (s : State) : Res :=
  issue s r 0x3 0x04 f (fun s _ => s.valu r f (fun h => h.lanes2 f subF))

/-- VMUL (R92). -/
def execVmul (r : IssueRef) (f : Fields) (s : State) : Res :=
  issue s r 0x3 0x05 f (fun s _ => s.valu r f (fun h => h.lanes2 f mulF))

/-- VMAX (R92). -/
def execVmax (r : IssueRef) (f : Fields) (s : State) : Res :=
  issue s r 0x3 0x06 f (fun s _ => s.valu r f (fun h => h.lanes2 f maxF))

/-- VMIN (R92). -/
def execVmin (r : IssueRef) (f : Fields) (s : State) : Res :=
  issue s r 0x3 0x07 f (fun s _ => s.valu r f (fun h => h.lanes2 f minF))

/-- VBCAST (R92): every lane takes sA[31:0]. -/
def execVbcast (r : IssueRef) (f : Fields) (s : State) : Res :=
  issue s r 0x3 0x08 f (fun s _ => s.valu r f (fun h => mkLanes (fun _ => (h.opA f).truncate 32)))

/-- VCVT (R92, R149): MOD[3:1] is the source format, MOD[6:4] the destination. -/
def execVcvt (r : IssueRef) (f : Fields) (s : State) : Res :=
  issue s r 0x3 0x09 f (fun s _ => s.valu r f (fun h => vcvt (bits f.mod.toNat 3 1) (bits f.mod.toNat 6 4) (h.vr f.a)))

/-- VREDS (R92). -/
def execVreds (r : IssueRef) (f : Fields) (s : State) : Res :=
  issue s r 0x3 0x0A f (fun s _ => s.vtos r f (treeF addF))

/-- VREDM (R92). -/
def execVredm (r : IssueRef) (f : Fields) (s : State) : Res :=
  issue s r 0x3 0x0B f (fun s _ => s.vtos r f (treeF maxF))

/-- VEXT (R92): lane IMM[2:0]. -/
def execVext (r : IssueRef) (f : Fields) (s : State) : Res :=
  issue s r 0x3 0x0C f (fun s _ => s.vtos r f (fun v => lane v (bits f.imm.toNat 2 0)))

end Sys2Proof.Machine
end

