-- ==== Sys2Proof/Machine/Superstep.lean ====
section
/-!
DEFINITION. Supersteps: SYNC, HALT, arrival, overruns, boundaries, watch steps (R51 to R54, R57 to R62, R73,
R75, R99, R103, R173, R229). -/

namespace Sys2Proof.Machine

/-! ### Control instructions (R99) -/

/-- Whether a thread of a tile comes before another under R57. -/
def candBefore (a : Nat × Nat × BitVec 8) (t n : Nat) : Bool := a.1 < t || (a.1 = t && a.2.1 ≤ n)

/-- SYNC (R51, R57, R99). -/
def execSync (r : IssueRef) (f : Fields) (s : State) : Res :=
  issue s r 0xA 0x00 f (fun s c =>
    let x := s.ctx c
    let b : BitVec 8 := BitVec.ofNat 8 (bits f.imm.toNat 7 0)
    let cand := match x.run.cand with
      | some a => if candBefore a r.tid r.thr then a else (r.tid, r.thr, b)
      | none => (r.tid, r.thr, b)
    (s.setCtx c { x with run := { x.run with cand := some cand } }).modThread r.tid r.thr
      (fun h => { h with st := .blocked, wait := .sync }))

/-- NOP (R99). -/
def execNop (r : IssueRef) (f : Fields) (s : State) : Res :=
  issue s r 0xA 0x02 f (fun s _ => s.modThread r.tid r.thr Thread.step)

/-! ### DONE (R73, R75, R229) -/

/-- The flags of a context on a die that differ from their values at START: tile, number and whether global,
in the order of R229. -/
def State.flagDiffs (s : State) (c : CtxRef) (d : Nat) : List (Nat × Nat × Bool) :=
  let x := s.ctx c
  (x.tidsOn d).flatMap (fun t =>
      let diff := (s.tile t).flags ^^^ sget 0 x.run.snapT t
      if diff = 0 then [] else ((List.range 64).filter (fun n => diff.getLsbD n)).map (fun n => (t, n, false)))
    ++ (((s.die d).flg.gfOwn.filter (fun e => e.2 = c.slot + 1)).map Prod.fst).filterMap (fun n =>
      if s.flag (.glob d n) = x.run.snapG.contains (d, n) then none else some (0, n, true))

/-- FLG_LEFT_c of a die and FLAG_LEFT where a flag differs (R229). -/
def State.flagLeft (s : State) (c : CtxRef) (d : Nat) : State :=
  match s.flagDiffs c d with
  | [] => s
  | q :: qs =>
    let v := q.2.1 + at_ 12 (b1 q.2.2) + at_ 13 q.1 + at_ 32 (min 0xFFFF (qs.length + 1)) + at_ 63 1
    let x := s.die d
    (s.setDie d { x with flg := { x.flg with left := sput x.flg.left c.slot (BitVec.ofNat 64 v) } }).raise d evFlagLeft (s.infoCtx c 0)

/-- A context enters DONE: waiting HALTs are answered, and its flags are compared. -/
def State.enterDone (s : State) (c : CtxRef) : State :=
  let x := s.ctx c
  let s := s.setCtx c { x with st := .done, run := { x.run with haltBy := [] } }
  let s := forAll (diesOf s.layout c.part) (fun s d => s.flagLeft c d) s
  forAll x.run.haltBy (fun s r => s.replyCode r codeOk) s

/-- Whether every thread of a tile has halted. -/
def Tile.allHalted (x : Tile) : Bool := x.thr.all (fun h => h.2.st = .halted)

/-- DONE once every thread of every tile has halted. -/
def State.doneIf (s : State) (c : CtxRef) : State :=
  if (s.ctx c).st = .running && (s.ctx c).tids.all (fun t => (s.tile t).allHalted) then s.enterDone c else s

/-- HALT (R73, R99). -/
def execHalt (r : IssueRef) (f : Fields) (s : State) : Res :=
  issue s r 0xA 0x01 f (fun s c =>
    (s.modThread r.tid r.thr (fun h => { h.step with st := .halted })).doneIf c)

/-! ### Replays (R103) -/

/-- The memory stage of access `k` of an instruction. -/
def State.restage (s : State) (r : IssueRef) (c : CtxRef) (op : DataOp) (f : Fields) (k : Nat) (got : List Byte) : State :=
  match op with
  | .load n sx => s.stageLoad r c f n sx
  | .store n => s.stageStore r c f n
  | .vld => s.stageVld r c f
  | .vst => s.stageVst r c f
  | .send => s.stageSend r c f false k got
  | .sendw => s.stageSend r c f true k got
  | .recv => s.stageRecv r c f k
  | .cjob => s.stageCjob r c f k got
  | .sopen => s.stageSopen r c f k got
  | .upd => s.stageUpd r c f k got

/-- Whether a held access may be made in a tile cycle: a CJOB posts after those of earlier tile cycles and
lower lanes (R133), and a RECV copies from the tile cycle after the message's arrival on (R216). -/
def State.mayReplay (s : State) (r : IssueRef) (op : DataOp) (k : Nat) : Bool :=
  match op with
  | .cjob => k = 0 || (s.cluster (cidOfTile r.tid)).posted < postPlace r.tid (r.cyc + 4)
  | .recv => ((s.tile r.tid).takenBy r.thr).all (fun m => m.cyc < r.cyc)
  | .load _ _ => true
  | .store _ => true
  | .vld => true
  | .vst => true
  | .send => true
  | .sendw => true
  | .sopen => true
  | .upd => true

/-- CORE_DATA_REPLAY (R98, R103, R131, R184, R210, R214): the access that holds a thread in its instruction,
at its next issue slot: one that was refused, or the next one of an instruction that makes several. -/
def execCoreDataReplay (r : IssueRef) (s : State) : Res :=
  if !r.ok then .fault .noSuchUnit
  else
    match s.canIssue r, (s.thread r.tid r.thr).wait with
    | some c, .replay op f k got => if s.mayReplay r op k then .next ((s.passSlot r).restage r c op f k got) else .next s
    | _, _ => .next s

/-! ### Arrival (R51, R253, R260, R281) -/

/-- Whether a tile's threads and its cluster's jobs let it arrive (R51). -/
def State.tileReady (s : State) (t : Nat) : Bool :=
  (s.tile t).thr.all (fun h => h.2.st = .halted || h.2.wait = .sync) && (s.cluster (cidOfTile t)).jobs.isEmpty

/-- Whether a tile stands at the barrier: it has arrived, or it holds no thread that runs. A fenced tile never
does (R54). -/
def State.tileIn (s : State) (t : Nat) : Bool :=
  !(s.tile t).fenced && ((s.tile t).arrived || ((s.tile t).allHalted && s.tileReady t))

/-- The context arrives on the module: its scatters run, its ports take their lists, and Thistle learns of it. -/
def State.arriveCtx (s : State) (c : CtxRef) : State :=
  let x := s.ctx c
  let s := s.setCtx c { x with run := { x.run with arrAt := some s.now, phase := .barrier } }
  let s := s.scatterAll c
  if (s.ctx c).st ≠ .running then s
  else
    let s := forAll (s.portsOf c) (fun s p => s.setXch p { (s.port p).xch with slots := (s.port p).xch.build }) s
    (s.setThs c { s.ths c with self := true }).thsTry c

/-- TILE_ARRIVAL (R51): a tile arrives; with the last one its context does. A fenced tile does not arrive (R54). -/
def execTileArrival (tid : Nat) (s : State) : Res :=
  if !tidOk tid then .fault .noSuchUnit
  else
    match s.ctxOfTile tid with
    | none => .next s
    | some c =>
      if s.computing c && s.tileReady tid && !(s.tile tid).fenced && s.hbmOn then
        let s := s.setTile tid { s.tile tid with arrived := true, xch := { (s.tile tid).xch with readAt := some ((s.cluster (cidOfTile tid)).tileCyc + 1) } }
        if (s.ctx c).tids.all s.tileIn then .next (s.arriveCtx c) else .next s
      else .next s

/-- COMPUTE_OVERRUN (R58, R60): D has passed before the context has arrived; a Strict context with MISS_ACT
faults as the nanosecond ends. -/
def execComputeOverrun (c : CtxRef) (s : State) : Res :=
  if !c.ok then .fault .noSuchUnit
  else if s.computing c && (s.ctx c).run.arrAt.isNone then
    .next (s.instantMiss c causeComputeOverrun (fun _ => 1)
      ((s.ctx c).dies.filter (fun d => s.budget c d ≠ 0 && s.deadline c d < s.now)))
  else .next s

/-! ### Boundaries (R53, R57, R59, R61, R75, R173) -/

/-- The causes that a die found in a superstep (R58, R59). -/
def State.missCauses (s : State) (c : CtxRef) (d : Nat) : Nat :=
  let x := (s.ctx c).run
  let past : Bool := match x.arrAt with | none => false | some a => s.budget c d ≠ 0 && s.deadline c d < a
  (if past then causeComputeOverrun else 0) + (if s.barrierLate c x.tbc.toNat d ≠ 0 then causeBarrierLate else 0)
    + (if x.late.getLsbD d then causeLateConsumer else 0) + (if x.slotOver.getLsbD d then causeSlotOverrun else 0)

/-- The compute part of the overrun and of the stretch (R59, R61): how late the arrival or T_bc is, when positive. -/
def State.computeLate (s : State) (c : CtxRef) (d : Nat) : Nat :=
  let x := (s.ctx c).run
  if s.budget c d = 0 then 0
  else
    match x.arrAt with
    | none => 0
    | some a => max (a - s.deadline c d) (x.tbc.toNat - (s.deadline c d + (s.ss d c.slot).allow.toNat))

/-- The overrun that a miss records (R59): the largest of its three values, but 0 where LATE_CONSUMER is the
only cause. -/
def State.overrun (s : State) (c : CtxRef) (exc d : Nat) : Nat :=
  if s.missCauses c d = causeLateConsumer then 0 else max (s.computeLate c d) exc

/-- The lateness of a superstep settled on a die at the end of the exchange: `exc` is the exchange's excess. -/
def State.settleDie (s : State) (c : CtxRef) (exc d : Nat) : State :=
  let k := s.missCauses c d
  if k = 0 then s
  else
    let strict := (s.ctx c).strict
    let s1 := if strict && (s.ss d c.slot).missAct then s else s.addStretch c d (s.computeLate c d + exc)
    if strict then s1.recordMiss c d k (s.overrun c exc d) else s1

/-- The lateness of a superstep settled on every die; a Strict miss with MISS_ACT faults. -/
def State.settle (s : State) (c : CtxRef) (exc : Nat) : State :=
  let ds := (s.ctx c).dies
  let fatal := (s.ctx c).strict && ds.any (fun d => s.missCauses c d ≠ 0 && (s.ss d c.slot).missAct)
  let s1 := forAll ds (fun s d => s.settleDie c exc d) s
  if fatal then s1.missFault c (ds.foldl (fun b d => b ||| s.missCauses c d) 0) else s1

/-- The countdowns of a context's watch slots on a die (R173). -/
def State.countWatch (s : State) (c : CtxRef) (d : Nat) : State :=
  let x := s.die d
  s.setDie d { x with watch := x.watch.map (fun e =>
    (e.1, if s.watchOwned d e.1 c then { e.2 with count := e.2.count - 1 } else e.2)) }

/-- A tile's thread released from SYNC. -/
def Thread.unsync (h : Thread) (cyc : Nat) : Thread := if h.wait = .sync then h.wake cyc else h

/-- A tile at the beginning of a compute phase, in a tile cycle: its threads go on, its unit takes the next
list. -/
def Tile.nextPhase (x : Tile) (cyc : Nat) : Tile :=
  { x with thr := x.thr.map (fun h => (h.1, h.2.unsync cyc)), arrived := false,
           xch := { x.xch with list := [], readAt := none, read := false, sent := [], got := [],
                               next := match x.xch.list.getLast? with
                                 | some e => if x.xch.read then some (fld e.w1 17 0) else x.xch.next
                                 | none => x.xch.next } }

/-- A port at the beginning of a compute phase: the list that END names. -/
def PortXch.nextPhase (x : PortXch) : PortXch :=
  { x with slots := [], muted := [], next := match x.list.2 with
      | some e => BitVec.ofNat 8 e.next
      | none => x.next }

/-- A POWER_MODE change in progress reaches a cluster (R124, R359). -/
def State.followMode (s : State) (cid : Nat) : State :=
  match s.plat.change with
  | none => s
  | some q => s.orderMode cid q.envelope

/-- The next superstep of a context: SSN, budget, early ARRIVEs, countdowns; threads run unless a HALT waits;
a POWER_MODE change takes effect (R53, R57, R75, R261, R359). -/
def State.nextSuperstep (s : State) (c : CtxRef) : State :=
  let x := s.ctx c
  let run := { x.run with ssn := x.run.ssn + 1, tcs := s.now, wdogAt := s.now, cand := none, arrAt := none, tbcV := false, digest := [],
                          inbox := x.run.inbox.filter (fun e => e.1 ≠ x.run.ssn),
                          budIdx := match x.run.cand with | some a => a.2.2 | none => x.run.budIdx }
  let run := { run with late := 0, slotOver := 0, phase := if x.run.haltBy.isEmpty then .compute else .boundary }
  let s := s.setCtx c { x with run := run }
  let s := forAll x.cids State.followMode s
  let s := forAll x.tids (fun s t => s.setTile t ((s.tile t).nextPhase (s.cluster (cidOfTile t)).tileCyc)) s
  let s := forAll (s.portsOf c) (fun s p => s.setXch p (s.port p).xch.nextPhase) s
  let t := s.ths c
  let s := s.setThs c { t with self := false, sent := false, arr := t.early, early := 0 }
  forAll (diesOf s.layout c.part) (fun s d => s.countWatch c d) s

/-- HALT_TAKES_EFFECT (R75). -/
def execHaltTakesEffect (c : CtxRef) (s : State) : Res :=
  if !c.ok then .fault .noSuchUnit
  else
    let x := s.ctx c
    if x.st = .running && x.run.phase = .boundary then
      let s := s.setCtx c { x with st := .halted, run := { x.run with phase := .compute, haltBy := [] } }
      .next (forAll x.run.haltBy (fun s r => s.replyCode r codeOk) s)
    else .next s

/-- PERIOD and ZTHR of a watch slot (R176). -/
def Watch.period (k : Watch) : Nat := bits k.cfg.toNat 15 0 + 1
def Watch.zthr (k : Watch) : Nat := bits k.cfg.toNat 31 16

/-- A watch slot after the close of a step, and whether NUM_ZERO_STREAK is due (R173). -/
def Watch.close (k : Watch) : Watch × Bool :=
  let any := k.stat.getLsbD 16
  let nz := k.stat.getLsbD 17
  let str := bits k.stat.toNat 15 0
  let str' := if any && !nz then min (str + 1) 0xFFFF else if nz then 0 else str
  let alarm : Bool := any && !nz && k.zthr ≠ 0 && str' = k.zthr && str ≠ str'
  let st := setBits (setBits k.stat 15 0 str') 18 16 0
  ({ k with stat := if alarm then putBit st 24 true else st, step := k.step + 1, count := k.period, told := false, newF := 0 }, alarm)

/-- The context that owns a watch slot (R176). -/
def Watch.owner (k : Watch) : Option CtxRef :=
  if k.own.getLsbD 5 then some ⟨bits k.own.toNat 4 3, bits k.own.toNat 2 0⟩ else none

/-- WATCH_STEP_CLOSE (R173): a slot whose countdown has reached 0. A slot assigned while its context is HALTED
has a countdown of 0 (DESIGN CHOICE, log entry 21). -/
def execWatchStepClose (die slot : Nat) (s : State) : Res :=
  if !(dieOk die && slot < 256) then .fault .noSuchUnit
  else
    let x := s.die die
    let k := sget {} x.watch slot
    match k.owner with
    | none => .next s
    | some c =>
      if k.count = 0 && (s.ctx c).live && !s.asleep then
        let (k', alarm) := k.close
        let s := s.setDie die { x with watch := sput x.watch slot k' }
        let s := if alarm then s.hwSet (bar0Bit die (0x70000 + 0x40 * slot + 0x28) 56) else s
        .next (if alarm then s.raise die evNumZeroStreak (s.infoCtx c (BitVec.ofNat 64 (slot + at_ 32 k.step.toNat))) else s)
      else .next s

end Sys2Proof.Machine
end

