-- ==== Sys2Proof/Machine/Exchange.lean ====
section
/-!
DEFINITION. On-module exchange: lists, routes, units, collisions (R56, R243 to R252, R265).
-/

namespace Sys2Proof.Machine

/-! ### Entries (R249) -/

def XEntry.kind (e : XEntry) : Nat := fld e.w0 3 0
def XEntry.lane (e : XEntry) : Nat := fld e.w0 4 4
def XEntry.yx (e : XEntry) : Bool := fld e.w0 5 5 = 1
def XEntry.peer (e : XEntry) : Nat := fld e.w0 18 6
def XEntry.port (e : XEntry) : Nat := fld e.w0 22 19
def XEntry.start (e : XEntry) : Nat := fld e.w0 47 24
def XEntry.addr (e : XEntry) : Nat := fld e.w1 17 0
def XEntry.count (e : XEntry) : Nat := fld e.w1 29 18 + 1
def XEntry.pbuf (e : XEntry) : Nat := fld e.w1 44 30

def XEntry.isEnd (e : XEntry) : Bool := e.kind = 0
def XEntry.isSend (e : XEntry) : Bool := e.kind = 1 || e.kind = 3
def XEntry.isRecv (e : XEntry) : Bool := e.kind = 2

/-- The END entry of a list. -/
def listEnd (l : List XEntry) : Option XEntry := l.find? XEntry.isEnd

/-- An entry read from a tile's SRAM. -/
def State.xEntryAt (s : State) (t a : Nat) : XEntry :=
  let w (b : Nat) : W64 := BitVec.ofNat 64 (leNat ((List.range 8).map (fun i => s.feedByte t (b + i))))
  ⟨w a, w (a + 8)⟩

/-- The exchange unit after it has read one more entry of its list: END, the 64th entry, or an entry beyond
the SRAM ends the list; the next read is in the next tile cycle. -/
def State.readEntry (s : State) (t cyc a : Nat) : XUnit :=
  let u := (s.tile t).xch
  if 0x30000 < a + 16 then { u with read := true }
  else
    let e := s.xEntryAt t a
    { u with list := u.list ++ [e], readAt := some (cyc + 1), read := e.isEnd || 64 ≤ u.list.length + 1 }

/-- Whether the exchange unit of a tile reads the entry at an address in a tile cycle. -/
def State.readsAt (s : State) (t cyc a : Nat) : Bool :=
  match (s.tile t).xch.readAt with
  | some k => k = cyc
  | none => cyc = (s.cluster (cidOfTile t)).tileCyc && !s.bankTaken t cyc prioExchange (wideMask a)

/-- EXCHANGE_LIST_READ (R249): the next entry of the list, read in a tile cycle: the first in the one after
the tile's arrival, each further one in the next. A tile whose threads had all halted before the phase has no
tile cycle of arrival, and its first read gives it, in a cycle whose banks no other request has (log entry 27). -/
def execExchangeListRead (tid cyc : Nat) (s : State) : Res :=
  if !tidOk tid then .fault .noSuchUnit
  else
    let x := s.tile tid
    match s.ctxOfTile tid, x.xch.next with
    | some c, some a =>
      if (s.ctx c).st = .running && (s.ctx c).run.phase ≠ .exchange && s.tileIn tid && !x.xch.read && !x.fenced
          && s.readsAt tid cyc (a + 16 * x.xch.list.length) then
        let a := a + 16 * x.xch.list.length
        let u := s.readEntry tid cyc a
        .next (({ s with free := s.free + 1 } : State).setTile tid { x.grant cyc prioExchange (wideMask a) with xch := u })
      else .next s
    | _, _ => .next s

/-! ### Routes (R243 to R248) -/

/-- The logical router of a tile, and of a port's attachment (R243). -/
def routerOf (t : Nat) : Nat × Nat :=
  (16 * (t / 4096) + t / 64 % 32 / 2, 32 * (t / 2048 % 2) + t % 64 / 2)
def portRouter (p : Nat) : Nat × Nat :=
  (16 * (p / 8) + 4 * (p % 4) + 2, if p / 4 % 2 = 0 then 0 else 63)

/-- The die and the cluster of a router. -/
def routerDie (r : Nat × Nat) : Nat := 2 * (r.1 / 16) + r.2 / 32
def routerCid (r : Nat × Nat) : Nat := 8 * routerDie r + r.1 % 16 / 2

/-- OUT codes of XCH_ERR (R265). -/
def outNorth : Nat := 0
def outEast : Nat := 1
def outSouth : Nat := 2
def outWest : Nat := 3
def outTile : Nat := 4
def outPort : Nat := 5

/-- The output by which a unit leaves a router on its way to another (R245); `here` at the last one. -/
def outOf (r dst : Nat × Nat) (yx : Bool) (here : Nat) : Nat :=
  let col := if r.2 < dst.2 then outEast else outWest
  let row := if r.1 < dst.1 then outSouth else outNorth
  if r = dst then here
  else if yx then (if r.1 ≠ dst.1 then row else col)
  else if r.2 ≠ dst.2 then col else row

/-- The router at the other end of an output. -/
def stepOut (r : Nat × Nat) (o : Nat) : Nat × Nat :=
  if o = outNorth then (r.1 - 1, r.2) else if o = outSouth then (r.1 + 1, r.2)
  else if o = outEast then (r.1, r.2 + 1) else if o = outWest then (r.1, r.2 - 1) else r

/-- The routers of a route, the first and the last included. -/
def route (dst : Nat × Nat) (yx : Bool) : Nat → Nat × Nat → List (Nat × Nat)
  | 0, r => [r]
  | n + 1, r => if r = dst then [r] else r :: route dst yx n (stepOut r (outOf r dst yx outTile))

/-- Where an entry's units go. -/
def XEntry.dest (e : XEntry) (k : Nat) : XDest := if e.kind = 3 then .port e.port (e.pbuf + k) else .tile e.peer

def destRouter : XDest → Nat × Nat
  | .tile t => routerOf t
  | .port p _ => portRouter p

/-- Whether a cluster is disabled by fuses (R33). -/
def State.disabled (s : State) (cid : Nat) : Bool := s.fuses.dis.getLsbD cid

/-- Whether a context's routes may pass a router (R248). -/
def State.passes (s : State) (c : CtxRef) (r : Nat × Nat) : Bool :=
  partOfDie s.layout (routerDie r) = c.part &&
    ((s.ctx c).clusters.getLsbD (routerCid r) || s.disabled (routerCid r))

/-- Whether a tile is one of the context's. -/
def State.isTileOf (s : State) (c : CtxRef) (t : Nat) : Bool := (s.ctx c).clusters.getLsbD (cidOfTile t)

/-- Whether a context may name a port in a list (R248). -/
def State.portUsable (s : State) (c : CtxRef) (p : Nat) : Bool :=
  partOfDie s.layout (dieOfPort p) = c.part && (s.ctx c).clusters.getLsbD (routerCid (portRouter p))
    && (match (s.port p).xch.owner with | none => true | some o => o = c)

/-! ### List checks (R250) -/

/-- An entry that breaks cause 1. -/
def XEntry.invalid (e : XEntry) (t : Nat) : Bool :=
  3 < e.kind || fld e.w0 23 23 ≠ 0 || fld e.w0 63 48 ≠ 0 || fld e.w1 63 45 ≠ 0
    || ((e.kind = 1 || e.kind = 2) && e.peer = t)
    || e.addr % 32 ≠ 0 || 0x30000 < e.addr + 32 * (if e.isEnd then 1 else e.count)
    || (e.kind = 3 && 32768 < e.pbuf + e.count)

/-- Entries of one direction out of order or overlapping. -/
def unordered : List XEntry → Bool
  | [] => false
  | e :: es =>
    (match es with | [] => false | f :: _ => f.start < e.start + e.count) || unordered es

/-- Whether two entries share a bank group. -/
def XEntry.sharesGroup (e f : XEntry) : Bool :=
  [0, 1, 2].any (fun g => overlaps e.addr (32 * e.count) (65536 * g) 65536 && overlaps f.addr (32 * f.count) (65536 * g) 65536)

/-- A list that breaks cause 2. -/
def misordered (l : List XEntry) (len : Nat) : Bool :=
  let ss := l.filter XEntry.isSend
  let rs := l.filter XEntry.isRecv
  unordered ss || unordered rs || (ss ++ rs).any (fun e => len < e.start + e.count)
    || ss.any (fun e => rs.any (fun f => overlaps e.start e.count f.start f.count && e.sharesGroup f))

/-- An entry that breaks cause 3. -/
def State.badRoute (s : State) (c : CtxRef) (t : Nat) (e : XEntry) : Bool :=
  (e.kind ≠ 3 && !e.isEnd && !(s.isTileOf c e.peer && !s.disabled (cidOfTile e.peer)))
    || (e.kind = 3 && !s.portUsable c e.port)
    || (e.isSend && (route (destRouter (e.dest 0)) e.yx 96 (routerOf t)).any (fun r => !s.passes c r))

/-- The LEN of a tile's list (R250). DESIGN CHOICE (log entry 27): a list without an END has LEN 0. -/
def Tile.xlen (x : Tile) : Nat := match listEnd x.xch.list with | some e => e.start | none => 0

/-- The reference LEN of a context's phase (R250); 0 where it has no tile list and holds no port, for which no
rule gives a length (R56; DESIGN CHOICE, log entry 60). -/
def State.refLen (s : State) (c : CtxRef) : Nat :=
  match (s.ctx c).tids.find? (fun t => (s.tile t).xch.next.isSome) with
  | some t => (s.tile t).xlen
  | none =>
    match s.portsOf c with
    | [] => 0
    | p :: _ => match (s.port p).xch.list.2 with | some e => e.off | none => 0

/-- The lowest-numbered of causes 1 to 4 that a tile's list breaks. -/
def State.listCause (s : State) (c : CtxRef) (ref t : Nat) : Option Nat :=
  let l := (s.tile t).xch.list
  let len := (s.tile t).xlen
  if (listEnd l).isNone || l.any (fun e => e.invalid t) then some 1
  else if misordered l len then some 2
  else if l.any (s.badRoute c t) then some 3
  else if len % 64 ≠ 0 || len ≠ ref then some 4
  else none

/-- Whether a port's list breaks cause 4. -/
def State.portLenBad (s : State) (ref p : Nat) : Bool :=
  match (s.port p).xch.list.2 with
  | some e => e.off % 64 ≠ 0 || e.off ≠ ref
  | none => true

/-- XCH_ERR of a die: a record that is held is not changed (R265); the first error of a nanosecond is kept for a
write to V in it. -/
def State.xchRecord (s : State) (d : Nat) (w0 w1 : Nat) : State :=
  let x := s.die d
  let r0 : W64 := BitVec.ofNat 64 (w0 + at_ 63 1)
  let r1 : W64 := BitVec.ofNat 64 w1
  let x := if x.xnewAt = some s.now then x else { x with xnewAt := some s.now, xnew0 := r0, xnew1 := r1 }
  s.setDie d (if x.xerr0.getLsbD 63 then x else { x with xerr0 := r0, xerr1 := r1 })

/-- A write of 1 to V of XCH_ERR: an error of the same nanosecond stays held in its place (R18, R265). -/
def Die.clearXerr (x : Die) (now : Nat) : Die :=
  if x.xnewAt = some now then { x with xerr0 := x.xnew0, xerr1 := x.xnew1 } else { x with xerr0 := putBit x.xerr0 63 false }

/-- A failed list or arrival check: its record and XCH_LIST_ERROR (R250, R265). -/
def State.listError (s : State) (c : CtxRef) (d tid cause cycle : Nat) : State :=
  (s.xchRecord d (cycle % 2 ^ 24 + at_ 39 cause + at_ 43 (s.cxh c).toNat) (tid + at_ 32 (s.ctx c).run.ssn.toNat)).raise d evXchListError
    { s.infoCtx c 0 with tid := BitVec.ofNat 13 tid }

/-- The checks before the phase: every list that fails is reported, and the context faults. A port list that
fails is reported with TID 0 (DESIGN CHOICE, log entry 27). -/
def State.checkLists (s : State) (c : CtxRef) : State :=
  let ref := s.refLen c
  let bad := (s.ctx c).tids.filterMap (fun t =>
    if (s.tile t).xch.next.isSome then (s.listCause c ref t).map (fun k => (t, k)) else none)
  let ports := (s.portsOf c).filter (s.portLenBad ref)
  let s1 := forAll bad (fun s b => s.listError c (dieOfTile b.1) b.1 b.2 0xFFFFFF) s
  let s1 := forAll ports (fun s p => s.listError c (dieOfPort p) 0 4 0xFFFFFF) s1
  if bad.isEmpty && ports.isEmpty then s1 else s1.faultEvent c evXchListError

/-! ### Units (R250 to R252) -/

/-- Whether a context is in its exchange phase; one that faults is until the exchange cycle of its fault has
ended (R362). -/
def State.exchanging (s : State) (c : CtxRef) : Bool :=
  let x := s.ctx c
  s.plat.pf && !s.asleep && x.run.phase = .exchange && (x.st = .running || (x.st = .faulted && (x.run.faultAt.map Prod.fst) = some s.now))

/-- Whether the exchange unit of a tile works in an exchange cycle: in its context's phase, and after a fault
up to the end of the cycle in which the stop reaches it, at most 2 µs later (R251, R362). -/
def State.unitRuns (s : State) (c : CtxRef) (t cyc : Nat) : Bool :=
  let x := s.ctx c
  s.plat.pf && !s.asleep && x.run.phase = .exchange &&
    (x.st = .running || (x.st = .faulted &&
      (match x.run.faultAt with | none => false | some (at_, n) => cyc ≤ at_ + min (Config.stopDelay n t) 2000)))

/-- The HT of an exchange cycle. -/
def State.xAt (s : State) (c : CtxRef) (n : Nat) : Nat := (s.ctx c).run.xstart.toNat + n

/-- A number that no unit in the mesh has. -/
def State.freshUnit (s : State) : Nat := s.flights.foldl (fun m f => max m (f.id + 1)) 0

/-- The 32 bytes at an address as a unit, and back. -/
def unitOf (bs : List Byte) : W256 := BitVec.ofNat 256 (leNat bs)
def unitBytes (v : W256) : List Byte := toLE 32 v.toNat

/-- EXCHANGE_UNIT_SEND (R250, R252): unit k of an entry leaves its tile port in cycle START + k. -/
def execExchangeUnitSend (tid entry k : Nat) (s : State) : Res :=
  if !(tidOk tid && entry < 64) then .fault .noSuchUnit
  else
    let x := s.tile tid
    match s.ctxOfTile tid, x.xch.list[entry]? with
    | some c, some e =>
      if s.unitRuns c tid (s.xAt c (e.start + k)) && e.isSend && k < e.count && !x.xch.sent.contains (entry, k) && !x.fenced
          && s.xAt c (e.start + k) ≤ s.now then
        let a := e.addr + 32 * k
        let f : Flight := { id := s.freshUnit, ctx := c, cxh := s.cxh c, src := tid, dest := e.dest k,
                            data := unitOf ((List.range 32).map (fun i => s.feedByte tid (a + i))), lane := e.lane, yx := e.yx,
                            rr := (routerOf tid).1, rc := (routerOf tid).2, cycle := s.xAt c (e.start + k) }
        let y := x.grant (s.cluster (cidOfTile tid)).tileCyc prioExchange (wideMask a)
        .next (({ s with flights := s.flights ++ [f] } : State).setTile tid
          { y with xch := { y.xch with sent := (entry, k) :: y.xch.sent } })
      else .next s
    | _, _ => .next s

/-- The number of the lane resource behind an output: the columns 2c and 2c + 1 share the channel of a row
edge (R246). -/
def chanOf (r : Nat × Nat) (o : Nat) : Nat :=
  let edge : Bool := (o = outSouth && r.1 = 15) || (o = outNorth && r.1 = 16)
  ((64 * r.1 + (if edge then r.2 / 2 * 2 else r.2)) * 8) + o

/-- The number of the lane resource of a unit's output: each of the four tile ports of a router has a lane of
its own (R24, R244). -/
def laneOf (r : Nat × Nat) (o : Nat) (dest : XDest) : Nat :=
  match dest with
  | .tile t => if o = outTile then 16384 + t else chanOf r o
  | .port _ _ => chanOf r o

/-- A collision (R251): both units are dropped, the record is made, and their contexts fault. -/
def State.collide (s : State) (f : Flight) (u : LaneUse) (o cycle lane : Nat) : State :=
  let d := routerDie (f.rr, f.rc)
  let s := { s with flights := s.flights.filter (fun g => g.id ≠ f.id && g.id ≠ u.unit) }
  let n := cycle - (s.ctx f.ctx).run.xstart.toNat
  let w0 := n % 2 ^ 24 + at_ 24 f.rr + at_ 29 f.rc + at_ 35 o + at_ 38 lane + at_ 43 f.cxh.toNat
  let w1 := u.src + at_ 16 f.src + at_ 32 (s.ctx f.ctx).run.ssn.toNat
  let s := (s.xchRecord d w0 w1).raise d evXchCollide (s.infoCtx f.ctx 0)
  (s.faultEvent f.ctx evXchCollide).faultEvent u.ctx evXchCollide

/-- Whether a tile at the end of a unit's route is fenced: its port discards the unit without a collision (R252). -/
def State.fencedDest (s : State) (f : Flight) (o : Nat) : Bool :=
  match f.dest with
  | .tile t => o = outTile && (s.tile t).fenced
  | .port _ _ => false

/-- A unit forwarded by a router (R245, R250, R251). The cycle of a collision is that of the entry into the
router, at a tile output that of the arrival (DESIGN CHOICE, log entry 27). -/
def State.hop (s : State) (f : Flight) : State :=
  let r := (f.rr, f.rc)
  let isPort : Bool := match f.dest with | .tile _ => false | .port _ _ => true
  let o := outOf r (destRouter f.dest) f.yx (if isPort then outPort else outTile)
  let last : Bool := o = outTile || o = outPort
  let at' := if o = outTile then f.cycle + 2 else f.cycle
  let lane := if o = outTile then 0 else f.lane
  let ch := laneOf r o f.dest
  if s.fencedDest f o then { s with flights := s.flights.filter (fun g => g.id ≠ f.id) }
  else
    match s.lanes.find? (fun u => u.cycle = at' && u.chan = ch && u.lane = lane) with
    | some u => s.collide f u o at' lane
    | none =>
      let use_ : LaneUse := { ctx := f.ctx, cycle := at', chan := ch, lane := lane, unit := f.id, src := f.src }
      let q := stepOut r o
      let f' : Flight := { f with rr := q.1, rc := q.2, arrived := last,
                                  cycle := f.cycle + 2 + (if routerDie q ≠ routerDie r || o = outPort then 4 else 0) }
      { s with lanes := use_ :: s.lanes.filter (fun u => s.now ≤ u.cycle + 1000),
               flights := s.flights.map (fun g => if g.id = f.id then f' else g) }

/-- EXCHANGE_UNIT_HOP (R251): the unit numbered `u` leaves the router that it has entered. -/
def execExchangeUnitHop (u : Nat) (s : State) : Res :=
  match s.flights.find? (fun f => f.id = u) with
  | none => .next s
  | some f => when_ (!f.arrived && f.cycle ≤ s.now && s.plat.pf && !s.asleep) s (s.hop f)

/-- The RECV entry that covers a cycle, with its index. -/
def recvAt (l : List XEntry) (n : Nat) : Option (Nat × XEntry) :=
  (l.zipIdx.find? (fun e => e.1.isRecv && e.1.start ≤ n && n < e.1.start + e.1.count)).map (fun e => (e.2, e.1))

/-- A unit written by the RECV entry that expects it, or UNEXPECTED. A write into a group without power is
discarded and raises BANK_OFF (R202). -/
def State.unitIn (s : State) (c : CtxRef) (f : Flight) (t : Nat) : State :=
  let x := s.tile t
  let n := f.cycle - (s.ctx c).run.xstart.toNat
  let bad := (s.listError c (dieOfTile t) t 5 n).faultEvent c evXchListError
  match recvAt x.xch.list n with
  | none => bad
  | some (i, e) =>
    if e.peer ≠ f.src then bad
    else
      let a := e.addr + 32 * (n - e.start)
      let s := if (s.bank (cidOfTile t) (groupOf a)).serves then s.sramWrite t a (unitBytes f.data) else s.bankOff c t a 0
      let y := (s.tile t).grant (s.cluster (cidOfTile t)).tileCyc prioExchange (wideMask a)
      s.setTile t { y with xch := { y.xch with got := (i, n - e.start) :: y.xch.got } }

/-- EXCHANGE_UNIT_ARRIVAL (R250, R252): the unit reaches its tile or port; one of a stale epoch or of a
stopped context is dropped. -/
def execExchangeUnitArrival (u : Nat) (s : State) : Res :=
  match s.flights.find? (fun f => f.id = u) with
  | none => .next s
  | some f =>
    if !(f.arrived && f.cycle ≤ s.now) || !s.plat.pf || s.asleep then .next s
    else
      let s := { s with flights := s.flights.filter (fun g => g.id ≠ u) }
      match f.dest with
      | .tile t =>
        if (s.tile t).fenced || s.cxh f.ctx ≠ f.cxh || !s.unitRuns f.ctx t f.cycle then .next s
        else
          match s.ctxOfTile t with
          | none => .next s
          | some c => if c = f.ctx then .next (s.unitIn c f t) else .next s
      | .port p k =>
        if s.cxh f.ctx ≠ f.cxh || !(s.port p).xch.owner.all (fun o => o = f.ctx) then .next s
        else
          let x := (s.port p).xch
          .next (s.setXch p { x with buf := sput x.buf k f.data, red := x.red.filter (fun i => i ≠ k) })

/-- EXCHANGE_UNIT_MISSING (R250): a cycle of a RECV entry has passed without its unit. -/
def execExchangeUnitMissing (tid entry k : Nat) (s : State) : Res :=
  if !(tidOk tid && entry < 64) then .fault .noSuchUnit
  else
    let x := s.tile tid
    match s.ctxOfTile tid, x.xch.list[entry]? with
    | some c, some e =>
      if s.unitRuns c tid (s.xAt c (e.start + k)) && e.isRecv && k < e.count && !x.xch.got.contains (entry, k) && s.xAt c (e.start + k) < s.now then
        .next (((s.setTile tid { x with xch := { x.xch with got := (entry, k) :: x.xch.got } }).listError c (dieOfTile tid) tid 6 (e.start + k)).faultEvent c evXchListError)
      else .next s
    | _, _ => .next s

end Sys2Proof.Machine
end

