-- ==== Sys2Proof/Machine/Channel.lean ====
section
/-!
DEFINITION. Reduction channels (R267 to R275).
-/

namespace Sys2Proof.Machine

/-! ### Programs (R268) -/

/-- Word `i` of the program of a channel. -/
def PortXch.chWord (x : PortXch) (ch i : Nat) : Nat := (sget 0 x.chanRam (68 * ch + i)).toNat

/-- A channel header, fields by value. -/
structure ChHdr where
  v     : Bool
  nsrc  : Nat
  hbm   : Bool
  buf   : Bool
  bf16  : Bool
  count : Nat
  pbuf  : Nat
  va    : Nat
deriving DecidableEq, Repr

def PortXch.chHdr (x : PortXch) (ch : Nat) : ChHdr :=
  let w := x.chWord ch 0
  { v := bit w 0, nsrc := bits w 4 1 + 1, hbm := bit w 5, buf := bit w 6, bf16 := bit w 7, count := bits w 27 8 + 1,
    pbuf := bits w 42 28, va := bits (x.chWord ch 1) 47 0 }

/-- A source entry, fields by value. -/
structure ChSrc where
  kind   : Nat
  bf16   : Bool
  bkEn   : Bool
  tag    : Nat
  hdid   : Nat
  bkTag  : Nat
  bkHdid : Nat
  va     : Nat
  dl     : Nat
  bkVa   : Nat
deriving DecidableEq, Repr

def PortXch.chSrc (x : PortXch) (ch i : Nat) : ChSrc :=
  let w (k : Nat) : Nat := x.chWord ch (4 + 4 * i + k)
  { kind := bits (w 0) 1 0, bf16 := bit (w 0) 2, bkEn := bit (w 0) 3, tag := bits (w 0) 11 4, hdid := bits (w 0) 27 12,
    bkTag := bits (w 0) 35 28, bkHdid := bits (w 0) 51 36, va := bits (w 1) 47 0, dl := bits (w 2) 23 0, bkVa := bits (w 3) 47 0 }

/-- The sources of a channel with their numbers. -/
def PortXch.chSrcs (x : PortXch) (ch : Nat) : List (Nat × ChSrc) :=
  (List.range (x.chHdr ch).nsrc).map (fun i => (i, x.chSrc ch i))

def PortXch.chan (x : PortXch) (ch : Nat) : Chan := sget {} x.chans ch
def PortXch.setChan (x : PortXch) (ch : Nat) (y : Chan) : PortXch := { x with chans := sput x.chans ch y }

/-- The key of a unit of a source. -/
def unitKey (i u : Nat) : Nat := 2 ^ 20 * i + u

/-- Whether a channel still works. -/
def Chan.busy (y : Chan) : Bool := y.st = .armed || y.st = .wait

/-! ### Arming (R267, R271) -/

/-- A channel armed at x_start: what the last phase left is forgotten, and its units in the port buffer are
pending. -/
def PortXch.arm (x : PortXch) (ch : Nat) : PortXch :=
  let h := x.chHdr ch
  let y : Chan := { st := .armed, ssn := (x.chan ch).ssn }
  let x := x.setChan ch y
  if h.buf then { x with pend := x.pend ++ (List.range h.count).map (fun u => h.pbuf + u) } else x

/-- The channels that the RX entries of a port's coming phase name. -/
def PortXch.named (x : PortXch) : List Nat :=
  ((x.list.1.filter (fun e => e.2.kind = 2 && e.2.dst)).map (fun e => e.2.va % 64)).dedup

/-! ### Which copy (R273, R274) -/

/-- Whether a source unit of a channel is usable: a local one always; a remote one once its primary has landed
or its backup was taken. -/
def Chan.usable (y : Chan) (i : Nat) (q : ChSrc) (u : Nat) : Bool :=
  q.kind ≠ 2 || y.prim.contains (unitKey i u) || y.bkTook.contains (unitKey i u)

/-- Whether the RX slot of a copy is dead. -/
def State.copyDead (s : State) (x : PortXch) (hdid tag : Nat) : Bool :=
  x.list.1.any (fun e => e.2.kind = 2 && e.2.dst && s.pairHdid e.2.hdid = s.pairHdid hdid && e.2.tag = tag &&
    (match x.slot e.1 with | some t => t.st = .dead | none => false))

/-- Whether no copy of a source can supply its missing units any more. -/
def State.srcDead (s : State) (x : PortXch) (q : ChSrc) : Bool :=
  s.copyDead x q.hdid q.tag && (!q.bkEn || s.copyDead x q.bkHdid q.bkTag)

/-- DETAIL of REDUCE_LATE (R349). -/
def lateDetail (p ch hdid : Nat) (dead : Bool) : W64 := BitVec.ofNat 64 (p + at_ 4 ch + at_ 10 hdid + at_ 26 (b1 dead))

/-- The units of a source that no copy has given. -/
def Chan.missing (y : Chan) (i : Nat) (q : ChSrc) (count : Nat) : List Nat :=
  (List.range count).filter (fun u => !y.usable i q u)

/-- A source that is past its deadline takes every missing unit whose backup has landed (R273). -/
def PortXch.takeBackups (x : PortXch) (ch i : Nat) (q : ChSrc) : PortXch :=
  let y := x.chan ch
  let us := (y.missing i q (x.chHdr ch).count).filter (fun u => y.bk.contains (unitKey i u))
  if us.isEmpty then x
  else
    { x.setChan ch { y with bkTook := us.map (unitKey i) ++ y.bkTook, bkUsed := putBit y.bkUsed i true } with
      bkUnits := satAdd x.bkUnits us.length }

/-- A source missing in both copies after its deadline: the channel waits, and LATE and LATECNT count the
source (R275). -/
def PortXch.countLate (x : PortXch) (ch i : Nat) : PortXch :=
  let y := x.chan ch
  { x.setChan ch { y with st := .wait, late := putBit y.late i true } with lateCnt := satAdd x.lateCnt 1 }

/-- A source past its deadline with units missing in both copies (R274, R275): it is counted once; the dead
case faults the context; a Strict context is told once. -/
def State.lateSource (s : State) (c : CtxRef) (p ch i : Nat) (q : ChSrc) (first : Bool) : State :=
  let x := (s.port p).xch
  if ((x.chan ch).missing i q (x.chHdr ch).count).isEmpty then s
  else
    let dead := s.srcDead x q
    let s := if first then s.setXch p (x.countLate ch i) else s
    let detail := lateDetail p ch (s.pairHdid q.hdid) dead
    if dead then (s.raise (dieOfPort p) evReduceLate (s.infoCtx c detail)).faultEvent c evReduceLate
    else if first && (s.ctx c).strict then s.raise (dieOfPort p) evReduceLate (s.infoCtx c detail)
    else s

/-- REDUCE_DEADLINE (R273, R274): the sources of a channel whose DL has passed switch to their backups. -/
def execReduceDeadline (port chan : Nat) (s : State) : Res :=
  if !(portOk port && chan < 64) then .fault .noSuchUnit
  else
    let x := (s.port port).xch
    match x.owner with
    | none => .next s
    | some c =>
      if s.exchanging c && (x.chan chan).busy then
        let due := (x.chSrcs chan).filter (fun e => e.2.kind = 2 && !(x.chan chan).pastDl.contains e.1 && s.xAt c e.2.dl < s.now)
        .next (forAll due (fun s e =>
          let x := (s.port port).xch
          let y := x.chan chan
          let x := (x.setChan chan { y with pastDl := e.1 :: y.pastDl }).takeBackups chan e.1 e.2
          (s.setXch port x).lateSource c port chan e.1 e.2 true) s)
      else .next s

/-- After a slot has died: the sources of every working channel of the port that are past their deadline are
looked at again (R274). -/
def State.recheckLate (s : State) (c : CtxRef) (p : Nat) : State :=
  forAll (List.range 64) (fun s ch =>
    let x := (s.port p).xch
    if (x.chan ch).busy then
      forAll ((x.chSrcs ch).filter (fun e => e.2.kind = 2 && (x.chan ch).pastDl.contains e.1)) (fun s e => s.lateSource c p ch e.1 e.2 false) s
    else s) s

/-! ### Landing (R270, R273) -/

/-- Whether a unit of a source's primary copy comes too late: its backup was taken (R273). -/
def Chan.tooLate (y : Chan) (i u : Nat) : Bool := y.bkTook.contains (unitKey i u)

/-- A channel that no longer waits for a unit past its deadline (R275). -/
def PortXch.caughtUp (x : PortXch) (ch : Nat) : PortXch :=
  let y := x.chan ch
  if y.st = .wait && (x.chSrcs ch).all (fun e => !y.pastDl.contains e.1 || (y.missing e.1 e.2 (x.chHdr ch).count).isEmpty) then
    x.setChan ch { y with st := .armed }
  else x

/-- Units landed in a copy of a source: what they make usable, and what came too late. -/
def PortXch.landed (x : PortXch) (ch i : Nat) (q : ChSrc) (backup : Bool) (us : List Nat) : PortXch :=
  let y := x.chan ch
  let x :=
    if backup then
      let x := x.setChan ch { y with bk := us.map (unitKey i) ++ y.bk }
      if y.pastDl.contains i then x.takeBackups ch i q else x
    else
      let ok := us.filter (fun u => !y.tooLate i u)
      { x.setChan ch { y with prim := ok.map (unitKey i) ++ y.prim } with lateFr := if us.any (y.tooLate i) then satAdd x.lateFr 1 else x.lateFr }
  x.caughtUp ch

/-! ### Forming a unit (R270, R271) -/

/-- Eight elements read from bytes: FP32, or BF16 widened exactly. -/
def elems (bf16 : Bool) (bs : List Byte) : List W32 :=
  (List.range 8).map (fun k =>
    if bf16 then BitVec.ofNat 32 (leNat ((bs.drop (2 * k)).take 2) * 2 ^ 16) else BitVec.ofNat 32 (leNat ((bs.drop (4 * k)).take 4)))

/-- The eight elements of unit u of a source, or none where a translation fails. -/
def State.srcElems (s : State) (c : CtxRef) (p ch i u : Nat) (q : ChSrc) : State × Option (List W32) :=
  let x := (s.port p).xch
  let n := if q.bf16 && q.kind ≠ 2 then 16 else 32
  if q.kind = 0 then
    let off := 32 * (q.va % 32768) + n * u
    let bs := (unitBytes (sget 0 x.buf (off / 32))).drop (off % 32)
    (s, some (elems q.bf16 (bs.take n)))
  else
    let va := if q.kind = 2 && (x.chan ch).bkTook.contains (unitKey i u) then q.bkVa else q.va
    match s.vaRead (dieOfPort p) c ((va + n * u) % 2 ^ 48) n with
    | (s, .ok bs) => (s, some (elems (q.bf16 && q.kind ≠ 2) bs))
    | (s, .error _) => (s, none)

/-- The elements of a list of sources, or none. -/
def State.srcsElems (s : State) (c : CtxRef) (p ch u : Nat) : List (Nat × ChSrc) → State × Option (List (List W32))
  | [] => (s, some [])
  | e :: es =>
    match s.srcElems c p ch e.1 u e.2 with
    | (s, none) => (s, none)
    | (s, some v) =>
      match s.srcsElems c p ch u es with
      | (s, none) => (s, none)
      | (s, some vs) => (s, some (v :: vs))

/-- The sum of sources in programmed order, element by element. -/
def sumSources : List (List W32) → List W32
  | [] => []
  | v :: vs => vs.foldl (fun a b => List.zipWith addF a b) v

/-- SLOT_FAULT of a port (R254): the context faults. -/
def State.slotFault (s : State) (c : CtxRef) (p tag : Nat) : State :=
  (s.raise (dieOfPort p) evSlotFault (s.infoCtx c (BitVec.ofNat 64 (p + at_ 4 tag)))).faultEvent c evSlotFault

/-- A formed unit written where the program says. -/
def State.chanWrite (s : State) (c : CtxRef) (p ch u : Nat) (v : List W32) : State :=
  let h := (s.port p).xch.chHdr ch
  let bs := v.flatMap (fun e => if h.bf16 then toLE 2 (fConvert 1 none (f32 e)).1 else toLE 4 e.toNat)
  let (s, bad) := if h.hbm then s.vaWrite (dieOfPort p) c ((h.va + bs.length * u) % 2 ^ 48) bs else (s, none)
  if bad.isSome then s.slotFault c p 0
  else
    let x := (s.port p).xch
    let k := h.pbuf + u
    let x := if h.buf then
        { x with buf := sput x.buf k (ofLanes v), pend := x.pend.filter (fun i => i ≠ k), red := k :: x.red.filter (fun i => i ≠ k) }
      else x
    let y := x.chan ch
    let formed := u :: y.formed
    let done : Bool := formed.length = h.count
    s.setXch p (x.setChan ch { y with formed := formed, st := if done then .done else y.st, ssn := if done then (s.ctx c).run.ssn else y.ssn })

/-- CHANNEL_UNIT_FORM (R270): a unit is summed once every one of its sources is usable. -/
def execChannelUnitForm (port chan unit : Nat) (s : State) : Res :=
  if !(portOk port && chan < 64) then .fault .noSuchUnit
  else
    let x := (s.port port).xch
    match x.owner with
    | none => .next s
    | some c =>
      let y := x.chan chan
      if s.exchanging c && y.busy && unit < (x.chHdr chan).count && !y.formed.contains unit
          && (x.chSrcs chan).all (fun e => y.usable e.1 e.2 unit) then
        match s.srcsElems c port chan unit (x.chSrcs chan) with
        | (s, none) => .next (s.slotFault c port 0)
        | (s, some vs) => .next (s.chanWrite c port chan unit (sumSources vs))
      else .next s

end Sys2Proof.Machine
end

