-- ==== Sys2Proof/Machine/Slots.lean ====
section
/-!
DEFINITION. Exchange phases and cross-module slots (R55, R56, R59 to R61, R253 to R258, R271, R274, R278, R292).
-/

namespace Sys2Proof.Machine

/-! ### Frames (R289, R290, R292) -/

/-- The bytes that a frame's CRC covers. -/
def frameBytes (x : Frame) : List Byte :=
  toLE 6 (symBody x.sof) ++ x.payload.flatMap unitBytes ++ toLE 4 (x.trailer.toNat / 2 ^ 32)

/-- A frame with its check codes. -/
def mkFrame (kind nunits tag seq : Nat) (cxh : BitVec 16) (payload : List W256) (fidx : Nat) : Frame :=
  let sof := symWord tySof (kind + at_ 2 (nunits - 1) + at_ 5 tag + at_ 13 seq + at_ 25 cxh.toNat)
  let x : Frame := { sof := sof, payload := payload, trailer := BitVec.ofNat 64 (at_ 32 fidx) }
  { x with trailer := BitVec.ofNat 64 (at_ 32 fidx + (crc32c (frameBytes x)).toNat) }

def Frame.kind (x : Frame) : Nat := bits (symBody x.sof) 1 0
def Frame.nunits (x : Frame) : Nat := bits (symBody x.sof) 4 2 + 1
def Frame.tag (x : Frame) : Nat := bits (symBody x.sof) 12 5
def Frame.seq (x : Frame) : BitVec 12 := BitVec.ofNat 12 (bits (symBody x.sof) 24 13)
def Frame.cxh (x : Frame) : BitVec 16 := BitVec.ofNat 16 (bits (symBody x.sof) 40 25)
def Frame.fidx (x : Frame) : Nat := fld x.trailer 55 32
def Frame.sofOk (x : Frame) : Bool := symOk x.sof && symType x.sof = tySof
def Frame.crcOk (x : Frame) : Bool := x.payload.length = 8 && fld x.trailer 31 0 = (crc32c (frameBytes x)).toNat
def Frame.reserved (x : Frame) : Bool := bits (symBody x.sof) 47 41 ≠ 0 || fld x.trailer 63 56 ≠ 0

/-- A payload of eight units. -/
def pad8 (us : List W256) : List W256 := us ++ List.replicate (8 - us.length) 0

/-- A digest frame (R292). -/
def digestFrame (cxh : BitVec 16) (dg : List W64) (ssn : W32) : Frame :=
  let ws := dg ++ [BitVec.ofNat 64 (ssn.toNat + at_ 32 cxh.toNat)]
  mkFrame 2 8 0 0 cxh (pad8 [unitOf ((ws.take 4).flatMap (fun w => toLE 8 w.toNat)), unitOf ((ws.drop 4).flatMap (fun w => toLE 8 w.toNat))]) 0

/-! ### Slots that die (R257, R274) -/

/-- The sources whose copy an RX entry brings, with whether it is the backup. -/
def PortXch.brings (x : PortXch) (e : PEnt) : List (ChSrc × Bool) :=
  ((x.chSrcs (e.va % 64)).map Prod.snd).filterMap (fun q =>
    if q.kind ≠ 2 then none
    else if q.tag = e.tag && q.hdid = e.hdid then some (q, false)
    else if q.bkEn && q.bkTag = e.tag && q.bkHdid = e.hdid then some (q, true)
    else none)

/-- Whether the twin copy of everything that an RX entry brings can still land, or has landed (R274, log entry 29). -/
def State.covered (s : State) (x : PortXch) (e : PEnt) : Bool :=
  !(x.brings e).isEmpty && (x.brings e).all (fun q =>
    q.1.bkEn && !(if q.2 then s.copyDead x q.1.hdid q.1.tag else s.copyDead x q.1.bkHdid q.1.bkTag))

/-- SLOT_DEAD of an entry of a port (R257, R349). -/
def State.tellDead (s : State) (c : CtxRef) (p entry : Nat) : State :=
  s.raise (dieOfPort p) evSlotDead (s.infoCtx c (BitVec.ofNat 64 (p + at_ 4 ((s.port p).xch.ent entry).tag)))

/-- A dead slot of a reduction (R274): covered by a backup, it is told only the first time for its port and
partner HDID; else each time. -/
def State.noteDead (s : State) (c : CtxRef) (p entry : Nat) (e : PEnt) : State :=
  let x := (s.port p).xch
  if !s.covered x e then s.tellDead c p entry
  else if x.deadTold.contains e.hdid then s.setXch p { x with muted := entry :: x.muted }
  else (s.setXch p { x with deadTold := e.hdid :: x.deadTold }).tellDead c p entry

/-- The dead slots that were not told, and whose backup will not land after all (R274). -/
def State.unmute (s : State) (c : CtxRef) (p : Nat) : State :=
  let x := (s.port p).xch
  let lost := x.muted.filter (fun i => !s.covered x (x.ent i))
  forAll lost (fun s i => s.tellDead c p i) (s.setXch p { x with muted := x.muted.filter (fun i => s.covered x (x.ent i)) })

/-- A slot that is not attempted, or ended by its port (R257, R274, R300). DESIGN CHOICE (log entry 29): only the
receiving end's context faults, since a TX entry names no DST. -/
def State.slotDead (s : State) (c : CtxRef) (p : Nat) (t : XSlot) : State :=
  let x := (s.port p).xch
  let e := x.ent t.entry
  let s := s.setXch p (x.setSlot { t with st := .dead })
  if e.kind = 2 && e.dst then ((s.noteDead c p t.entry e).unmute c p).recheckLate c p
  else
    let s := s.tellDead c p t.entry
    if e.kind = 2 then s.faultEvent c evSlotDead else s

/-! ### Phases (R55, R56, R267, R278) -/

/-- Whether every tile of a context that has a list has read it (R249). -/
def State.listsRead (s : State) (c : CtxRef) : Bool :=
  (s.ctx c).tids.all (fun t => (s.tile t).xch.next.isNone || (s.tile t).xch.read || (s.tile t).fenced)

/-- The channels of a port armed for the phase. -/
def PortXch.armAll (x : PortXch) : PortXch := x.named.foldl PortXch.arm { x with pend := [] }

/-- The digest frame sent on both twin ports (R278). -/
def State.sendDigest (s : State) (c : CtxRef) : State :=
  let x := (s.ctx c).run
  if s.pairOn && x.digest.length = 4 then
    forAll [14, 15] (fun s p => if (s.port p).isUp then s.emit (.frame p (digestFrame (s.cxh c) x.digest x.ssn)) else s) s
  else s

/-- EXCHANGE_PHASE_START (R55, R250, R267, R278): at x_start the lists are checked, the channels arm and the
digest leaves. -/
def execExchangePhaseStart (c : CtxRef) (s : State) : Res :=
  if !c.ok then .fault .noSuchUnit
  else
    let x := s.ctx c
    if x.st = .running && x.run.phase = .barrier && x.run.tbcV && x.run.xstart.toNat ≤ s.now && s.listsRead c then
      let s := s.setCtx c { x with run := { x.run with phase := .exchange } }
      let s := s.checkLists c
      if (s.ctx c).st ≠ .running then .next s
      else
        let s := forAll (s.portsOf c) (fun s p => s.setXch p (s.port p).xch.armAll) s
        .next (s.sendDigest c)
    else .next s

/-- Whether a slot is over: acknowledged, landed or dead. -/
def XSlot.ended (t : XSlot) : Bool := t.st = .done || t.st = .dead

/-- Whether a tile's list has been carried out. -/
def Tile.listDone (x : Tile) : Bool :=
  x.fenced || x.xch.list.zipIdx.all (fun e =>
    (if e.1.isSend then (List.range e.1.count).all (fun k => x.xch.sent.contains (e.2, k)) else true) &&
    (if e.1.isRecv then (List.range e.1.count).all (fun k => x.xch.got.contains (e.2, k)) else true))

/-- Whether everything that a context's exchange phase does is done (R56, R256, R271). -/
def State.phaseDone (s : State) (c : CtxRef) : Bool :=
  s.xAt c (s.refLen c) ≤ s.now
    && (s.ctx c).tids.all (fun t => (s.tile t).listDone)
    && s.flights.all (fun f => f.cxh ≠ s.cxh c)
    && (s.portsOf c).all (fun p => (s.port p).xch.slots.all XSlot.ended && (s.port p).xch.chans.all (fun y => !y.2.busy))

/-- A digest that no copy has brought is skipped (R278). DESIGN CHOICE (log entry 29): one twin port that is UP
is enough. -/
def State.countSkipped (s : State) (c : CtxRef) : State :=
  let x := (s.ctx c).run
  if s.pairOn && x.digest.length = 4 && !x.compared && ((s.port 14).isUp || (s.port 15).isUp) then
    { s with pair := { s.pair with skipped := satAdd s.pair.skipped 1 } }
  else s

/-- EXCHANGE_PHASE_END (R53, R56, R59 to R61): lateness is settled, and the next superstep begins. -/
def execExchangePhaseEnd (c : CtxRef) (s : State) : Res :=
  if !c.ok then .fault .noSuchUnit
  else if s.exchanging c && (s.ctx c).st = .running && s.phaseDone c then
    let s := s.countSkipped c
    let s := s.settle c (s.now - s.xAt c (s.refLen c))
    if (s.ctx c).st = .running then .next (s.nextSuperstep c) else .next s
  else .next s

/-! ### Slot steps (R254 to R257) -/

/-- The context of a port whose phase is on. -/
def State.portCtx (s : State) (p : Nat) : Option CtxRef :=
  match (s.port p).xch.owner with
  | none => none
  | some c => if s.exchanging c then some c else none

/-- TX_PREFETCH (R254): a TX slot from HBM takes its data, after its context's arrival and the die's scatters. -/
def execTxPrefetch (port entry : Nat) (s : State) : Res :=
  if !(portOk port && entry < 256) then .fault .noSuchUnit
  else
    let x := (s.port port).xch
    match x.owner, x.slot entry with
    | some c, some t =>
      let e := x.ent entry
      if (s.ctx c).st = .running && (s.ctx c).run.phase ≠ .compute && t.tx && e.src && !t.pref && !t.ended && s.hbmOn then
        match s.vaRead (dieOfPort port) c e.va e.bytes with
        | (s, .error _) => .next (s.slotFault c port e.tag)
        | (s, .ok bs) =>
          let us := (List.range (e.bytes / 32)).map (fun i => unitOf ((bs.drop (32 * i)).take 32))
          .next (s.setXch port ((s.port port).xch.setSlot { t with pref := true, data := us }))
      else .next s
    | _, _ => .next s

/-- Whether a TX slot's partner is the one that its entry names (R291). -/
def State.partnerOk (s : State) (p : Nat) (e : PEnt) : Bool :=
  (s.port p).ht.known && (s.port p).ht.phdid.toNat = s.pairHdid e.hdid

/-- Whether a port was UP at the start of a nanosecond and is so still: it came UP before (R300). -/
def Port.upSince (x : Port) (t : Nat) : Bool := x.isUp && x.link.since < t

/-- SLOT_START (R257, R291, R300): at OFF a slot begins, or is dead. -/
def execSlotStart (port entry : Nat) (s : State) : Res :=
  if !(portOk port && entry < 256) then .fault .noSuchUnit
  else
    let x := (s.port port).xch
    match s.portCtx port, x.slot entry with
    | some c, some t =>
      let e := x.ent entry
      if t.st = .idle && s.xAt c e.off ≤ s.now then
        if !(s.port port).upSince (s.xAt c e.off) || (s.port port).ht.slow || (t.tx && !s.partnerOk port e) then .next (s.slotDead c port t)
        else .next (s.setXch port (x.setSlot { t with st := .active }))
      else .next s
    | _, _ => .next s

/-- SLOT_OVERRUN met on a die (R58, R60). -/
def State.slotOverrun (s : State) (c : CtxRef) (d : Nat) : State :=
  let x := s.ctx c
  if x.strict && (s.ss d c.slot).missAct then s.instantMiss c causeSlotOverrun (fun _ => 0) [d]
  else s.setCtx c { x with run := { x.run with slotOver := putBit x.run.slotOver d true } }

/-- The one-way delay of a port in ns (R234, R255). It is rounded down (DESIGN CHOICE, log entry 29). -/
def Port.delayNs (x : Port) : Nat := x.ht.delay.toNat / 16

/-- Whether a TX slot still has a frame to send, or one to send again. -/
def Port.unsent (x : Port) (t : XSlot) (e : PEnt) : Bool :=
  t.next < frames e.bytes || x.tx.buf.any (fun f => f.entry = t.entry && x.tx.nakq.contains f.seq)

/-- SLOT_SUSPEND (R60, R256): at OFF + W − 6 a TX slot with unsent frames is suspended, and an RX slot whose
frames have not all landed, which the row names where the far end has suspended it (log entry 29). -/
def execSlotSuspend (port entry : Nat) (s : State) : Res :=
  if !(portOk port && entry < 256) then .fault .noSuchUnit
  else
    let x := (s.port port).xch
    match s.portCtx port, x.slot entry with
    | some c, some t =>
      let e := x.ent entry
      let due : Bool :=
        if t.tx then (t.st = .active || t.st = .sent) && (s.port port).unsent t e
        else t.st = .active && t.landed.length < frames e.bytes
      if due && s.xAt c (e.off + e.w) ≤ s.now + 6 then .next ((s.setXch port (x.setSlot { t with st := .suspended })).slotOverrun c (dieOfPort port)) else .next s
    | _, _ => .next s

/-- The end of the last TX window of a port's phase, counted from x_start. -/
def PortXch.lastWindow (x : PortXch) : Nat := ((x.list.1.filter (fun e => e.2.kind = 1)).map (fun e => e.2.off + e.2.w)).foldl max 0

/-- SLOT_TAIL (R256): after the last window the suspended slots send on, in window order. -/
def execSlotTail (port : Nat) (s : State) : Res :=
  if !portOk port then .fault .noSuchUnit
  else
    let x := (s.port port).xch
    match s.portCtx port with
    | none => .next s
    | some c =>
      when_ (s.xAt c x.lastWindow ≤ s.now) s
        (s.setXch port { x with slots := x.slots.map (fun t => if t.tx && t.st = .suspended then { t with st := .tail } else t) })

end Sys2Proof.Machine
end

