-- ==== Sys2Proof/Machine/Links.lean ====
section
/-!
DEFINITION. Port states: training, loss, control (R280, R296 to R303).
-/

namespace Sys2Proof.Machine

/-! ### DOWN causes (R303) -/

def downLos : Nat := 1
def downAway : Nat := 2
def downReplay : Nat := 3
def downLock : Nat := 4
def downDisabled : Nat := 5
def downTrainFail : Nat := 6
def downConfig : Nat := 7

def PortLink.en (x : PortLink) : Bool := x.ctl.getLsbD 0
def PortLink.auto (x : PortLink) : Bool := x.ctl.getLsbD 1
def PortLink.allow4 (x : PortLink) : Bool := x.ctl.getLsbD 2

def State.setPortLink (s : State) (p : Nat) (x : PortLink) : State := s.setPort p { s.port p with link := x }

/-- An event of a port, with its DETAIL (R349). -/
def State.linkEvent (s : State) (p src : Nat) : State :=
  s.raise (dieOfPort p) src { noInfo with detail := BitVec.ofNat 64 (p + at_ 4 (s.port p).link.cause.toNat) }

/-- From DOWN to DETECT (R296): EN, AUTO or a retrain, and outputs allowed. -/
def State.portTry (s : State) (p : Nat) (retrain : Bool) : State :=
  let x := (s.port p).link
  if x.st = .down && x.en && (x.auto || retrain) && s.cfg.isSome then s.setPortLink p { x with st := .detect, since := s.now } else s

/-- The twin is lost (R280). -/
def State.pairLost (s : State) : State :=
  if s.pairOn then { s with pair := { s.pair with lost := true } }.raise 0 evPairLost noInfo else s

/-- What a port that goes DOWN holds afterwards: no frame for replay, none half received, both ends at SEQ 0
(R300). -/
def Port.downed (x : Port) (cause now : Nat) : Port :=
  let l := { x.link with st := .down, cause := BitVec.ofNat 4 cause, lanes4 := false, upper := false,
                         downCnt := satAdd x.link.downCnt 1, since := now }
  { x with link := l, tx := {}, rx := {} }

/-- Whether a slot is in progress. -/
def XSlot.inProgress (t : XSlot) : Bool :=
  match t.st with
  | .active => true
  | .suspended => true
  | .tail => true
  | .sent => true
  | .idle => false
  | .done => false
  | .dead => false

/-- The slots in progress on a port end dead (R257, R300). -/
def State.endSlots (s : State) (p : Nat) : State :=
  match (s.port p).xch.owner with
  | none => s
  | some c => forAll ((s.port p).xch.slots.filter XSlot.inProgress) (fun s t => s.slotDead c p t) s

/-- The transition of a port to DOWN (R240, R274, R279, R280, R300); a port that is DOWN does not change. -/
def State.portDown (s : State) (p cause : Nat) : State :=
  let x := s.port p
  if x.link.st = .down then s
  else
    let s := s.setPort p (x.downed cause s.now)
    let s := s.linkEvent p evUlkDown
    let s := s.endSlots p
    let s := s.htPortDown p
    let s := if x.isUp && (p = 14 || p = 15) && !(s.port 14).isUp && !(s.port 15).isUp then s.pairLost else s
    forAll allCtx (fun s c => s.thsTry c) s

/-- A port that goes DOWN and with AUTO returns to DETECT at once (R300). -/
def State.portLost (s : State) (p cause : Nat) : State := (s.portDown p cause).portTry p false

/-! ### Training (R296 to R298) -/

/-- SIGNAL_DETECT (R296). -/
def execSignalDetect (port : Nat) (s : State) : Res :=
  if !portOk port then .fault .noSuchUnit
  else
    let x := (s.port port).link
    when_ (x.st = .detect) s (s.setPortLink port { x with st := .train, since := s.now })

/-- The limits of TRAIN and ALIGN, ns (R296). -/
def trainLimit : Nat := 30000000
def alignLimit : Nat := 1000000

/-- A lane skew of 10 ns in 1/16 ns (R297). -/
def skewLimit : Nat := 160

/-- How lanes that passed are used (R298): LANES4 and UPPER, or none where training fails. -/
def lanesUse (lanes : BitVec 8) (allow4 : Bool) : Option (Bool × Bool) :=
  if lanes = 0xFF#8 then some (false, false)
  else if !allow4 then none
  else if lanes &&& 0x0F#8 = 0x0F#8 then some (true, false)
  else if lanes &&& 0xF0#8 = 0xF0#8 then some (true, true)
  else none

/-- SKEW of a training. -/
def skewReg (n : Nat) : BitVec 16 := if n < 65536 then BitVec.ofNat 16 n else Config.wideSkew n

/-- TRAINING_COMPLETE (R297, R298): the lanes that passed and the largest skew. -/
def execTrainingComplete (port : Nat) (lanes : BitVec 8) (skew : Nat) (s : State) : Res :=
  if !portOk port then .fault .noSuchUnit
  else
    let x := (s.port port).link
    if x.st = .train && s.now ≤ x.since + trainLimit then
      let x := { x with laneOk := lanes, skew := skewReg skew }
      match lanesUse lanes x.allow4 with
      | none => .next ((s.setPortLink port x).portLost port downTrainFail)
      | some u =>
        if skewLimit < skew then .next ((s.setPortLink port x).portLost port downTrainFail)
        else .next (s.setPortLink port { x with st := .align, lanes4 := u.1, upper := u.2, since := s.now })
    else .next s

/-- TRAIN_TIMEOUT (R296): TRAIN or ALIGN past its limit. -/
def execTrainTimeout (port : Nat) (s : State) : Res :=
  if !portOk port then .fault .noSuchUnit
  else
    let x := (s.port port).link
    let due : Bool := (x.st = .train && x.since + trainLimit < s.now) || (x.st = .align && x.since + alignLimit < s.now)
    when_ due s (s.portLost port downTrainFail)

/-- ASYM (R297): own TXD and RXD and the partner's from its CAL. The half of an odd difference is dropped
(DESIGN CHOICE, log entry 31). -/
def asymReg (txd rxd : Nat) (cal : W64) : BitVec 16 :=
  let ptx := bits (symBody cal) 23 0
  let prx := bits (symBody cal) 47 24
  let a : Int := (((txd : Int) + prx) - ((ptx : Int) + rxd)).tdiv 2
  if -32768 ≤ a && a < 32768 then BitVec.ofInt 16 a else Config.wideAsym a

/-- A port that reaches UP or DEGRADED (R298, R300). -/
def State.portUp (s : State) (p : Nat) : State :=
  let x := s.port p
  let up := !x.link.lanes4
  let s := s.setPort p { x with link := { x.link with st := if up then .up else .degraded, since := s.now },
                                xch := { x.xch with deadTold := if up then [] else x.xch.deadTold } }
  s.linkEvent p (if up then evUlkUp else evUlkDegraded)

/-- ALIGN_COMPLETE (R296, R297): CAL exchanged and TREE received. A CAL that fails its check is discarded. -/
def execAlignComplete (port txd rxd : Nat) (cal : BitVec 64) (s : State) : Res :=
  if !portOk port then .fault .noSuchUnit
  else
    let x := s.port port
    if x.link.st = .align && s.now ≤ x.link.since + alignLimit && x.ht.known && symOk cal && symType cal = tyCal then
      let s := s.setPortLink port { x.link with asym := asymReg txd rxd cal }
      .next ((s.emit (.word port (symWord tyCal (txd % 2 ^ 24 + at_ 24 (rxd % 2 ^ 24))))).portUp port)
    else .next s

/-! ### Loss (R296, R300) -/

/-- Whether a lane is in use. -/
def PortLink.active (x : PortLink) (lane : Nat) : Bool :=
  if x.lanes4 then (if x.upper then 4 ≤ lane else lane < 4) else true

/-- LOSS_OF_SIGNAL (R300). -/
def execLossOfSignal (port : Nat) (s : State) : Res :=
  if !portOk port then .fault .noSuchUnit
  else
    let x := (s.port port).link
    when_ (x.st != .down && x.st != .detect) s (s.portLost port downLos)

/-- LANE_LOCK_LOSS (R296). -/
def execLaneLockLoss (port lane : Nat) (s : State) : Res :=
  if !(portOk port && lane < 8) then .fault .noSuchUnit
  else
    let x := (s.port port).link
    when_ (((s.port port).live || x.st = .align) && x.active lane) s (s.portLost port downLock)

/-- A GOING_AWAY at a port whose word stream runs (R280, R296, R300). -/
def State.goingIn (s : State) (port : Nat) (x : W64) : State :=
  if !(s.port port).receives then s
  else if !(symOk x && symType x = tyGoing) then s.symErr port
  else
    let twin : Bool := bits (symBody x) 15 0 = (s.hdid ^^^ 1).toNat
    let s := s.portLost port downAway
    if twin then s.pairLost else s

/-- GOING_AWAY_RECEIVE (R280, R300). -/
def execGoingAwayReceive (port : Nat) (x : BitVec 64) (s : State) : Res :=
  if !portOk port then .fault .noSuchUnit else .next (s.goingIn port x)

/-! ### LINK_CONTROL (R303, R326) -/

/-- A write of ULK_CTL_k: EN, AUTO, ALLOW4, and a retrain. -/
def State.linkCtl (s : State) (p v : Nat) (retrain : Bool) : State :=
  let s := s.setPortLink p { (s.port p).link with ctl := BitVec.ofNat 32 (v % 8) }
  if v % 2 = 0 then s.portDown p downDisabled else s.portTry p retrain

/-- LINK_CONTROL (R303, R326): a port of the function's partition. -/
def execLinkControl (r : RingRef) (w : CmdWords) (s : State) : Res :=
  hostCmd s r w { op := 0x81, needP := true, needC := true, masks := [0xFF] } (fun s =>
    let p := fld w.w1 3 0
    if partOfDie s.layout (dieOfPort p) ≠ r.pf then s.replyCode r codeBadParam
    else (s.linkCtl p (fld w.w1 6 4) (w.w1.getLsbD 7)).replyCode r codeOk)

end Sys2Proof.Machine
end

