-- ==== Sys2Proof/Machine/Frames.lean ====
section
/-!
DEFINITION. Frames, windows, replay and blocks (R204, R253 to R256, R270, R271, R278, R286 to R295).
-/

namespace Sys2Proof.Machine

/-! ### Sending (R254, R256, R271, R289, R293) -/

/-- Units of a frame of a slot. -/
def frameUnits (bytes fidx : Nat) : Nat := min 8 (bytes / 32 - 8 * fidx)

/-- The buffer units of a frame of a TX slot with SRC = 0 (R254). DESIGN CHOICE (log entry 29): past unit 32,767
they go on at unit 0. -/
def bufUnits (e : PEnt) (fidx : Nat) : List Nat :=
  (List.range (frameUnits e.bytes fidx)).map (fun i => (e.va % 32768 + 8 * fidx + i) % 32768)

/-- The slot that sends next on a port: one in its window, or else the first of the tail in window order. -/
def State.txSlot (s : State) (c : CtxRef) (x : PortXch) : Option XSlot :=
  let inWin (t : XSlot) : Bool := t.tx && t.st = .active && s.now + 6 < s.xAt c ((x.ent t.entry).off + (x.ent t.entry).w)
  let tail := x.slots.filter (fun t => t.tx && t.st = .tail)
  let first (a : Option XSlot) (t : XSlot) : Option XSlot :=
    match a with
    | none => some t
    | some u => if (x.ent t.entry).off < (x.ent u.entry).off then some t else some u
  match x.slots.find? inWin with
  | some t => some t
  | none => tail.foldl first none

/-- The payload and the kind of the next frame of a slot, or none while a unit is pending or not fetched (R271). -/
def PortXch.txData (x : PortXch) (t : XSlot) (e : PEnt) : Option (Nat × List W256) :=
  if e.src then
    if t.pref then some (0, (t.data.drop (8 * t.next)).take (frameUnits e.bytes t.next)) else none
  else
    let us := bufUnits e t.next
    if us.any (fun u => x.pend.contains u) then none
    else some (if us.any (fun u => x.red.contains u) then 1 else 0, us.map (sget 0 x.buf))

/-- A slot after its next frame has left. -/
def XSlot.sentOne (t : XSlot) (e : PEnt) (q : BitVec 12) : XSlot :=
  { t with next := t.next + 1, lastSeq := some q, st := if t.next + 1 = frames e.bytes then .sent else t.st }

/-- SEQ a precedes or equals b, on 12 bits (R263, R293). -/
def seqLe (a b : BitVec 12) : Bool := !(b - a).msb

/-- Whether the replay of a frame may start now (R294): 206 ns before its window ends, or in the tail; a frame
without a slot at once. -/
def State.replayOk (s : State) (p : Nat) (f : TxFrame) : Bool :=
  let x := (s.port p).xch
  match s.portCtx p, x.slot f.entry with
  | some c, some t =>
    if s.cxh c = f.cxh && t.tx then
      t.st = .tail || (t.inProgress && s.now + 206 < s.xAt c ((x.ent f.entry).off + (x.ent f.entry).w))
    else true
  | _, _ => true

/-- The frame held under a SEQ. -/
def PortTx.held (x : PortTx) (q : BitVec 12) : Option TxFrame := x.buf.find? (fun f => f.seq = q)

/-- The replay that starts at the next frame boundary (R294): of the NAKs in arrival order, the first whose
frame may be sent again now. -/
def State.replayNext (s : State) (p : Nat) : Option TxFrame :=
  ((s.port p).tx.nakq.filterMap (s.port p).tx.held).find? (s.replayOk p)

/-- FRAME_TRANSMIT (R254, R256, R271, R289, R290, R293, R294): the next frame of the slot that sends; none
while a replay is due or fills the transmitter. -/
def execFrameTransmit (port : Nat) (s : State) : Res :=
  if !portOk port then .fault .noSuchUnit
  else
    let p := s.port port
    match s.portCtx port with
    | none => .next s
    | some c =>
      match s.txSlot c p.xch with
      | none => .next s
      | some t =>
        let e := p.xch.ent t.entry
        if p.isUp && p.tx.buf.length < 1024 && p.tx.busy ≤ s.now && (s.replayNext port).isNone && t.next < frames e.bytes then
          match p.xch.txData t e with
          | none => .next s
          | some (kind, us) =>
            let q := p.tx.seq
            let f := mkFrame kind us.length e.tag q.toNat (s.cxh c) (pad8 us) t.next
            let h : TxFrame := { seq := q, frame := f, entry := t.entry, fidx := t.next, cxh := s.cxh c }
            let p' := { p with tx := { p.tx with seq := q + 1, buf := p.tx.buf ++ [h] }, xch := p.xch.setSlot (t.sentOne e q) }
            .next ((s.setPort port p').emit (.frame port f))
        else .next s

/-! ### Replay (R293, R294) -/

/-- Slots whose last frame an ACK has covered are done (R293). -/
def PortXch.acked (x : PortXch) (buf : List TxFrame) : PortXch :=
  { x with slots := x.slots.map (fun t =>
      if t.tx && t.st = .sent && !buf.any (fun f => f.entry = t.entry) then { t with st := .done } else t) }

/-- An ACK at a port (R293): frames up to the SEQ leave the replay buffer; one that releases a frame is
progress (R365). -/
def State.ackIn (s : State) (port : Nat) (x : W64) : State :=
  let p := s.port port
  if p.isUp && symOk x && symType x = tyAck then
    let q : BitVec 12 := BitVec.ofNat 12 (bits (symBody x) 11 0)
    let buf := p.tx.buf.filter (fun f => !seqLe f.seq q)
    let nakq := p.tx.nakq.filter (fun n => !seqLe n q)
    let pm := if buf.length = p.tx.buf.length then p.tx.pmAt else none
    s.setPort port { p with tx := { p.tx with buf := buf, nakq := nakq, pmAt := pm }, xch := p.xch.acked buf }
  else s

/-- ACK_RECEIVE (R293). -/
def execAckReceive (port : Nat) (x : BitVec 64) (s : State) : Res :=
  if !portOk port then .fault .noSuchUnit else .next (s.ackIn port x)

/-- The NAKs that one SEQ takes before its port goes DOWN (R294). -/
def nakLimit : Nat := 16

/-- A NAK at a port (R294): the frame queues for replay; the sixteenth NAK of one SEQ takes the port DOWN. -/
def State.nakIn (s : State) (port : Nat) (x : W64) : State :=
  let p := s.port port
  if p.isUp && symOk x && symType x = tyNak then
    let q : BitVec 12 := BitVec.ofNat 12 (bits (symBody x) 11 0)
    match p.tx.held q with
    | none => s
    | some f =>
      if nakLimit ≤ f.naks + 1 then s.portLost port downReplay
      else
        let buf := p.tx.buf.map (fun g => if g.seq = q then { g with naks := g.naks + 1 } else g)
        s.setPort port { p with tx := { p.tx with buf := buf, nakq := p.tx.nakq ++ [q] } }
  else s

/-- NAK_RECEIVE (R294). -/
def execNakReceive (port : Nat) (x : BitVec 64) (s : State) : Res :=
  if !portOk port then .fault .noSuchUnit else .next (s.nakIn port x)

/-- A slot after one of its frames was replayed: charged with a retry; in the tail it has been sent once
nothing is left to send. -/
def XSlot.retried (t : XSlot) (e : PEnt) (more : Bool) : XSlot :=
  { t with retries := t.retries + 1, st := if t.st = .tail && t.next = frames e.bytes && !more then .sent else t.st }

/-- REPLAY_START (R294): a NAKed frame is sent again and the transmitter is filled for 200 ns. -/
def execReplayStart (port : Nat) (s : State) : Res :=
  if !portOk port then .fault .noSuchUnit
  else
    let p := s.port port
    match s.replayNext port with
    | none => .next s
    | some f =>
      if p.isUp && p.tx.busy ≤ s.now then
        let qs := p.tx.nakq.erase f.seq
        let more := p.tx.buf.any (fun g => g.entry = f.entry && qs.contains g.seq)
        let x := match p.xch.slot f.entry with
          | some t => if t.tx then p.xch.setSlot (t.retried (p.xch.ent f.entry) more) else p.xch
          | none => p.xch
        let p' := { p with tx := { p.tx with nakq := qs, busy := s.now + 200 }, xch := x,
                           link := { p.link with retry := satAdd p.link.retry 1 } }
        .next ((s.setPort port p').emit (.frame port f.frame))
      else .next s

/-- ACK_SEND (R293, R295): the highest SEQ up to which every frame has arrived. Once a frame has arrived the
ACK is repeated, so that one that is lost comes again. -/
def execAckSend (port : Nat) (s : State) : Res :=
  if !portOk port then .fault .noSuchUnit
  else
    let p := s.port port
    if p.isUp && p.rx.waiting then
      let s := s.setPort port { p with rx := { p.rx with ackAt := s.now } }
      .next (s.emit (.word port (symWord tyAck (p.rx.expect - 1).toNat)))
    else .next s

/-! ### Receiving: SEQ (R293, R294) -/

/-- The SEQs from `a` that precede `b`. -/
def seqsBefore : Nat → BitVec 12 → BitVec 12 → List (BitVec 12)
  | 0, _, _ => []
  | n + 1, a, b => if a = b then [] else a :: seqsBefore n (a + 1) b

/-- A NAK sent for a SEQ that has not been NAKed yet. -/
def State.nak (s : State) (p : Nat) (q : BitVec 12) : State :=
  let x := s.port p
  (s.setPort p { x with rx := { x.rx with naked := q :: x.rx.naked } }).emit (.word p (symWord tyNak q.toNat))

/-- The gap that a SEQ shows (R294): every earlier SEQ that is missing and not NAKed yet is NAKed. None is
NAKed a second time from a gap (DESIGN CHOICE, log entry 32). -/
def State.nakGap (s : State) (p : Nat) (q : BitVec 12) : State :=
  let r := (s.port p).rx
  let gap := if seqLe r.expect q then (seqsBefore 1024 r.expect q).filter (fun a => !r.ahead.contains a && !r.naked.contains a) else []
  forAll gap (fun s a => s.nak p a) s

/-- The SEQs received in a row from `e`. -/
def advance : Nat → BitVec 12 → List (BitVec 12) → BitVec 12
  | 0, e, _ => e
  | n + 1, e, xs => if xs.contains e then advance n (e + 1) xs else e

/-- A SEQ received for good. -/
def PortRx.got (r : PortRx) (q : BitVec 12) : PortRx :=
  let ahead := q :: r.ahead
  let e := advance 1024 r.expect ahead
  { r with expect := e, ahead := ahead.filter (fun a => a ≠ e && seqLe e a), naked := r.naked.filter (fun a => a ≠ q), waiting := true }

/-- Whether a SEQ was received before. -/
def PortRx.seen (r : PortRx) (q : BitVec 12) : Bool := !seqLe r.expect q || r.ahead.contains q

def State.gotSeq (s : State) (p : Nat) (q : BitVec 12) : State :=
  let x := s.port p
  s.setPort p { x with rx := x.rx.got q }

/-- A frame dropped at step 3 or 4 of R291. -/
def State.ulkDrop (s : State) (p : Nat) : State :=
  let x := s.port p
  s.setPort p { x with link := { x.link with drop := satAdd x.link.drop 1 } }

/-- A frame that fails its CRC. -/
def State.crcErr (s : State) (p : Nat) : State :=
  let x := s.port p
  s.setPort p { x with link := { x.link with crcErr := satAdd x.link.crcErr 1 } }

/-! ### Receiving: where a frame lands (R204, R253, R270) -/

/-- The RX slot of the present phase that takes a frame of a TAG from the port's partner (R253, R291). -/
def State.rxSlot (s : State) (p tag : Nat) : Option (XSlot × PEnt) :=
  let x := (s.port p).xch
  let ok (t : XSlot) : Bool :=
    let e := x.ent t.entry
    !t.tx && e.tag = tag && s.partnerOk p e && !(t.st = .dead || t.st = .done)
  (x.slots.find? ok).map (fun t => (t, x.ent t.entry))

/-- A frame counted as landed in its slot (R256). -/
def State.slotGot (s : State) (p : Nat) (t : XSlot) (e : PEnt) (fidx : Nat) : State :=
  let landed := if t.landed.contains fidx then t.landed else fidx :: t.landed
  let st := if landed.length = frames e.bytes then XSlotSt.done else if t.st = .idle then .active else t.st
  s.setXch p ((s.port p).xch.setSlot { t with landed := landed, st := st })

/-- Whether a window's HDID is the partner's; in Pair mode only HDID[15:1] count (R277). -/
def State.winHdid (s : State) (w : Win) (h : BitVec 16) : Bool :=
  if s.pair.on then w.hdid.toNat / 2 = h.toNat / 2 else w.hdid = h

/-- The first reason of R204 that rejects a write into a window, before its translation. -/
def State.winReason (s : State) (c : CtxRef) (w : Win) (h : BitVec 16) (f : Frame) (va n : Nat) : Option Nat :=
  if !w.open_ then some 1
  else if !s.winHdid w h || w.rcxh ≠ Frame.cxh f then some 2
  else if va < w.base || w.base + w.size < va + n then some 3
  else if !(if Frame.kind f = 1 then w.red else w.w) then some 4
  else if w.lcxh ≠ s.cxh c then some 5
  else none

/-- WIN_REJECT (R204): it names the window, the reason, the sending HDID and the VA. -/
def State.winReject (s : State) (c : CtxRef) (p i reason va : Nat) : State :=
  let w := s.win i
  ((s.setWin i { w with rejects := satAdd w.rejects 1 }).ulkDrop p).raise (dieOfPort p) evWinReject
    { s.infoCtx c 0 with names := [i, reason, (s.portHt p).phdid.toNat, va] }

/-- The bytes of the valid units of a frame. -/
def Frame.data (x : Frame) : List Byte := (x.payload.take (Frame.nunits x)).flatMap unitBytes

/-- A window as a frame of a port finds it: one that WINDOW_CLOSE closed after the frame's first byte counts as
open (R205). -/
def State.winOf (s : State) (p i : Nat) : Win :=
  match (s.port p).rx.shut.find? (fun e => e.1 = i) with
  | some e => e.2
  | none => s.win i

/-- A frame into a remote window (R204): landed whole or rejected whole. The die of the port translates it
(DESIGN CHOICE, log entry 32). -/
def State.landWindow (s : State) (c : CtxRef) (p : Nat) (e : PEnt) (x : Frame) : State :=
  let va := e.va + 256 * (Frame.fidx x)
  let bs := (Frame.data x)
  match s.winReason c (s.winOf p e.win) (s.portHt p).phdid x va bs.length with
  | some r => s.winReject c p e.win r va
  | none =>
    match s.vaWrite (dieOfPort p) c va bs with
    | (s, none) => s
    | (s, some f) => s.winReject c p e.win 6 f.1

/-- Pieces of bytes written at their VAs, up to the first that does not translate. -/
def State.vaWrites (s : State) (d : Nat) (c : CtxRef) : List (Nat × List Byte) → State × Bool
  | [] => (s, true)
  | e :: es =>
    match s.vaWrite d c e.1 e.2 with
    | (s, some _) => (s, false)
    | (s, none) => s.vaWrites d c es

/-- A frame into the staging ranges of its channel (R270, R273): a primary unit whose backup was taken is not
written. -/
def State.landChannel (s : State) (c : CtxRef) (p : Nat) (e : PEnt) (x : Frame) : State :=
  let ch := e.va % 64
  let h := s.pairHdid e.hdid
  let us := ((List.range (Frame.nunits x)).map (fun i => 8 * (Frame.fidx x) + i)).filter (fun u => u < ((s.port p).xch.chHdr ch).count)
  forAll ((s.port p).xch.chSrcs ch) (fun s q =>
    let prim : Bool := q.2.kind = 2 && q.2.tag = e.tag && s.pairHdid q.2.hdid = h
    let back : Bool := q.2.kind = 2 && q.2.bkEn && q.2.bkTag = e.tag && s.pairHdid q.2.bkHdid = h
    if prim || back then
      let keep := us.filter (fun u => !(prim && ((s.port p).xch.chan ch).tooLate q.1 u))
      let at0 := if prim then q.2.va else q.2.bkVa
      match s.vaWrites (dieOfPort p) c (keep.map (fun u => ((at0 + 32 * u) % 2 ^ 48, unitBytes (x.payload.getD (u % 8) 0)))) with
      | (s, false) => s.slotFault c p e.tag
      | (s, true) => s.setXch p ((s.port p).xch.landed ch q.1 q.2 (!prim) us)
    else s) s

/-- A frame that the epoch, the TAG and the HDID of R291's step 4 pass, and its landing under R204. A frame that
its window rejects counts as landed for its slot (DESIGN CHOICE, log entry 32). -/
def State.landFrame (s : State) (c : CtxRef) (p : Nat) (t : XSlot) (e : PEnt) (x : Frame) : State :=
  let s := s.slotGot p t e (Frame.fidx x)
  if e.dst then s.landChannel c p e x else s.landWindow c p e x

/-- Whether a frame carries another epoch than the slot of the context that holds its port (R42, R291). -/
def State.staleFrame (s : State) (c : CtxRef) (x : Frame) : Bool := bits (Frame.cxh x).toNat 7 0 ≠ (s.ctx c).epoch.toNat

/-! ### Digests (R278, R292) -/

/-- The 64-bit word `i` of a payload. -/
def Frame.word (x : Frame) (i : Nat) : W64 := (x.payload.getD (i / 4) 0).extractLsb' (64 * (i % 4)) 64

/-- The four digests of a digest frame. -/
def Frame.digests (x : Frame) : List W64 := [0, 1, 2, 3].map (Frame.word x)

/-- A twin's digest of an SSN kept until the context's own exists: the first valid copy counts. -/
def State.keepDigest (s : State) (c : CtxRef) (ssn : W32) (ds : List W64) : State :=
  let r := (s.ctx c).run
  if r.inbox.any (fun e => e.1 = ssn) then s else s.setCtx c { s.ctx c with run := { r with inbox := r.inbox ++ [(ssn, ds)] } }

/-- A digest of a context (R278): compared once with the own digests of the same SSN; one that comes before
them is kept. -/
def State.takeDigest (s : State) (c : CtxRef) (x : Frame) : State :=
  let r := (s.ctx c).run
  let ssn : W32 := (Frame.word x 4).truncate 32
  if (s.ctx c).st ≠ .running then s
  else if ssn = r.ssn then
    if r.compared then s
    else if r.digest.length = 4 then s.compareDigest c (Frame.digests x)
    else s.keepDigest c ssn (Frame.digests x)
  else if ssnBefore r.ssn ssn then s.keepDigest c ssn (Frame.digests x)
  else s

/-- A digest frame at a port (R291, R292): it carries no SEQ and is never NAKed; one with a reserved bit, a
stale CXH or off the twin ports of a Pair is dropped and counted. -/
def State.digestIn (s : State) (p : Nat) (x : Frame) : State :=
  let c := cxhSlot (Frame.cxh x)
  if Frame.reserved x || !((p = 14 || p = 15) && s.pairOn && c.part < 4 && s.cxh c = Frame.cxh x) then s.ulkDrop p
  else s.takeDigest c x

/-- DIGEST_RECEIVE (R278, R291, R292, R303). -/
def execDigestReceive (port : Nat) (x : Frame) (s : State) : Res :=
  if !portOk port then .fault .noSuchUnit
  else when_ ((s.port port).isUp && Frame.sofOk x && Frame.kind x = 2) s
    (if Frame.crcOk x then s.digestIn port x else s.crcErr port)

/-! ### FRAME_RECEIVE (R291) -/

/-- A W or RED frame whose CRC holds (R255, R291, R293). One that comes too early is NAKed where its epoch, TAG and
HDID pass (DESIGN CHOICE, log entry 32). -/
def State.takeFrame (s : State) (p : Nat) (x : Frame) : State :=
  let q := (Frame.seq x)
  let s := s.nakGap p q
  if (s.port p).rx.seen q then
    let y := s.port p
    s.setPort p { y with rx := { y.rx with waiting := true } }
  else if (Frame.reserved x) || (Frame.kind x) = 3 then (s.gotSeq p q).ulkDrop p
  else
    match s.portCtx p, s.rxSlot p (Frame.tag x) with
    | some c, some (t, e) =>
      if s.staleFrame c x then (s.gotSeq p q).ulkDrop p
      else if s.now + 6 < s.xAt c (e.off + (s.port p).delayNs) then s.nak p q
      else if frames e.bytes ≤ (Frame.fidx x) then (s.gotSeq p q).ulkDrop p
      else (s.gotSeq p q).landFrame c p t e x
    | _, _ => (s.gotSeq p q).ulkDrop p

/-- A frame at a port (R291 to R294): the checks in order; a bad frame is NAKed, a digest frame never. -/
def State.frameIn (s : State) (port : Nat) (x : Frame) (uncorr : Bool) : State :=
  if !(s.port port).isUp || !(Frame.sofOk x) then s
  else if !(Frame.crcOk x) || uncorr then
    let s := if (Frame.crcOk x) then s else s.crcErr port
    if (Frame.kind x) = 2 then s
    else
      (s.nakGap port (Frame.seq x)).nak port (Frame.seq x)
  else if (Frame.kind x) = 2 then s.digestIn port x
  else s.touch.takeFrame port x

/-- FRAME_RECEIVE (R291 to R294). -/
def execFrameReceive (port : Nat) (x : Frame) (uncorr : Bool) (s : State) : Res :=
  if !portOk port then .fault .noSuchUnit else .next (s.frameIn port x uncorr)

/-! ### Blocks (R286 to R288, R295) -/

/-- The type of a control-word code (R288). -/
def codeType (code : Nat) : Option Nat :=
  if code = 0 then some 0x80 else if code = 1 then some 0x81 else if code = 2 then some 0x82
  else if code = 3 then some 0x83 else if code = 4 then some 0x84
  else if code = 8 then some 0x01 else if code = 9 then some 0x02 else if code = 10 then some 0x03
  else if code = 11 then some 0x04 else if code = 12 then some 0x10 else if code = 13 then some 0x11
  else if code = 14 then some 0x20 else none

/-- A control word rebuilt (R288), none for a reserved code. -/
def ctlWord (v : Nat) : Option W64 :=
  (codeType (bits v 3 0)).map (fun ty => BitVec.ofNat 64 (ty + at_ 8 (bits v 51 4) + at_ 56 (bits v 59 52)))

/-- The code of a control word's type (R288); every type of a control word has one. -/
def typeCode (ty : Nat) : Nat :=
  if ty = 0x80 then 0 else if ty = 0x81 then 1 else if ty = 0x82 then 2 else if ty = 0x83 then 3 else if ty = 0x84 then 4
  else if ty = 0x01 then 8 else if ty = 0x02 then 9 else if ty = 0x03 then 10 else if ty = 0x04 then 11
  else if ty = 0x10 then 12 else if ty = 0x11 then 13 else 14

/-- The bits of a word in a block (R287): a control word as CODE, BODY and CHK, a stream word as it is. -/
def packWord (e : Bool × W64) : Nat × Nat :=
  if e.1 then (60, typeCode (symType e.2) + at_ 4 (symBody e.2) + at_ 52 (fld e.2 63 56)) else (64, e.2.toNat)

/-- Words packed from a bit on. -/
def packWords : Nat → List (Bool × W64) → Nat
  | _, [] => 0
  | pos, e :: es => at_ pos (packWord e).2 + packWords (pos + (packWord e).1) es

/-- The block of four words that a transmitter forms (R286, R287). -/
def blockOf (ws : List (Bool × W64)) : BitVec 257 :=
  if ws.any Prod.fst then
    BitVec.ofNat 257 (1 + at_ 1 ((List.range 4).foldl (fun m w => m + b1 ((ws.getD w (false, 0)).1) * 2 ^ w) 0) + packWords 5 ws)
  else BitVec.ofNat 257 (packWords 1 ws)

/-- The lane of a ten-bit symbol of a codeword (R286): symbol s on lane s mod N. -/
def Port.laneOf (x : Port) (sym : Nat) : Nat :=
  if x.link.lanes4 then sym % 4 + (if x.link.upper then 4 else 0) else sym % 8

/-- The four words of an H = 1 block from bit `at` up (R287). -/
def blockWords (v map : Nat) : Nat → Nat → Nat → List (Bool × Nat)
  | 0, _, _ => []
  | n + 1, w, pos =>
    if bit map w then (true, bits v (pos + 59) pos) :: blockWords v map n (w + 1) (pos + 60)
    else (false, bits v (pos + 63) pos) :: blockWords v map n (w + 1) (pos + 64)

/-- The words of a block (R287), none of one with H = 1 and MAP = 0. -/
def wordsOf (v : Nat) : Option (List (Bool × Nat)) :=
  if !bit v 0 then some ((List.range 4).map (fun w => (false, bits v (64 * w + 64) (64 * w + 1))))
  else if bits v 4 1 = 0 then none
  else some (blockWords v (bits v 4 1) 4 0 5)

/-- The symbol errors per codeword that the FEC corrects (R295). -/
def fecLimit : Nat := 15

/-- Whether a codeword is uncorrectable: more symbols in error than the FEC corrects (R295). -/
def fecLost (x : FecRes) : Bool := x.uncorrectable || fecLimit < x.corrected

/-- The FEC result of a codeword, which comes with its first block and holds for its twenty (R286, R295). -/
def Port.takeFec (x : Port) (fec : FecRes) : Port :=
  let rx := { x.rx with blk := (x.rx.blk + 1) % 20, words := [] }
  if x.rx.blk = 0 then
    { x with link := { x.link with fecCor := satAdd x.link.fecCor (if fecLost fec then 0 else fec.corrected),
                                   fecUnc := satAdd x.link.fecUnc (b1 (fecLost fec)) },
             rx := { rx with unc := fecLost fec } }
  else { x with rx := rx }

def State.setRx (s : State) (p : Nat) (x : PortRx) : State := s.setPort p { s.port p with rx := x }

/-- The two copies of a Thistle symbol, counted already (R242, R288). `okA` and `okB` say whether a copy came
in a codeword that could be corrected. -/
def State.thsIn (s : State) (p : Nat) (a : W64) (okA : Bool) (b : W64) (okB : Bool) : State :=
  let seen (w : W64) (ok : Bool) : W64 := if ok then w else w ^^^ (1#64 <<< 56)
  if symType a = tyArrive then s.arriveCore p (seen a okA) (seen b okB) else s.completeCore p (seen a okA) (seen b okB)

/-- A first copy whose duplicate does not follow it. -/
def State.flushFirst (s : State) (p : Nat) : State :=
  let r := (s.port p).rx
  match r.first with
  | none => s
  | some (a, ok) => (s.setRx p { r with first := none }).thsIn p a ok a false

/-- A copy of a Thistle symbol: the first waits for its duplicate in the next word (R242). -/
def State.thsCopy (s : State) (p : Nat) (w : W64) (ok : Bool) : State :=
  let r := (s.port p).rx
  match r.first with
  | some (a, okA) =>
    if symType a = symType w then (s.setRx p { r with first := none }).thsIn p a okA w ok
    else
      let s := s.flushFirst p
      s.setRx p { (s.port p).rx with first := some (w, ok) }
  | none => s.setRx p { r with first := some (w, ok) }

/-- A frame from its 34 words (R289). -/
def frameOf (ws : List W64) : Frame :=
  let unit (i : Nat) : W256 := unitOf ((((ws.drop (4 * i + 1)).take 4)).flatMap (fun w => toLE 8 w.toNat))
  { sof := ws.getD 0 0, payload := (List.range 8).map unit, trailer := ws.getD 33 0 }

/-- A stream word: the next word of the frame half received, which the trailer completes (R289). -/
def State.streamWord (s : State) (p : Nat) (w : W64) : State :=
  let r := (s.port p).rx
  match r.part with
  | none => s
  | some (ws, u) =>
    let ws := ws ++ [w]
    let u := u || r.unc
    if ws.length = 34 then
      let s := (s.setRx p { r with part := none }).frameIn p (frameOf ws) u
      s.setRx p { (s.port p).rx with shut := [] }
    else s.setRx p { r with part := some (ws, u) }

/-- The parts of a nanosecond of two time stamps of a symbol that a block brings: free values. -/
def State.subStamps (s : State) : State × BitVec 4 × BitVec 4 :=
  ({ s with free := s.free + 2 }, Config.subStamp s.free, Config.subStamp (s.free + 1))

/-- A hall-time symbol or GOING_AWAY from a block (R288). -/
def State.hallSym (s : State) (p : Nat) (w : W64) : State :=
  let (s, a, b) := s.subStamps
  if symType w = tyTsReq then s.tsReqIn p w a b
  else if symType w = tyTsResp then s.tsRespIn p w
  else if symType w = tyTsFup then s.tsFupIn p w a
  else if symType w = tyTree then s.treeIn p w
  else s.goingIn p w

/-- A control word that passes its check (R288): symbols go to hall time and Thistle, link-control words are
the port's own. CAL is taken with ALIGN_COMPLETE, and IDLE fills. -/
def State.goodWord (s : State) (p : Nat) (w : W64) : State :=
  let ty := symType w
  if ty = tyArrive || ty = tyComplete then s.thsCopy p w true
  else
    let s := s.flushFirst p
    if ty = tySof then s.setRx p { (s.port p).rx with part := some ([w], (s.port p).rx.unc), shut := [] }
    else if ty = tyAck then s.ackIn p w
    else if ty = tyNak then s.nakIn p w
    else if ty < 0x80 then s.hallSym p w
    else s

/-- A control word that is discarded (R288, R295): a Thistle copy is a failed copy, and a frame whose SOF is
lost is not received. -/
def State.lostWord (s : State) (p : Nat) (w : W64) : State :=
  if symType w = tyArrive || symType w = tyComplete then s.thsCopy p w false
  else
    let s := s.flushFirst p
    if symType w = tySof then s.setRx p { (s.port p).rx with part := none, shut := [] } else s

/-- One word of a block (R288, R295): a control word of an uncorrectable codeword is discarded, one that fails
its check too, and a symbol that fails or a reserved code is counted in SYMERR. -/
def State.takeWord (s : State) (p : Nat) (e : Bool × Nat) : State :=
  if !e.1 then (s.flushFirst p).streamWord p (BitVec.ofNat 64 e.2)
  else
    match ctlWord e.2 with
    | none => if (s.port p).rx.unc then s.flushFirst p else (s.flushFirst p).symErr p
    | some w =>
      if (s.port p).rx.unc then s.lostWord p w
      else if symOk w then s.goodWord p w
      else (if symType w < 0x80 then s.symErr p else s).lostWord p w

/-- Whether a word of a block is a NAK. -/
def isNak (e : Bool × Nat) : Bool := e.1 && bits e.2 3 0 = typeCode tyNak

/-- The words of a block in the order in which they are processed: an ACK before a NAK of the same block (R294). -/
def processed (ws : List (Bool × Nat)) : List (Bool × Nat) := ws.filter (fun e => !isNak e) ++ ws.filter isNak

/-- The words of a block as a port keeps them. -/
def keptWords (ws : List (Bool × Nat)) : List (Bool × W64) :=
  ws.map (fun e => (e.1, if e.1 then (ctlWord e.2).getD 0 else BitVec.ofNat 64 e.2))

/-- BLOCK_RECEIVE (R286 to R288, R294, R295): the words of a 257-bit block go where they belong. -/
def execBlockReceive (port : Nat) (x : BitVec 257) (fec : FecRes) (s : State) : Res :=
  if !portOk port then .fault .noSuchUnit
  else if !(s.port port).receives then .next s
  else
    let p := (s.port port).takeFec fec
    match wordsOf x.toNat with
    | none => .next (s.setPort port { p with link := { p.link with blkErr := satAdd p.link.blkErr 1 } })
    | some ws =>
      .next (forAll (processed ws) (fun s e => s.takeWord port e) (s.setPort port { p with rx := { p.rx with words := keptWords ws } }))

end Sys2Proof.Machine
end

