-- ==== Sys2Proof/Machine/Removal.lean ====
section
/-!
DEFINITION. The removal of contexts: allocations, the teardown sequence, wipes and scrubs (R42, R73, R75,
R178, R205, R229, R362, R366, R367, R371, R375 to R378). -/

namespace Sys2Proof.Machine

/-! ### Allocations by the bytes of HBM that they reach (R178, R328) -/

/-- Pages of 4 KiB below `g` that fall on lane `i` of `n` interleaved lanes. -/
def lanePages (g n i : Nat) : Nat := (g + n - 1 - i) / n

/-- The range of a stack that a PA range reaches: offsets from the first to the second, which is not reached.
Empty where they are equal. -/
def paSpan (l : Layout) (p pa n st : Nat) : Nat × Nat :=
  let sp := pa / 2 ^ 45
  if sp = 0 then
    if bits pa 41 37 = st then (bits pa 36 0, bits pa 36 0 + n) else (0, 0)
  else if sp = 1 then
    let off := bits pa 42 0
    if bits pa 44 43 = st / 5 then
      (4096 * lanePages (off / 4096) 5 (st % 5), 4096 * lanePages ((off + n) / 4096) 5 (st % 5))
    else (0, 0)
  else
    let ds := diesOf l p
    let off := bits pa 44 0
    match ds.idxOf? (st / 5) with
    | none => (0, 0)
    | some i =>
      let lane := ds.length * (st % 5) + i
      (4096 * lanePages (off / 4096) (5 * ds.length) lane, 4096 * lanePages ((off + n) / 4096) (5 * ds.length) lane)

/-- Bytes of an allocation. -/
def Ctx.allocBytes (x : Ctx) : Nat := x.alloc2m * 2 ^ 21

/-- The range of a stack that a context's allocation reaches. -/
def State.allocSpan (s : State) (c : CtxRef) (st : Nat) : Nat × Nat :=
  paSpan s.layout c.part (s.ctx c).allocPa (s.ctx c).allocBytes st

/-- Whether two ranges of a stack share a byte. -/
def spansMeet (a b : Nat × Nat) : Bool := max a.1 b.1 < min a.2 b.2

/-- Whether a context's allocation shares a byte with a PA range of its partition. -/
def State.allocMeets (s : State) (c : CtxRef) (pa n : Nat) : Bool :=
  (s.ctx c).alloc2m ≠ 0 && (List.range 20).any (fun st => spansMeet (s.allocSpan c st) (paSpan s.layout c.part pa n st))

/-- The allocation of a context written with zeros (R376). -/
def State.scrubAlloc (s : State) (c : CtxRef) : State :=
  let inside (k : Nat) : Bool :=
    let sp := s.allocSpan c (k / 2 ^ 37)
    sp.1 ≤ k % 2 ^ 37 && k % 2 ^ 37 < sp.2
  { s with hbm := s.hbm.filter (fun e => !inside e.1) }

/-- The least time of a scrub, ns: the longest share of a stack at 2.0 TB/s (R376). -/
def State.scrubNs (s : State) (c : CtxRef) : Nat :=
  ((List.range 20).map (fun st => ((s.allocSpan c st).2 - (s.allocSpan c st).1) / 2000)).foldl max 0

/-! ### Step 1: stop (R75, R205, R362, R375) -/

/-- Windows that satisfy a predicate closed (R205). -/
def State.closeWins (s : State) (p : Win → Bool) : State :=
  { s with wins := s.wins.map (fun e => (e.1, if p e.2 then {} else e.2)) }

/-- The MMU fault records that name a handle dropped, also those no longer in use (R199), and the transfers of
its tiles that wait for one forgotten. -/
def State.dropRecs (s : State) (c : CtxRef) : State :=
  forAll (s.ctx c).dies (fun s d =>
    let x := s.die d
    let mine (t : Nat) : Bool := (s.ctx c).owns (cidOfTile t)
    s.setDie d { x with str := { x.str with
      frec := x.str.frec.map (fun e => (e.1, if bits e.2.fsrc.toNat 15 0 = (s.cxh c).toNat then {} else e.2)),
      waitq := x.str.waitq.filter (fun q => !mine q.1) } }) s

/-- The fault records that are free given to transfers that wait, on each die of a context. -/
def State.refillRecs (s : State) (c : CtxRef) : State :=
  forAll (s.ctx c).dies (fun s d => forAll (List.range 32) (fun s _ => if (s.freeRec d).isSome then s.serveWait d else s) s) s

/-- Step 1 of R375. -/
def State.stopCtx (s : State) (c : CtxRef) : State :=
  let h := s.cxh c
  let s := s.closeWins (fun w => w.open_ && w.lcxh = h)
  let s := forAll (s.portsOf c) (fun s p => s.setXch p (stopXch (s.port p).xch)) s
  s.dropRecs c

/-! ### Steps 2 and 3: epoch and purge (R42, R75, R375) -/

/-- A tile whose transfers are discarded and whose handles close. -/
def Tile.purged (x : Tile) : Tile :=
  { x with queues := x.queues.map (fun q => (q.1, { q.2 with reqs := [] })), handles := [], dmaHeld := none }

/-- A cluster whose jobs are discarded. -/
def Cluster.purged (x : Cluster) : Cluster :=
  { x with eng := x.eng.map (fun e => (e.1, { x.settle e.2 with q := [], acc := [], accOf := none, base := 0, last := none })), stopAt := none }

/-- Whether two replies go to the same ring. -/
def State.answer (s : State) (rs : List RingRef) (code : Nat) : State := forAll rs (fun s r => s.replyCode r code) s

/-- The slot takes its next epoch; what waits on the handle is answered BAD_PARAM (R42, R75). -/
def State.nextEpoch (s : State) (c : CtxRef) : State :=
  let x := s.ctx c
  let h := s.cxh c
  let mine := s.freqs.filter (fun q => q.cxh = h)
  let s := s.setCtx c { x with epoch := x.epoch + 1, run := { x.run with haltBy := [] } }
  let s : State := { s with freqs := s.freqs.filter (fun q => q.cxh ≠ h) }
  (s.answer x.run.haltBy codeBadParam).answer (mine.filterMap (fun q => q.owner)) codeBadParam

/-- Step 3 of R375. -/
def State.purge (s : State) (c : CtxRef) : State :=
  let x := s.ctx c
  let s := forAll x.tids (fun s t => s.setTile t (s.tile t).purged) s
  forAll x.cids (fun s i => s.setCluster i (s.cluster i).purged) s

/-- Steps 1 to 3 of R375, and the record of the removal. -/
def State.beginRemoval (s : State) (c : CtxRef) (td : Td) : State :=
  let s := s.stopCtx c
  let s := s.purge c
  let s := s.nextEpoch c
  let s := s.setCtx c { s.ctx c with st := .tearing, td := some td, flr := td.kind = .reset && (s.ctx c).flr }
  s.refillRecs c

/-! ### Step 4: drain (R375) -/

/-- The handle that a slot had before its present epoch. -/
def State.oldCxh (s : State) (c : CtxRef) : BitVec 16 := cxhOf c ((s.ctx c).epoch - 1)

/-- Whether a thread holds a message that travels, or whose reply does. -/
def Thread.msgOut (h : Thread) : Bool :=
  match h.wait with
  | .send _ _ _ _ _ _ .travelling => true
  | .send _ _ _ _ _ _ (.replied _) => true
  | _ => false

/-- Messages in the fabric that a tile has sent, or the rest of which it waits for. -/
def Tile.msgsOut (x : Tile) : Nat := (x.thr.filter (fun h => h.2.msgOut)).length + (x.store.filter (fun m => !m.whole)).length

/-- The drain counters of a handle on a die: messages, exchange units, frames for replay, and DMA units in
flight with the writes in the queues of the die's HBM controllers (R375). -/
def State.drainTiles (s : State) (c : CtxRef) (d : Nat) : Nat := (((s.ctx c).tidsOn d).map (fun t => (s.tile t).msgsOut)).sum
def State.drainUnits (s : State) (h : BitVec 16) (d : Nat) : Nat :=
  (s.flights.filter (fun f => f.cxh = h && routerDie (f.rr, f.rc) = d)).length
def State.drainPort (s : State) (h : BitVec 16) (p : Nat) : Nat := ((s.port p).tx.buf.filter (fun f => f.cxh = h)).length
def State.drainPorts (s : State) (h : BitVec 16) (d : Nat) : Nat := ((List.range 4).map (fun k => s.drainPort h (4 * d + k))).sum

def State.drainDma (s : State) (h : BitVec 16) (d : Nat) : Nat :=
  ((s.die d).str.fly.filter (fun f => f.cxh = h)).length + ((s.die d).str.hbmq.filter (fun q => q.cxh = h && q.wr)).length

/-- The sum of a context's drain counters on a die. -/
def State.drainOn (s : State) (c : CtxRef) (h : BitVec 16) (d : Nat) : Nat :=
  s.drainTiles c d + s.drainUnits h d + s.drainPorts h d + s.drainDma h d

/-- Whether every drain counter of a removed context reads zero. -/
def State.drained (s : State) (c : CtxRef) : Bool :=
  (diesOf s.layout c.part).all (fun d => s.drainOn c (s.oldCxh c) d = 0)

/-! ### Step 5: wipe (R375, R377, R378) -/

/-- A tile reset and its SRAM zeroised. A fence stays, and so do the tile's cycles. -/
def Tile.wiped (x : Tile) : Tile :=
  { fenced := x.fenced, grants := x.grants, issueAt := x.issueAt, dmaAt := x.dmaAt }

/-- A cluster wiped. Its clocks and bank groups stay. -/
def Cluster.wiped (x : Cluster) : Cluster :=
  { clk := x.clk, want := x.want, since := x.since, k := x.k, envelope := x.envelope, toMode := x.toMode, cyc := x.cyc, cloverPh := x.cloverPh,
    tileCyc := x.tileCyc, tilePh := x.tilePh, g1 := x.g1, g2 := x.g2 }

/-- A port list, its RAM, its channels and their counts wiped (R253, R265, R275). -/
def PortXch.wiped (x : PortXch) : PortXch := { buf := x.buf, red := x.red, deadTold := x.deadTold }

/-- The links, scatters, check units and translations of a slot released. -/
def DieStr.wipe (x : DieStr) (slot : Nat) (keepRoot : Bool) : DieStr :=
  { x with root := if keepRoot then x.root else sput x.root slot 0,
           tlb := x.tlb.filter (fun e => e.slot ≠ slot),
           links := x.links.filter (fun e => bits e.2.cfg.toNat 11 9 ≠ slot),
           scat := x.scat.filter (fun e => e.2.slot ≠ slot),
           chk := x.chk.filter (fun e => bits e.2.ctl.toNat 5 3 ≠ slot) }

/-- The global flags of a slot cleared and released, and its comparison record. -/
def DieFlg.wipe (x : DieFlg) (slot : Nat) : DieFlg :=
  let mine (n : Nat) : Bool := sget 0 x.gfOwn n = slot + 1
  { x with gf := sdrop mine x.gf, gfOwn := x.gfOwn.filter (fun e => e.2 ≠ slot + 1), left := sput x.left slot 0 }

/-- The reset block's registers of a slot. -/
def DieRst.wipe (x : DieRst) (slot : Nat) : DieRst :=
  { x with wdog := sput x.wdog slot 0, ctxStat := sput x.ctxStat slot 0, missBits := sput x.missBits slot 0, sample := sput x.sample slot 0 }

/-- The registers marked Teardown of a slot on a die; `h` is the handle of the context that goes, `pairToo`
says that it loaded RED_PAIRSET, and `old` are the watch slots of its earlier headers. DESIGN CHOICE (log entry 45):
NUM_DS_CTL returns to its reset value, 0x103E8. -/
def Die.wipe (x : Die) (c : CtxRef) (h : BitVec 16) (keepRoot pairToo : Bool) (old : List Nat) : Die :=
  let mine (e : Nat × Watch) : Bool :=
    if e.2.own.getLsbD 5 then bits e.2.own.toNat 4 0 = 8 * c.part + c.slot else old.contains e.1
  let err : Bool := fld x.xerr0 58 43 = h.toNat
  { x with watch := x.watch.filter (fun e => !mine e), dsCtl := sdrop (fun k => k = c.slot) x.dsCtl,
           str := x.str.wipe c.slot keepRoot, flg := x.flg.wipe c.slot, rst := x.rst.wipe c.slot,
           ss := if (sget {} x.ss c.slot).missAct then sput x.ss c.slot { missAct := true } else sdrop (fun k => k = c.slot) x.ss,
           budget := sdrop (fun k => k / 256 = c.slot) x.budget,
           ths := sdrop (fun k => k = c.slot) x.ths, xerr0 := if err then 0 else x.xerr0, xerr1 := if err then 0 else x.xerr1,
           xnewAt := if err then none else x.xnewAt,
           pairSet := if pairToo then 0 else x.pairSet }

/-- The ports whose channel RAM a context's records of code 8 name (R79). -/
def Ctx.chanPorts (x : Ctx) : List Nat :=
  (List.range 16).filter (fun p => x.tables.any (fun r => r.table = 8 && 4 * r.die + r.index / 8192 = p))

/-- Step 5 of R375 on a context whose handle was `h`. The superstep registers of its slot are marked Teardown
too (R62). -/
def State.wipeCtx (s : State) (c : CtxRef) (h : BitVec 16) (keepRoot : Bool) : State :=
  let x := s.ctx c
  let s := s.setCtx c { x with run := {} }
  let s := forAll x.tids (fun s t => s.setTile t (s.tile t).wiped) s
  let s := forAll x.cids (fun s i => s.setCluster i (s.cluster i).wiped) s
  let s := forAll (s.portsOf c ++ (x.chanPorts.filter (fun p => (s.port p).xch.owner = none))) (fun s p => s.setXch p (s.port p).xch.wiped) s
  let pairOn (d : Nat) : Bool := x.tables.any (fun r => r.table = 12 && r.die = d)
  forAll (diesOf s.layout c.part) (fun s d =>
    s.setDie d ((s.die d).wipe c h keepRoot (pairOn d) ((x.released.filter (fun e => e.1 = d)).map Prod.snd))) s

/-- A context slot back in CREATED: its clusters and allocation stay, its object is gone (R377). One that a
Function Level Reset is to remove still is (R314). -/
def Ctx.recreated (x : Ctx) : Ctx :=
  { epoch := x.epoch, st := .created, strict := x.strict, clusters := x.clusters, allocPa := x.allocPa, alloc2m := x.alloc2m,
    flr := x.flr }

/-! ### Samples in progress (R366) -/

/-- OFFSET and LEN of a SCRATCH_SAMPLE by its first parameter word. -/
def sampleOff (w1 : Nat) : Nat := bits w1 17 0
def sampleLen (w1 : Nat) : Nat := 32 * (bits w1 22 18 + 1)

/-- A sample in progress taken and answered (R366). One that HBM no longer takes (R384) gets no reply. -/
def State.finishSample (s : State) (c : CtxRef) : State :=
  match (s.ctx c).sampleBy with
  | none => s
  | some (r, w1) =>
    let s := s.setCtx c { s.ctx c with sampleBy := none }
    if !s.hbmOn then s else
    let bad := (s.ctx c).dies.any (fun d => !s.dumpOk d)
    let s := forAll (s.ctx c).dies (fun s d => s.sampleDie c d (sampleOff w1) (sampleLen w1) false) s
    s.replyTo r (if bad then codeBadParam else codeOk) 0 0 0

/-! ### L0 (R367, R375, R377) -/

/-- Whether an L1 that forces the removal of a context is in progress (R369). -/
def State.forcing (s : State) (c : CtxRef) : Bool := s.resets.any (fun q => q.level = 1 && q.ctx = some c)

/-- A teardown or a context reset begun: a sample in progress ends first; the L0 stands in the list of resets. -/
def State.removeCtx (s : State) (c : CtxRef) (kind : TdKind) (owner : Option RingRef) : State :=
  let s := s.finishSample c
  let h := s.cxh c
  let s := s.beginRemoval c { kind := kind, owner := owner }
  { s with resets := s.resets ++ [{ level := 0, target := h, part := c.part, start := s.now, owner := none, ctx := some c }] }

/-- The code and the first result word of a removal that ends: TIMEOUT and the level where it was forced (R369). -/
def Td.code (t : Td) : Nat := match t.forced with | some _ => codeTimeout | none => codeOk
def Td.word (t : Td) (w : Nat) : Nat := match t.forced with | some l => l | none => w

/-- CTX_TEARDOWN (R375), accepted in every state. -/
def execCtxTeardown (r : RingRef) (w : CmdWords) (s : State) : Res :=
  hostCtxCmd s r w { op := 0x13, needP := true } (fun s c => s.removeCtx c .teardown (some r))

/-- CTX_RESET (R377). -/
def execCtxReset (r : RingRef) (w : CmdWords) (s : State) : Res :=
  hostCtxCmd s r w { op := 0x14, needP := true } (fun s c => s.removeCtx c .reset (some r))

/-- The L0 of a slot leaves the list of resets. -/
def State.endL0 (s : State) (c : CtxRef) : State :=
  { s with resets := s.resets.filter (fun q => !(q.level = 0 && q.ctx = some c)) }

/-- Whether a removal is a teardown, up to the end of its scrub (R375). -/
def Td.isTeardown (t : Td) : Bool := t.kind = .teardown || t.kind = .flr

/-- The next teardown of a Function Level Reset of a partition begun, once no teardown of the partition runs
(R40, R314, R375): in ascending order of slots. -/
def State.nextFlr (s : State) (p : Nat) : State :=
  let slots := (List.range 8).map (fun i => (⟨p, i⟩ : CtxRef))
  if slots.any (fun c => (s.ctx c).td.any Td.isTeardown) then s
  else
    match slots.find? (fun c => (s.ctx c).flr && (s.ctx c).td.isNone) with
    | none => s
    | some c => s.removeCtx c .flr none

/-- DRAIN_COMPLETE (R369, R371, R375, R377): the wipe; a reset context is CREATED again, a torn-down one goes on
to its scrub. One that an L2 destroys goes on when the L2 completes. -/
def execDrainComplete (c : CtxRef) (s : State) : Res :=
  if !c.ok then .fault .noSuchUnit
  else awake s <|
    match (s.ctx c).td with
    | none => .next s
    | some t =>
      if !t.wiped && t.kind ≠ .level2 && s.drained c && !s.forcing c && s.plat.pf then
        let s := (s.wipeCtx c (s.oldCxh c) (t.kind = .reset)).endL0 c
        if t.kind = .reset then
          let s := s.setCtx c (s.ctx c).recreated
          .next ((s.replyTo t.owner t.code (t.word (s.cxh c).toNat) 0 0).nextFlr c.part)
        else .next (s.setCtx c { s.ctx c with td := some { t with wiped := true, due := s.now + s.scrubNs c } })
      else .next s

/-- SCRUB_COMPLETE (R376): the allocation reads zero, the slot is free, the reply is written. No scrub goes on
in a power failure (R384). -/
def execScrubComplete (c : CtxRef) (s : State) : Res :=
  if !c.ok then .fault .noSuchUnit
  else awake s <|
    match (s.ctx c).td with
    | none => .next s
    | some t =>
      if t.wiped && t.due ≤ s.now && s.plat.pf then
        let s := s.scrubAlloc c
        let s := s.setCtx c { epoch := (s.ctx c).epoch }
        .next ((s.replyTo t.owner t.code (t.word 0) 0 0).nextFlr c.part)
      else .next s

end Sys2Proof.Machine
end

