-- ==== Sys2Proof/Machine/HostBasic.lean ====
section
/-!
DEFINITION. Rings, doorbells, NOP, IDENTIFY, the configuration image and partitions (R37, R40, R302, R318,
R326, R329 to R332). -/

namespace Sys2Proof.Machine

/-! ### Rings (R317, R318) -/

/-- Whether the host's accesses reach the PCIe controller: it has power and is not in reset (R354, R356). -/
def State.hostUp (s : State) : Bool := s.plat.powered && s.plat.perst && !s.plat.pcie.off

/-- A write of HST_RDB (R318): a tail inside the ring, or ERR; discarded while EN is 0. -/
def State.doorbell (s : State) (r : RingRef) (t : Nat) : State :=
  let x := s.ring r
  if !x.en then s
  else if x.n ≤ t then
    let s := s.setRing r { x with err := true }
    s.setFn r.pf { s.fn r.pf with ringErr := putBit (s.fn r.pf).ringErr r.ring true }
  else s.setRing r { x with tail := t, tailAt := some s.now, tailOld := x.tailSeen s.now }

/-- DOORBELL (R318). -/
def execDoorbell (r : RingRef) (v : W32) (s : State) : Res :=
  if !r.ok then .fault .noSuchUnit else when_ s.hostUp s (s.doorbell r (bits v.toNat 15 0))

/-- Whether a ring can be enabled with a LOG2N (R317). -/
def Ring.mayEnable (x : Ring) (log2n : Nat) : Bool :=
  4 ≤ log2n && log2n ≤ 12 && bits x.cmd.toNat 5 0 = 0 && bits x.rpl.toNat 4 0 = 0

/-- A write of HST_RCTL (R317, R318): LOG2N stays while EN is 1; EN from 0 to 1 starts the ring afresh or fails. -/
def Ring.write (x : Ring) (v : Nat) : Ring :=
  let lg := if x.en then x.log2n else bits v 3 0
  let want := bit v 4
  let en := want && (x.en || x.mayEnable lg)
  let y := { x with ctl := BitVec.ofNat 32 (lg + at_ 4 (b1 en) + at_ 5 (bits v 14 5)) }
  if en && !x.en then { y with head := 0, tail := 0, tailAt := none, err := false, seq := x.seq0 } else y

/-- HST_RCTL of a ring written. A ring that starts afresh leaves HST_FNERR. -/
def State.writeRctl (s : State) (r : RingRef) (v : Nat) : State :=
  let y := (s.ring r).write v
  let s := s.setRing r y
  s.setFn r.pf { s.fn r.pf with ringErr := putBit (s.fn r.pf).ringErr r.ring y.err }

/-- RING_ENABLE (R318): a write of HST_RCTL with EN = 1. -/
def execRingEnable (r : RingRef) (v : W32) (s : State) : Res :=
  if !r.ok then .fault .noSuchUnit else when_ (s.hostUp && v.getLsbD 4) s (s.writeRctl r v.toNat)

/-- RING_DISABLE (R318): a write of HST_RCTL with EN = 0. The command in progress finishes. -/
def execRingDisable (r : RingRef) (v : W32) (s : State) : Res :=
  if !r.ok then .fault .noSuchUnit else when_ (s.hostUp && !v.getLsbD 4) s (s.writeRctl r v.toNat)

/-! ### NOP and IDENTIFY (R322, R326, R329) -/

/-- NOP (R326). An opcode that the table does not list is taken here too, and completes with BAD_OPCODE before
any other check (R322, R326). -/
def execNopCommand (r : RingRef) (w : CmdWords) (s : State) : Res :=
  let op := bits w.w0.toNat 7 0
  if opcodes.contains op then hostCmd s r w { op := 0x01 } (fun s => s.replyCode r codeOk)
  else if !r.ok then .fault .noSuchUnit
  else when_ (s.canTake r && s.atTurn r) s ((s.take r w).replyCode r codeBadOpcode)

/-- Whether a cluster is enabled (R33). -/
def State.enabled (s : State) (cid : Nat) : Bool := !s.fuses.dis.getLsbD cid

/-- The grade (R4, R329). -/
def State.grade (s : State) : Nat :=
  match ((List.range 32).filter (fun i => !s.enabled i)).length with
  | 0 => 0x8192
  | 1 => 0x7936
  | _ => 0x7680

def Layout.code : Layout → Nat
  | .p1 => 0
  | .p2 => 1
  | .p4 => 2

/-- The version of the running firmware (R329). -/
def State.fwVer (s : State) : Nat :=
  if s.plat.recovery then Config.romVersion.toNat else if s.plat.fwB then s.plat.fwImgB.version.toNat else s.plat.fwImgA.version.toNat

/-- W1 of IDENTIFY. -/
def State.idW1 (s : State) (f : Nat) : Nat :=
  s.grade + at_ 16 s.fuses.stepping.toNat + at_ 24 (if s.parts = 0 then 3 else s.layout.code) + at_ 26 f
    + at_ 28 (b1 s.cfg.isSome) + at_ 29 s.fuses.lcs.toNat + at_ 31 (b1 s.pairOn) + at_ 32 (~~~s.fuses.dis).toNat

/-- W2 of IDENTIFY. -/
def State.idW2 (s : State) (f : Nat) : Nat :=
  1 + at_ 16 s.hdid.toNat
    + at_ 32 (if s.partExists f then ((List.range 8).map (fun c => b1 ((s.ctx ⟨f, c⟩).st = .free) * 2 ^ c)).sum else 0)

/-- IDENTIFY (R329). -/
def execIdentify (r : RingRef) (w : CmdWords) (s : State) : Res :=
  hostCmd s r w { op := 0x02 } (fun s =>
    s.reply r codeOk (s.idW1 r.pf) (s.idW2 r.pf) (s.fwVer + at_ 32 (b1 s.plat.fwB)))

/-! ### The configuration image (R330 to R332) -/

/-- A field of an image. -/
def imgField (img : List Byte) (off n : Nat) : Nat := leNat ((img.drop off).take n)

/-- The first check of R331 that an image of 88 bytes fails, given the command's LEN. -/
def cfgCheck (img : List Byte) (len : Nat) : Option Nat :=
  let w10 := imgField img 0x10 4
  let en := imgField img 0x14 2
  if imgField img 0 4 ≠ 0x50444347 then some 1
  else if imgField img 4 2 ≠ 1 then some 2
  else if imgField img 8 4 ≠ 64 || len ≠ 88 then some 3
  else if (crc64 0 (img.take 80)).toNat ≠ imgField img 0x50 8 then some 4
  else if imgField img 6 2 ≠ 0 || imgField img 12 4 ≠ 0 || bits w10 31 19 ≠ 0 || imgField img 0x18 56 ≠ 0 then some 5
  else if bits w10 15 0 = 0xFFFF then some 6
  else if bit w10 17 && !(bit en 14 && bit en 15) then some 7
  else none

/-- The configuration that an image holds. -/
def cfgOf (img : List Byte) : Cfg :=
  let w10 := imgField img 0x10 4
  { hdid := BitVec.ofNat 16 (bits w10 15 0), master := bit w10 16, pair := bit w10 17, env := bit w10 18,
    portEn := BitVec.ofNat 16 (imgField img 0x14 2), allow4 := BitVec.ofNat 16 (imgField img 0x16 2), bytes := img }

/-- Whether a slot holds a context or its removal. -/
def State.anyCtx (s : State) : Bool := allCtx.any (fun c => (s.ctx c).st != .free)

/-- CONFIG_APPLY (R322, R331, R332): the image is read and checked; a second one while the first takes effect
finds the module busy. -/
def execConfigApply (r : RingRef) (w : CmdWords) (s : State) : Res :=
  hostCmd s r w { op := 0x03, pf0 := true, masks := [2 ^ 64 - 1, 0xFFFFFFFF], lock := some 2 } (fun s =>
    if s.anyCtx || s.plat.cfgBy.isSome then s.replyCode r codeBusy
    else if w.w1.toNat % 8 ≠ 0 then s.replyCode r codeBadParam
    else
      let img := mread s.hostMem w.w1.toNat 88
      match cfgCheck img (fld w.w2 31 0) with
      | some n => s.reply r codeConfigInvalid n 0 0
      | none => { s with plat := { s.plat with cfgBy := some (some r, img) } })

/-- ATTN.CONFIG as it stands stored, so that it outlives its level (R325). -/
def State.latchConfig (s : State) : State := forAll [0, 1, 2, 3] (fun s f => s.setFn f { s.fn f with attn := s.attn f }) s

/-- Every port DOWN with cause CONFIG (R302, R332, R372). -/
def State.configDown (s : State) : State :=
  forAll (List.range 16) (fun s p =>
    let s := s.portDown p downConfig
    s.setPortLink p { (s.port p).link with cause := BitVec.ofNat 4 downConfig }) s

/-- MASTER loaded (R233, R236, R237): a master has depth 0 and no parent; a module that is no longer master
runs on its own. -/
def State.setMaster (s : State) (c : Cfg) : State :=
  let h := s.ht
  if c.master then s.setHt { h with master := true, depth := 0, parentV := false, mhdid := c.hdid, limited := false, lostAt := none }
  else if h.master then (s.setHt { h with master := false }).parentLost
  else s

/-- The power mode of the module and of every cluster set (R332). A change in progress ends there. -/
def State.setMode (s : State) (env : Bool) : State :=
  let p := { s.plat with envelope := env, k := max s.plat.k (kFloor env),
                         change := s.plat.change.map (fun q => { q with envelope := env }) }
  forAll (List.range 32) (fun s i => s.orderMode i env) { s with plat := p }

/-- A configuration takes effect (R332). -/
def State.applyConfig (s : State) (img : List Byte) : State :=
  let c := cfgOf img
  let s := s.latchConfig.configDown
  let s : State := { s with cfg := some c, pair := { s.pair with on := c.pair, twin := c.hdid.getLsbD 0, lost := false } }
  let s := s.setMaster c
  let s := forAll (List.range 16) (fun s p =>
    let l := (s.port p).link
    let v := b1 (c.portEn.getLsbD p) + at_ 1 (b1 l.auto) + at_ 2 (b1 (c.allow4.getLsbD p))
    s.setPortLink p { l with ctl := BitVec.ofNat 32 v }) s
  let s := s.setMode c.env
  let s : State := { s with plat := { s.plat with hbmUp := true } }
  forAll (List.range 16) (fun s p => s.portTry p false) s

/-- CONFIG_APPLY_COMPLETE (R332). -/
def execConfigApplyComplete (s : State) : Res :=
  awake s <| match s.plat.cfgBy with
  | none => .next s
  | some (r, img) =>
    let s := s.applyConfig img
    let s : State := { s with plat := { s.plat with cfgBy := none } }
    .next (s.replyTo r codeOk 0 0 0)

/-- CONFIG_READ (R326, R332). -/
def execConfigRead (r : RingRef) (w : CmdWords) (s : State) : Res :=
  hostCmd s r w { op := 0x04, masks := [2 ^ 64 - 1] } (fun s =>
    match s.cfg with
    | none => s.replyCode r codeConfigInvalid
    | some c => ({ s with hostMem := mwrite s.hostMem w.w1.toNat c.bytes } : State).replyCode r codeOk)

/-! ### Partitions (R35, R37) -/

/-- The layout of a code. -/
def layoutOf (n : Nat) : Option Layout :=
  if n = 0 then some .p1 else if n = 1 then some .p2 else if n = 2 then some .p4 else none

/-- PART_CREATE (R37). -/
def execPartCreate (r : RingRef) (w : CmdWords) (s : State) : Res :=
  hostCmd s r w { op := 0x10, pf0 := true, needC := true, masks := [3], lock := some 3 } (fun s =>
    match layoutOf (fld w.w1 1 0) with
    | none => s.replyCode r codeBadParam
    | some l =>
      if s.parts ≠ 0 then s.replyCode r codeBusy
      else ({ s with layout := l, parts := BitVec.ofNat 4 (2 ^ nParts l - 1) } : State).replyCode r codeOk)

/-- PART_DESTROY (R37). -/
def execPartDestroy (r : RingRef) (w : CmdWords) (s : State) : Res :=
  hostCmd s r w { op := 0x11, pf0 := true, masks := [3], lock := some 3 } (fun s =>
    let p := fld w.w1 1 0
    if !s.partExists p then s.replyCode r codeBadParam
    else if (List.range 8).any (fun c => (s.ctx ⟨p, c⟩).st != .free) then s.replyCode r codeBusy
    else
      let s := s.latchConfig
      ({ s with parts := putBit s.parts p false } : State).replyCode r codeOk)

/-! ### CTX_CREATE (R39, R328, R370) -/

/-- The lowest free slot of a partition. -/
def State.freeSlot (s : State) (p : Nat) : Option Nat := (List.range 8).find? (fun c => (s.ctx ⟨p, c⟩).st = .free)

/-- Whether a slot is still being scrubbed: its context is gone (R376). -/
def Ctx.scrubbing (x : Ctx) : Bool :=
  match x.td with
  | none => false
  | some t => t.wiped

/-- Whether an allocation meets one of the slots of its partition that satisfy a predicate. -/
def State.meetsAny (s : State) (p pa n : Nat) (q : Ctx → Bool) : Bool :=
  (List.range 8).any (fun c => (s.ctx ⟨p, c⟩).st != .free && q (s.ctx ⟨p, c⟩) && s.allocMeets ⟨p, c⟩ pa n)

/-- Whether a cluster can be taken by a new context: enabled, not owned, no tile fenced. -/
def State.clusterFree (s : State) (cid : Nat) : Bool :=
  s.enabled cid && (s.ctxOfCid cid).isNone && (tilesOfCid cid).all (fun t => !(s.tile t).fenced)

/-- The first check of CTX_CREATE that fails. -/
def State.createCheck (s : State) (p : Nat) (cls pa n rootPa : Nat) : Option Nat :=
  if cls = 0 || !within cls (partMask s.layout p) || n = 0 || pa % 2 ^ 21 ≠ 0 || rootPa % 2 ^ 21 ≠ 0
      || !paRangeOk s.layout p pa (n * 2 ^ 21) then some codeBadParam
  else if (s.freeSlot p).isNone || !((List.range 32).filter (fun i => bit cls i)).all s.clusterFree
      || s.meetsAny p pa (n * 2 ^ 21) (fun x => !x.scrubbing) then some codeNoResource
  else if s.meetsAny p pa (n * 2 ^ 21) Ctx.scrubbing then some codeBusy
  else none

/-- MMU_ROOT of a slot on the dies of its partition. -/
def State.setRoot (s : State) (c : CtxRef) (v : W64) : State :=
  forAll (diesOf s.layout c.part) (fun s d =>
    let x := s.die d
    s.setDie d { x with str := { x.str with root := sput x.str.root c.slot v } }) s

/-- CTX_CREATE (R39, R328). -/
def execCtxCreate (r : RingRef) (w : CmdWords) (s : State) : Res :=
  hostCmd s r w { op := 0x12, needP := true, needC := true,
                  masks := [2 ^ 33 - 1, 2 ^ 48 - 1, 2 ^ 32 - 1, 2 ^ 49 - 1] } (fun s =>
    let cls := fld w.w1 31 0
    let pa := w.w2.toNat
    let n := w.w3.toNat
    let root := bits w.w4.toNat 47 0
    match s.createCheck r.pf cls pa n root, s.freeSlot r.pf with
    | some code, _ => s.replyCode r code
    | none, none => s.replyCode r codeNoResource
    | none, some slot =>
      let c : CtxRef := ⟨r.pf, slot⟩
      let s := s.setCtx c { epoch := (s.ctx c).epoch, st := .created, strict := w.w1.getLsbD 32,
                            clusters := BitVec.ofNat 32 cls, allocPa := pa, alloc2m := n }
      let s := s.setRoot c (BitVec.ofNat 64 (root + b1 (w.w4.getLsbD 48)))
      s.reply r codeOk (s.cxh c).toNat 0 0)

end Sys2Proof.Machine
end

