-- ==== Sys2Proof/Machine/Loader.lean ====
section
/-!
DEFINITION. The Snierem loader: LOAD_SEGMENT, RELOCATE, PATCH (R36, R70, R72, R73, R76 to R80, R170, R222,
R254, R268, R276, R327, R328). -/

namespace Sys2Proof.Machine

/-! ### Acceptance by context state (R73) -/

/-- The code with which a state refuses a command: RUNNING, FAULTED, and CREATED or DONE where the command is
not for them. -/
def stateCode (x : Ctx) (fresh : Bool) : Option Nat :=
  match x.st with
  | .running => some codeBusy
  | .faulted => some codeFaulted
  | .created => if fresh then none else some codeBadParam
  | .done => if fresh then none else some codeBadParam
  | .loaded => none
  | .halted => none
  | .free => some codeBadParam
  | .tearing => some codeBadParam

/-! ### The segment prefix (R70, R76) -/

/-- The timing class that the module implements (R70). -/
def tc1 : Nat := 1

/-- The code of a prefix that is refused. -/
def prefixCheck (seg : List Byte) (kind len : Nat) : Option Nat :=
  let w1 := imgField seg 4 4
  if imgField seg 0 4 ≠ 0x53474553 || bits w1 18 16 ≠ kind || bits w1 31 19 ≠ 0 || imgField seg 8 4 ≠ len - 16
      || imgField seg 12 4 ≠ (crc32c (seg.drop 16)).toNat then some codeBadParam
  else if bits w1 15 0 ≠ tc1 then some codeTcMismatch
  else none

/-- LOAD_SEGMENT, fields by value (R327). -/
structure LoadCmd where
  addr : Nat
  len  : Nat
  kind : Nat
  all  : Bool
  tid  : Nat
  dest : Nat
deriving DecidableEq, Repr

def loadCmd (w : CmdWords) : LoadCmd :=
  { addr := w.w1.toNat, len := fld w.w2 31 0, kind := fld w.w3 2 0, all := w.w3.getLsbD 3, tid := fld w.w3 16 4, dest := fld w.w4 47 0 }

/-- The parameter checks of LOAD_SEGMENT (R327). -/
def LoadCmd.ok (q : LoadCmd) : Bool :=
  q.addr % 8 = 0 && q.len % 8 = 0 && 24 ≤ q.len && q.len ≤ 2 ^ 26 && q.kind ≤ 4
    && (if q.kind = 1 then q.len ≤ 196608 + 16 && q.dest % 8 = 0 && q.dest + (q.len - 16) ≤ 0x30000
        else q.kind = 2 || q.dest = 0)

/-! ### Records of fixed size -/

/-- `n` records of `k` bytes of a body, as numbers. -/
def recordsOf (k : Nat) : Nat → List Byte → List Nat
  | 0, _ => []
  | n + 1, b => leNat (b.take k) :: recordsOf k n (b.drop k)

/-! ### The header (R77, R78) -/

/-- Entry of the entry list. -/
def entRec (e : Nat) : EntRec :=
  { tid := bits e 12 0, thr := bits e 15 13, all := bit e 16, kind := bits e 17 17, addr := bits e 35 18 }

/-- A header body as its parts. The lists are those of its counts. -/
def hdrOf (b : List Byte) : Hdr :=
  let w8 := imgField b 8 4
  let nw := imgField b 0x16 2
  let nf := imgField b 0x24 2
  let ne := imgField b 0x26 2
  let l := b.drop 64
  let ws := recordsOf 4 nw l
  let fs := recordsOf 4 nf (l.drop (4 * nw))
  { tc := bits w8 15 0, det := bit w8 16, bclk := bit w8 17, missAct := bit w8 18, modCount := imgField b 12 4,
    allow := BitVec.ofNat 16 (imgField b 0x14 2), wdog := BitVec.ofNat 32 (imgField b 0x18 4),
    dsCtl := BitVec.ofNat 32 (imgField b 0x1C 4), sample := BitVec.ofNat 32 (imgField b 0x20 4),
    watch := ws.map (fun e => (bits e 9 8, bits e 7 0)), flags := fs.map (fun e => (bits e 13 12, bits e 11 0)),
    entries := (recordsOf 8 ne (l.drop (4 * (nw + nf)))).map entRec }

/-- Step 1 of R77. -/
def hdrShape (b : List Byte) : Bool :=
  let nw := imgField b 0x16 2
  let nf := imgField b 0x24 2
  let ne := imgField b 0x26 2
  64 ≤ b.length && imgField b 0 4 = 0x4F4E5331 && imgField b 4 4 = 1 && bits (imgField b 8 4) 31 19 = 0 && imgField b 0x28 24 = 0
    && imgField b 12 4 ≠ 0 && nw ≤ 1024 && nf ≤ 16384 && b.length = 64 + 4 * (nw + nf) + 8 * ne

/-- Reserved bits of the lists of a header (R78). -/
def hdrReserved (b : List Byte) : Bool :=
  let nw := imgField b 0x16 2
  let nf := imgField b 0x24 2
  let l := b.drop 64
  (recordsOf 4 nw l).all (fun e => e / 2 ^ 10 = 0) && (recordsOf 4 nf (l.drop (4 * nw))).all (fun e => e / 2 ^ 14 = 0)
    && (recordsOf 8 (imgField b 0x26 2) (l.drop (4 * (nw + nf)))).all (fun e => e / 2 ^ 36 = 0)

/-- Whether an entry record is in range (R78). -/
def EntRec.ok (e : EntRec) (x : Ctx) : Bool :=
  (e.all || x.clusters.getLsbD (cidOfTile e.tid)) && e.addr < 0x30000
    && (if e.kind = 0 then e.thr < 6 && e.addr % 8 = 0 else e.addr % 32 = 0)

/-- Whether two records name the same thread or the same list under the same ALL (R78). -/
def EntRec.clash (a b : EntRec) : Bool :=
  a.all = b.all && a.kind = b.kind && (a.all || a.tid = b.tid) && (a.kind ≠ 0 || a.thr = b.thr)

/-- Whether no two records of a list clash. -/
def noClash : List EntRec → Bool
  | [] => true
  | e :: es => es.all (fun f => !EntRec.clash e f) && noClash es

/-- The context that owns a global flag of a die, as slot plus 1, is another one. -/
def State.gfTaken (s : State) (c : CtxRef) (d n : Nat) : Bool := s.gfOwner d n ≠ 0 && s.gfOwner d n ≠ c.slot + 1

/-- The value of NUM_WOWN that names a context. -/
def ownWord (c : CtxRef) : W32 := BitVec.ofNat 32 (32 + 8 * c.part + c.slot)

/-- A watch slot is another context's. -/
def State.watchTaken (s : State) (c : CtxRef) (d n : Nat) : Bool :=
  let o := (sget ({} : Watch) (s.die d).watch n).own
  o.getLsbD 5 && o ≠ ownWord c

/-- Steps 2 to 5 of R77. -/
def State.hdrCheck (s : State) (c : CtxRef) (b : List Byte) : Option Nat :=
  let h := hdrOf b
  let cls := imgField b 0x10 4
  let ds := diesOf s.layout c.part
  if !hdrShape b then some codeBadParam
  else if h.tc ≠ tc1 then some codeTcMismatch
  else if cls &&& s.fuses.dis.toNat ≠ 0 then some codeNoResource
  else if cls ≠ (s.ctx c).clusters.toNat then some codeBadParam
  else if !(hdrReserved b && h.watch.all (fun e => ds.contains e.1) && h.flags.all (fun e => ds.contains e.1)
      && h.entries.all (fun e => EntRec.ok e (s.ctx c)) && noClash h.entries) then some codeBadParam
  else if h.watch.any (fun e => s.watchTaken c e.1 e.2) || h.flags.any (fun e => s.gfTaken c e.1 e.2) then some codeNoResource
  else none

/-- A watch slot that a header gives up: its registers stay until the teardown (R76, R176). -/
def Watch.released (x : Watch) (c : CtxRef) : Watch := if x.own = ownWord c then { x with own := 0 } else x

/-- The watch slots and global flags of a context's header released (R76). DESIGN CHOICE (log entry 24): a global
flag that is released keeps its value. -/
def State.releaseHdr (s : State) (c : CtxRef) : State :=
  let old := match (s.ctx c).hdr with
    | none => []
    | some h => h.watch
  let s := s.setCtx c { s.ctx c with released := old ++ (s.ctx c).released }
  forAll (diesOf s.layout c.part) (fun s d =>
    let x := s.die d
    s.setDie d { x with watch := x.watch.map (fun e => (e.1, e.2.released c)),
                        flg := { x.flg with gfOwn := x.flg.gfOwn.filter (fun e => e.2 ≠ c.slot + 1) } }) s

/-- The watch slots and flags of a header assigned (R170, R222). -/
def State.assignHdr (s : State) (c : CtxRef) (h : Hdr) : State :=
  let s := forAll h.watch (fun s e =>
    let x := s.die e.1
    s.setDie e.1 { x with watch := sput x.watch e.2 { sget ({} : Watch) x.watch e.2 with own := ownWord c } }) s
  forAll h.flags (fun s e =>
    let x := s.die e.1
    s.setDie e.1 { x with flg := { x.flg with gfOwn := sput x.flg.gfOwn e.2 (c.slot + 1) } }) s

/-- A header that passed its checks loaded: it replaces an earlier one and its TABLE and RELOC records (R76). -/
def State.loadHdr (s : State) (c : CtxRef) (b : List Byte) : State :=
  let h := hdrOf b
  let s := (s.releaseHdr c).assignHdr c h
  s.setCtx c { s.ctx c with hdr := some h, tables := [], relocs := [], unres := 0 }

/-! ### TILE segments (R36, R72) -/

/-- A 64-bit word of tile SRAM. -/
def State.sramWord (s : State) (t a : Nat) : W64 := BitVec.ofNat 64 (leNat (s.sramRead t a 8))

/-- The list entries that a tile holds from an SRAM address on, list after list; a chain ends where it comes
back or leaves the SRAM. -/
def State.chainIn (s : State) (t : Nat) : Nat → List Nat → Nat → List XEntry
  | 0, _, _ => []
  | n + 1, seen, a =>
    if seen.contains a || 0x30000 < a + 16 then []
    else
      let e : XEntry := { w0 := s.sramWord t a, w1 := s.sramWord t (a + 8) }
      e :: s.chainIn t n (a :: seen) (if fld e.w0 3 0 = 0 then fld e.w1 17 0 else a + 16)

/-- Whether an exchange entry names a tile or a port outside a partition (R36), or a twin port of a Pair (R276). -/
def XEntry.foreign (e : XEntry) (l : Layout) (p : Nat) (pair : Bool) : Bool :=
  let k := fld e.w0 3 0
  if k = 1 || k = 2 then partOfDie l (dieOfTile (fld e.w0 18 6)) ≠ p
  else if k = 3 then partOfDie l (dieOfPort (fld e.w0 22 19)) ≠ p || (pair && 14 ≤ fld e.w0 22 19)
  else false

/-- The address of a tile's first exchange list under a header (R78). -/
def Hdr.listAt (h : Hdr) (t : Nat) : Option Nat :=
  match h.entries.find? (fun e => e.kind = 1 && !e.all && e.tid = t) with
  | some e => some e.addr
  | none => (h.entries.find? (fun e => e.kind = 1 && e.all)).map EntRec.addr

/-- Whether the exchange lists of a tile, as its SRAM stands, name nothing outside the partition, and in Pair mode
neither UL14 nor UL15 (R36, R276, log entry 38). -/
def State.listsOk (s : State) (p : Nat) (h : Hdr) (t : Nat) : Bool :=
  match h.listAt t with
  | none => true
  | some a => (s.chainIn t 12288 [] a).all (fun e => !XEntry.foreign e s.layout p s.pair.on)

/-- The tiles that a TILE segment, a PATCH or a record names. -/
def Ctx.named (x : Ctx) (all : Bool) (tid : Nat) : List Nat := if all then x.tids else [tid]

/-- Whether those tiles are the context's. -/
def Ctx.namesOk (x : Ctx) (all : Bool) (tid : Nat) : Bool := all || x.clusters.getLsbD (cidOfTile tid)

/-- The part of a range of bytes that lies in a bank group: its address and its bytes. -/
def groupPart (a : Nat) (bs : List Byte) (g : Nat) : Nat × List Byte :=
  let lo := max a (65536 * g)
  (lo, (bs.drop (lo - a)).take (min (a + bs.length) (65536 * (g + 1)) - lo))

/-- Bytes that a command writes into a tile (R72, R80): into a group that is OFF or GOING_ON they are
discarded, with BANK_OFF (R202). -/
def State.putTile (s : State) (c : CtxRef) (t a : Nat) (bs : List Byte) : State :=
  let cid := cidOfTile t
  if (s.bank cid 1).serves && (s.bank cid 2).serves then s.sramWrite t a bs
  else
    forAll [0, 1, 2] (fun s g =>
      let p := groupPart a bs g
      if p.2.isEmpty then s else if (s.bank cid g).serves then s.sramWrite t p.1 p.2 else s.bankOff c t p.1 0) s

/-- Bytes that a command writes into every tile that it names. -/
def State.putTiles (s : State) (c : CtxRef) (ts : List Nat) (a : Nat) (bs : List Byte) : State := forAll ts (fun s t => s.putTile c t a bs) s

/-- A TILE segment: refused where a list that it makes names something outside the partition. -/
def State.loadTile (s : State) (c : CtxRef) (h : Hdr) (q : LoadCmd) (body : List Byte) : Except Nat State :=
  let x := s.ctx c
  let s' := s.putTiles c (x.named q.all q.tid) q.dest body
  if x.namesOk q.all q.tid && (x.named q.all q.tid).all (s'.listsOk c.part h) then .ok s' else .error codeBadParam

/-- An HBM segment: through the page table of the serving die (R72, R181). -/
def State.loadHbm (s : State) (c : CtxRef) (q : LoadCmd) (body : List Byte) : Except Nat State :=
  match s.vaWrite (servingDie s.layout c.part) c q.dest body with
  | (s, none) => .ok s
  | (_, some _) => .error codeBadParam

/-! ### TABLE segments (R79) -/

/-- A TABLE record. -/
def tblRec (e : Nat) : TblRec :=
  { table := bits e 7 0, die := bits e 9 8, index := bits e 31 16, value := BitVec.ofNat 64 (e / 2 ^ 64) }

/-- The number of indices of a target. -/
def tblLimit (t : Nat) : Nat :=
  match t with
  | 1 => 256 | 2 => 4096 | 3 => 256 | 4 => 256 | 5 => 128 | 6 => 4096 | 7 => 4 | 8 => 32768 | 9 => 64 | 10 => 64 | 11 => 64 | 12 => 1 | 13 => 3
  | _ => 0

/-- The bits that a value of a target may set: those of its register, and of a list or channel word those that
are not reserved. -/
def tblMask (t i : Nat) : Nat :=
  let w := i % 8192 % 68
  match t with
  | 5 => 2 ^ 64 - 1
  | 6 => if i % 4 = 0 then 0x00FFFFFF000000FF else if i % 4 = 1 then 2 ^ 48 - 1 else if i % 4 = 2 then 2 ^ 48 - 1 else 2 ^ 32 - 1
  | 7 => 255
  | 8 => if w = 0 then 2 ^ 43 - 1 else if w = 1 then 2 ^ 48 - 1 else if w < 4 then 0
         else if w % 4 = 0 then 2 ^ 52 - 1 else if w % 4 = 2 then 2 ^ 24 - 1 else 2 ^ 48 - 1
  | 10 => 2 ^ 64 - 1 | 11 => 2 ^ 64 - 1 | 12 => 2 ^ 64 - 1
  | _ => 2 ^ 32 - 1

/-- The port that a record of code 6, 7 or 8 names. -/
def TblRec.port (r : TblRec) : Nat :=
  4 * r.die + (if r.table = 6 then r.index / 1024 else if r.table = 7 then r.index else r.index / 8192)

/-- Whether a port is held by another context (R248). -/
def State.heldByOther (s : State) (c : CtxRef) (p : Nat) : Bool := match (s.port p).xch.owner with | none => false | some o => o != c

/-- Whether a target belongs to another context (R79, R267), or a port may not stand in its lists (R248, R276). -/
def State.tblTaken (s : State) (c : CtxRef) (h : Hdr) (r : TblRec) : Bool :=
  let y := (s.die r.die).str
  match r.table with
  | 2 => !(s.ctx c).clusters.getLsbD (8 * r.die + r.index / 512)
  | 3 => !h.watch.contains (r.die, r.index)
  | 4 => let k := (sget ({} : Link) y.links r.index).cfg; k.getLsbD 8 && bits k.toNat 11 9 ≠ c.slot
  | 5 => let k := sget ({} : Scat) y.scat (r.index / 8); k.valid && k.slot ≠ c.slot
  | 6 => !(s.ctx c).clusters.getLsbD (routerCid (portRouter r.port)) || (s.pair.on && 14 ≤ r.port)
  | 7 => !(s.ctx c).clusters.getLsbD (routerCid (portRouter r.port)) || (s.pair.on && 14 ≤ r.port)
  | 8 => s.heldByOther c r.port
  | 9 => let k := (s.chk r.die r.index).ctl; k.getLsbD 0 && bits k.toNat 5 3 ≠ c.slot
  | 10 => let k := (s.chk r.die r.index).ctl; k.getLsbD 0 && bits k.toNat 5 3 ≠ c.slot
  | 11 => let k := (s.chk r.die r.index).ctl; k.getLsbD 0 && bits k.toNat 5 3 ≠ c.slot
  | _ => false

/-- Whether a record of a TABLE body stands (R79). -/
def State.tblOk (s : State) (c : CtxRef) (h : Hdr) (e : Nat) : Bool :=
  let r := tblRec e
  bits e 15 10 = 0 && bits e 63 32 = 0 && r.index < tblLimit r.table && within r.value.toNat (tblMask r.table r.index)
    && (r.table ≠ 8 || r.index % 8192 < 4352) && (diesOf s.layout c.part).contains r.die && !s.tblTaken c h r

/-- The RAM words that a list of records names for a port: code 6 or 8, later records over earlier ones. -/
def ramOf (ts : List TblRec) (code p : Nat) : Sparse W64 :=
  (ts.filter (fun r => r.table = code && r.port = p)).foldl (fun m r => sput m (if code = 6 then r.index % 1024 else r.index % 8192) r.value) []

/-- A port as the records describe it. -/
def portOf (ts : List TblRec) (p : Nat) : PortXch := { ram := ramOf ts 6 p, chanRam := ramOf ts 8 p }

/-- Whether a word of a RAM is named. -/
def listed (m : Sparse W64) (i : Nat) : Bool := m.any (fun e => e.1 = i)

/-- Whether a port-list entry whose first two words are named may stand (R253, R254). -/
def portEntOk (x : PortXch) (i : Nat) : Bool :=
  if listed x.ram (4 * i) && listed x.ram (4 * i + 1) then
    let e := x.ent i
    e.kind = 0 || (e.kind ≤ 2 && e.bytes % 32 = 0 && e.off % 8 = 0 && dataTime e.bytes + 200 * e.allow + 6 ≤ e.w)
  else true

/-- Whether a channel header gives its result a place (R268). -/
def ChHdr.ok (h : ChHdr) : Bool := (h.hbm || h.buf) && (!h.buf || h.pbuf + h.count ≤ 32768)

/-- Whether a channel whose header is named may stand (R268). -/
def chOk (x : PortXch) (ch : Nat) : Bool :=
  (!(listed x.chanRam (68 * ch) && (x.chHdr ch).v) || (x.chHdr ch).ok) && (List.range 16).all (fun i => (x.chSrc ch i).kind ≠ 3)

/-- The checks of list entries and channel programs, of the ports that records name. -/
def portsOk (ts : List TblRec) : Bool :=
  (List.range 16).all (fun p =>
    let x := portOf ts p
    (x.ram.map (fun e => e.1 / 4)).all (portEntOk x) && (x.chanRam.map (fun e => e.1 / 68)).all (chOk x))

/-- A TABLE segment. -/
def State.loadTable (s : State) (c : CtxRef) (h : Hdr) (body : List Byte) : Except Nat State :=
  let rs := recordsOf 16 (body.length / 16) body
  let x := s.ctx c
  let ts := x.tables ++ rs.map tblRec
  if body.length % 16 ≠ 0 || !rs.all (s.tblOk c h) || !portsOk ts then .error codeBadParam
  else .ok (s.setCtx c { x with tables := ts })

/-! ### RELOC segments (R80) -/

/-- A RELOC record. -/
def relRec (e : Nat) : RelRec :=
  let w1 := e / 2 ^ 64 % 2 ^ 64
  let w2 := e / 2 ^ 128
  { addr := bits e 47 0, kind := bits e 50 48, all := bit e 51, addend := signed w1 48, base := bits w1 51 48, objwin := bits w1 59 52,
    tid := bits w2 12 0, die := bits w2 15 14, shift := bits w2 21 16, width := bits w2 28 22 }

/-- The TABLE code of a KIND. -/
def RelRec.table (r : RelRec) : Nat := if r.kind = 3 then 6 else 8

/-- Whether a TABLE record is the target of a RELOC record. -/
def RelRec.names (r : RelRec) (t : TblRec) : Bool := t.table = r.table && t.die = r.die && t.index = r.addr

/-- Whether a record of a RELOC body stands (R80). -/
def relOk (x : Ctx) (e : Nat) : Bool :=
  let r := relRec e
  let w2 := e / 2 ^ 128
  bits e 63 52 = 0 && bits (e / 2 ^ 64) 63 60 = 0 && !bit w2 13 && w2 / 2 ^ 29 = 0 && 1 ≤ r.kind && r.kind ≤ 4 && r.base ≤ 4
    && 1 ≤ r.width && r.shift + r.width ≤ 64
    && (if r.kind = 1 then r.addr % 8 = 0 && r.addr ≤ 0x2FFF8 && x.namesOk r.all r.tid
        else if r.kind = 2 then r.addr % 8 = 0
        else x.tables.any (RelRec.names r))

/-- A RELOC segment. -/
def State.loadReloc (s : State) (c : CtxRef) (body : List Byte) : Except Nat State :=
  let rs := recordsOf 24 (body.length / 24) body
  let x := s.ctx c
  if body.length % 24 ≠ 0 || !rs.all (relOk x) then .error codeBadParam
  else .ok (s.setCtx c { x with relocs := x.relocs ++ rs.map relRec, unres := x.unres + rs.length })

/-! ### LOAD_SEGMENT -/

/-- A segment whose prefix stands, loaded or refused (R76). -/
def State.loadBody (s : State) (c : CtxRef) (q : LoadCmd) (body : List Byte) : Except Nat State :=
  if q.kind = 0 then
    match s.hdrCheck c body with
    | some code => .error code
    | none =>
      let s := s.loadHdr c body
      if (s.ctx c).tids.all (s.listsOk c.part (hdrOf body)) then .ok s else .error codeBadParam
  else
    match (s.ctx c).hdr with
    | none => .error codeBadParam
    | some h =>
      if q.kind = 1 then s.loadTile c h q body
      else if q.kind = 2 then s.loadHbm c q body
      else if q.kind = 3 then s.loadReloc c body
      else s.loadTable c h body

/-- A context after a segment: LOADED where it was CREATED or DONE (R73). -/
def Ctx.afterLoad (x : Ctx) : Ctx :=
  let st := match x.st with
    | .created => CtxSt.loaded
    | .done => .loaded
    | .loaded => .loaded
    | .halted => .halted
    | .running => .running
    | .faulted => .faulted
    | .free => .free
    | .tearing => .tearing
  { x with st := st, segTcs := tc1 :: x.segTcs }

/-- LOAD_SEGMENT (R70, R73, R76). -/
def execLoadSegment (r : RingRef) (w : CmdWords) (s : State) : Res :=
  hostCtxCmd s r w { op := 0x20, needP := true, needC := true,
                     masks := [2 ^ 64 - 1, 2 ^ 32 - 1, 2 ^ 17 - 1, 2 ^ 48 - 1] } (fun s c =>
    match stateCode (s.ctx c) true with
    | some code => s.replyCode r code
    | none =>
      let q := loadCmd w
      if !q.ok then s.replyCode r codeBadParam
      else
        let seg := mread s.hostMem q.addr q.len
        match prefixCheck seg q.kind q.len with
        | some code => s.replyCode r code
        | none =>
          match s.loadBody c q (seg.drop 16) with
          | .error code => s.replyCode r code
          | .ok s => (s.setCtx c (s.ctx c).afterLoad).replyCode r codeOk)

/-! ### RELOCATE (R80) -/

/-- The base of a record, none where no window of the context answers. -/
def State.relBase (s : State) (c : CtxRef) (r : RelRec) : Option Nat :=
  if r.base = 0 then some 0
  else if r.base = 1 then some (s.ctx c).allocPa
  else if r.base = 2 then ((List.range 256).find? (fun w => let x := s.win w; x.open_ && x.lcxh = s.cxh c && x.objwin = some r.objwin))
  else if r.base = 3 then some s.hdid.toNat
  else some (s.cxh c).toNat

/-- The value of a record. -/
def RelRec.value (r : RelRec) (base : Nat) : W64 := BitVec.ofInt 64 ((base : Int) + r.addend)

/-- A word with a record's field written. -/
def RelRec.apply (r : RelRec) (w v : W64) : W64 := setBits w (r.shift + r.width - 1) r.shift (v.toNat % 2 ^ r.width)

/-- One record written; the VA of a translation that fails. -/
def State.applyRel (s : State) (c : CtxRef) (r : RelRec) (v : W64) : Except Nat State :=
  if r.kind = 1 then
    .ok (forAll ((s.ctx c).named r.all r.tid) (fun s t => s.putTile c t r.addr (toLE 8 (r.apply (s.sramWord t r.addr) v).toNat)) s)
  else if r.kind = 2 then
    let d := servingDie s.layout c.part
    match s.translateAll d c true (vaList r.addr 8) with
    | (_, .error e) => .error e.1
    | (s, .ok ks) =>
      let old : W64 := BitVec.ofNat 64 (leNat (ks.map (mget s.hbm)))
      .ok { s with hbm := hbmPut s.hbm (ks.zip (toLE 8 (r.apply old v).toNat)) }
  else
    .ok (s.setCtx c { s.ctx c with tables := (s.ctx c).tables.map (fun t => if r.names t then { t with value := r.apply t.value v } else t) })

/-- The records in order: the state, how many stay unresolved, and the VA that ended it. -/
def State.relocateAll (s : State) (c : CtxRef) : List RelRec → State × Nat × Option Nat
  | [] => (s, 0, none)
  | r :: rs =>
    match s.relBase c r with
    | none =>
      let (s, n, e) := s.relocateAll c rs
      (s, n + 1, e)
    | some b =>
      match s.applyRel c r (r.value b) with
      | .error va => (s, 0, some va)
      | .ok s => s.relocateAll c rs

/-- Whether the exchange lists of the tiles that RELOC records of KIND 1 name pass the loader (R36, R276). -/
def State.relListsOk (s : State) (c : CtxRef) : Bool :=
  let x := s.ctx c
  x.hdr.all (fun h => ((x.relocs.filter (fun r => r.kind = 1)).flatMap (fun r => x.named r.all r.tid)).all (s.listsOk c.part h))

/-- RELOCATE (R73, R80). One that would give a tile a list that the loader refuses changes nothing (log entry 38). -/
def execRelocate (r : RingRef) (w : CmdWords) (s : State) : Res :=
  hostCtxCmd s r w { op := 0x21, needP := true, needC := true } (fun s c =>
    match stateCode (s.ctx c) false with
    | some code => s.replyCode r code
    | none =>
      match s.relocateAll c (s.ctx c).relocs with
      | (u, _, some va) => (if u.relListsOk c then u else s).reply r codeBadParam (va % 2 ^ 48) 0 0
      | (u, n, none) =>
        if u.relListsOk c then (u.setCtx c { u.ctx c with unres := n }).reply r codeOk (n % 2 ^ 32) 0 0
        else s.replyCode r codeBadParam)

/-! ### PATCH (R72, R328) -/

/-- The address and the cause of a failed access, as a reply's W1 holds them. -/
def failWord (va cause : Nat) : Nat := va % 2 ^ 48 + at_ 48 cause

/-- PATCH (R72, R73, R328). -/
def execPatch (r : RingRef) (w : CmdWords) (s : State) : Res :=
  hostCtxCmd s r w { op := 0x22, needP := true, needC := true, masks := [2 ^ 48 - 1, 2 ^ 16 - 1, 2 ^ 64 - 1] } (fun s c =>
    let x := s.ctx c
    let a := fld w.w1 47 0
    let kind := fld w.w2 1 0
    let all := w.w2.getLsbD 2
    let tid := fld w.w2 15 3
    match stateCode x false with
    | some code => s.replyCode r code
    | none =>
      if a % 8 ≠ 0 then s.replyCode r codeBadParam
      else if kind = 1 then
        if 0x2FFF8 < a || !x.namesOk all tid then s.replyCode r codeBadParam
        else (s.putTiles c (x.named all tid) a (toLE 8 w.w3.toNat)).replyCode r codeOk
      else if kind = 2 then
        match s.vaWrite (servingDie s.layout c.part) c a (toLE 8 w.w3.toNat) with
        | (s, none) => s.replyCode r codeOk
        | (s, some (va, cause)) => s.reply r codeBadParam (failWord va cause) 0 0
      else s.replyCode r codeBadParam)

end Sys2Proof.Machine
end

