-- ==== Sys2Proof/Machine/Start.lean ====
section
/-!
DEFINITION. START, HALT and RESUME (R58, R73 to R75, R79, R84, R173, R229, R249, R254, R269, R272, R281, R361,
R364, R366). -/

namespace Sys2Proof.Machine

/-! ### Ports that the TABLE records describe (R79, R253) -/

/-- The ports that a context's records of code 6 or 7 name. -/
def Ctx.portsNamed (x : Ctx) : List Nat :=
  (List.range 16).filter (fun p => x.tables.any (fun r => (r.table = 6 || r.table = 7) && r.port = p))

/-- The ports that a context's records of code 8 name and none of code 6 or 7: their channel RAM is written,
and the ports are not held. -/
def Ctx.portsFed (x : Ctx) : List Nat := x.chanPorts.filter (fun p => !x.portsNamed.contains p)

/-- A port as it stands once the records are written. -/
def withRecords (x : PortXch) (ts : List TblRec) (p : Nat) : PortXch :=
  ts.foldl (fun y r =>
    if r.port ≠ p then y
    else if r.table = 6 then { y with ram := sput y.ram (r.index % 1024) r.value }
    else if r.table = 7 then { y with first := BitVec.ofNat 8 r.value.toNat, next := BitVec.ofNat 8 r.value.toNat }
    else if r.table = 8 then { y with chanRam := sput y.chanRam (r.index % 8192) r.value }
    else y) { x with next := x.first }

/-- The list that starts at an entry: entries with their indices, and END. -/
def PortXch.listFrom (x : PortXch) (i : Nat) : List (Nat × PEnt) × Option PEnt := x.chain 256 i

/-- Where the list after the one at an entry starts. -/
def PortXch.nextFrom (x : PortXch) (i : Nat) : Nat :=
  match (x.listFrom i).2 with
  | some e => e.next
  | none => i

/-- The pairs of lists of two ports that some phase uses together. -/
def pairsFrom (x y : PortXch) : Nat → Nat × Nat → List (Nat × Nat) → List (Nat × Nat)
  | 0, _, seen => seen
  | n + 1, q, seen => if seen.contains q then seen else pairsFrom x y n (x.nextFrom q.1, y.nextFrom q.2) (q :: seen)

def pairsOf (x y : PortXch) : List (Nat × Nat) := pairsFrom x y 65537 (x.next.toNat, y.next.toNat) []

/-- The lists that a port uses. -/
def PortXch.starts (x : PortXch) : List Nat := (pairsOf x x).map Prod.fst

/-! ### One list (R254) -/

/-- Whether two windows overlap. -/
def PEnt.meets (a b : PEnt) : Bool := a.off < b.off + b.w && b.off < a.off + a.w

/-- Whether a list of entries of one direction has no two windows that overlap. -/
def apart : List PEnt → Bool
  | [] => true
  | e :: es => es.all (fun f => !PEnt.meets e f) && apart es

/-- Whether a window may stand in a list of length LEN. -/
def PEnt.ok (e : PEnt) (len : Nat) : Bool :=
  e.kind ≤ 2 && e.bytes % 32 = 0 && e.off % 8 = 0 && dataTime e.bytes + 200 * e.allow + 6 ≤ e.w && e.off + e.w + 768 ≤ len

/-- Whether a list may stand: it ends, and its windows are valid. -/
def PortXch.listOk (x : PortXch) (i : Nat) : Bool :=
  match x.listFrom i with
  | (_, none) => false
  | (es, some z) =>
    es.all (fun e => PEnt.ok e.2 z.off) && apart ((es.filter (fun e => e.2.kind = 1)).map Prod.snd)
      && apart ((es.filter (fun e => e.2.kind = 2)).map Prod.snd)

/-! ### Channels of a list (R269) -/

/-- The RX entries of a list that name a channel. -/
def rxNaming (es : List (Nat × PEnt)) (ch : Nat) : List PEnt :=
  (es.filter (fun e => e.2.kind = 2 && e.2.dst && e.2.va % 64 = ch)).map Prod.snd

/-- The channels of a list. -/
def chansOf (es : List (Nat × PEnt)) : List Nat := (List.range 64).filter (fun ch => !(rxNaming es ch).isEmpty)

/-- Whether a copy of a contribution is scheduled as its channel needs it. -/
def copyOk (rx : List PEnt) (hdid tag count dl len : Nat) : Bool :=
  match rx.filter (fun e => e.hdid = hdid && e.tag = tag) with
  | [e] => e.bytes = 32 * count && e.off + e.w + 768 ≤ dl && dl ≤ len
  | _ => false

/-- Whether the program of a channel agrees with a list that arms it. -/
def PortXch.chanListOk (x : PortXch) (es : List (Nat × PEnt)) (len ch : Nat) : Bool :=
  let h := x.chHdr ch
  let rx := rxNaming es ch
  let qs := (x.chSrcs ch).map Prod.snd
  h.v && qs.any (fun q => q.kind = 2) && qs.all (fun q => q.kind ≠ 2 ||
    (copyOk rx q.hdid q.tag h.count q.dl len && (!q.bkEn || (!(q.bkHdid = q.hdid && q.bkTag = q.tag) && copyOk rx q.bkHdid q.bkTag h.count q.dl len))))

/-- The channels that a port's RAM programs. -/
def PortXch.programs (x : PortXch) : List Nat := (List.range 64).filter (fun ch => (x.chHdr ch).v)

/-- Whether a program may stand whatever arms it (R268, R269): no reserved bit, a place for its result, valid
sources, at least one of them remote. -/
def PortXch.progOk (x : PortXch) (ch : Nat) : Bool :=
  let qs := (x.chSrcs ch).map Prod.snd
  (List.range 68).all (fun i => within (x.chWord ch i) (tblMask 8 (68 * ch + i))) && (x.chHdr ch).ok
    && qs.all (fun q => q.kind ≠ 3) && qs.any (fun q => q.kind = 2)

/-- Whether every channel of a list agrees with it. -/
def PortXch.chansListOk (x : PortXch) (i : Nat) : Bool :=
  match x.listFrom i with
  | (_, none) => false
  | (es, some z) => (chansOf es).all (x.chanListOk es z.off)

/-- The ranges of HBM that a channel writes (staging and result), as VA and bytes. -/
def PortXch.chanWrites (x : PortXch) (ch : Nat) : List (Nat × Nat) :=
  let h := x.chHdr ch
  let res := if h.hbm then [(h.va, (if h.bf16 then 16 else 32) * h.count)] else []
  res ++ ((x.chSrcs ch).map Prod.snd).flatMap (fun q =>
    if q.kind ≠ 2 then [] else (q.va, 32 * h.count) :: (if q.bkEn then [(q.bkVa, 32 * h.count)] else []))

/-- The ranges of HBM that a channel reads as local sources. -/
def PortXch.chanReads (x : PortXch) (ch : Nat) : List (Nat × Nat) :=
  ((x.chSrcs ch).map Prod.snd).flatMap (fun q => if q.kind = 1 then [(q.va, (if q.bf16 then 16 else 32) * (x.chHdr ch).count)] else [])

/-- The units of the port buffer that a channel reads as local sources, and those of its result. -/
def PortXch.chanBufIn (x : PortXch) (ch : Nat) : List (Nat × Nat) :=
  let n := (x.chHdr ch).count
  ((x.chSrcs ch).map Prod.snd).flatMap (fun q => if q.kind = 0 then [(q.va % 32768, if q.bf16 then (n + 1) / 2 else n)] else [])
def PortXch.chanBufOut (x : PortXch) (ch : Nat) : List (Nat × Nat) :=
  let h := x.chHdr ch
  if h.buf then [(h.pbuf, h.count)] else []

/-- The ends of the 2 MiB pieces of a VA range. -/
def rangeEnds (va n : Nat) : List Nat :=
  va :: (va + n - 1) :: (List.range ((va + n - 1) / 2 ^ 21 - va / 2 ^ 21)).flatMap (fun i =>
    let b := (va / 2 ^ 21 + i + 1) * 2 ^ 21
    [b - 1, b])

/-- Whether ranges of VAs translate for a kind of access. -/
def State.rangesOk (s : State) (c : CtxRef) (wr : Bool) : List (Nat × Nat) → State × Bool
  | [] => (s, true)
  | r :: rs =>
    match s.translateAll (servingDie s.layout c.part) c wr (rangeEnds r.1 r.2) with
    | (s, .error _) => (s, false)
    | (s, .ok _) => s.rangesOk c wr rs

/-! ### Two channels, or a channel and a list, of one phase (R272) -/

def rangesMeet (xs ys : List (Nat × Nat)) : Bool := xs.any (fun a => ys.any (fun b => a.1 < b.1 + b.2 && b.1 < a.1 + a.2))

/-- Whether two channels of ports in one phase keep apart; `same` says that the port is the same. -/
def chanApart (x : PortXch) (ch : Nat) (y : PortXch) (ch' : Nat) (same : Bool) : Bool :=
  let bufs (z : PortXch) (k : Nat) : List (Nat × Nat) := z.chanBufIn k ++ z.chanBufOut k
  (same && ch = ch') || (!rangesMeet (x.chanWrites ch) (y.chanWrites ch') && !(same && rangesMeet (bufs x ch) (bufs y ch')))

/-- Whether a channel keeps apart from the TX sources and the windows of a list. A TX from the port buffer may
send a result of the phase (R271). -/
def chanListApart (x : PortXch) (ch : Nat) (es : List (Nat × PEnt)) (same : Bool) : Bool :=
  es.all (fun e =>
    let q := e.2
    if q.kind = 1 && !q.src then !(same && rangesMeet (x.chanBufIn ch) [(q.va % 32768, q.bytes / 32)])
    else if q.kind = 1 || !q.dst then !rangesMeet (x.chanWrites ch) [(q.va, q.bytes)]
    else true)

/-- Whether two lists of one phase keep apart. -/
def listsApart (x y : PortXch) (same : Bool) (q : Nat × Nat) : Bool :=
  let a := (x.listFrom q.1).1
  let b := (y.listFrom q.2).1
  (chansOf a).all (fun ch => (chansOf b).all (fun ch' => chanApart x ch y ch' same) && chanListApart x ch b same)
    && (chansOf b).all (fun ch => chanListApart y ch a same)

/-! ### Scatters (R281) -/

/-- The bits of a descriptor word that the loader writes. -/
def scatMask (w : Nat) : Nat := if w = 5 then 2 ^ 64 - 1 else if w = 7 then 0xFFFFFFFF00000000 else 2 ^ 48 - 1

/-- A word of a descriptor written by the loader: CTX is the context's slot, and read-only fields stay. -/
def Scat.load (x : Scat) (slot w : Nat) (v : W64) : Scat :=
  let m : W64 := BitVec.ofNat 64 (scatMask w)
  let v := (v &&& m) ||| (sget 0 x.w w &&& ~~~m)
  { w := sput x.w w (if w = 0 then setBits v 3 1 slot else v) }

/-- Whether a descriptor may stand (R281). -/
def Scat.ok (x : Scat) : Bool := x.phase < x.period && x.topk ≤ 8 && x.cap ≠ 0 && x.row % 32 = 0

/-- The descriptors that the records name, as they stand once written. -/
def State.scatsOk (s : State) (c : CtxRef) (ts : List TblRec) : Bool :=
  (ts.filter (fun r => r.table = 5)).all (fun k =>
    (ts.foldl (fun (x : Scat) r =>
      if r.table = 5 && r.die = k.die && r.index / 8 = k.index / 8 then x.load c.slot (r.index % 8) r.value else x)
      (sget {} (s.die k.die).str.scat (k.index / 8))).ok)

/-! ### The checks of START (R74) -/

/-- The START-time checks of the loader (R269, R272, R281). Of a port that another context holds, the records of
this one alone count; that the port is held is the next step's failure. -/
def State.loaderCheck (s : State) (c : CtxRef) : State × Bool :=
  let x := s.ctx c
  let ps := (List.range 16).filter (fun p => x.portsNamed.contains p || (x.chanPorts.contains p && !s.heldByOther c p) || (s.port p).xch.owner = some c)
  let xs := ps.map (fun p => (p, withRecords (if s.heldByOther c p then {} else (s.port p).xch) x.tables p))
  let lists := xs.all (fun q => q.2.starts.all (fun i => q.2.listOk i && q.2.chansListOk i))
  let far := xs.all (fun a => xs.all (fun b => (pairsOf a.2 b.2).all (listsApart a.2 b.2 (a.1 = b.1))))
  let used := xs.flatMap (fun q => q.2.programs.map (fun ch => (q.2, ch)))
  if !(lists && far && used.all (fun u => PortXch.progOk u.1 u.2) && s.scatsOk c x.tables) then (s, false)
  else
    let (s, ok) := s.rangesOk c true (used.flatMap (fun u => PortXch.chanWrites u.1 u.2))
    if ok then s.rangesOk c false (used.flatMap (fun u => PortXch.chanReads u.1 u.2)) else (s, false)

/-- The code with which START is refused, of a LOADED context with a header. -/
def State.startCheck (s : State) (c : CtxRef) (h : Hdr) : State × Option Nat :=
  let x := s.ctx c
  if !x.segTcs.all (fun t => t = h.tc) then (s, some codeTcMismatch)
  else if x.unres ≠ 0 then (s, some codeBadParam)
  else
    match s.loaderCheck c with
    | (s, false) => (s, some codeBadParam)
    | (s, true) =>
      if (x.portsNamed ++ x.portsFed).any (s.heldByOther c) then (s, some codeNoResource)
      else if h.modCount ≠ 1 && s.ht.st != .locked then (s, some codeBusy)
      else if s.plat.trip then (s, some codeBusy)
      else (s, none)

/-! ### What START writes (R74, R78, R79, R84, R173, R229) -/

/-- One TABLE record written. -/
def State.writeTbl (s : State) (c : CtxRef) (r : TblRec) : State :=
  let x := s.die r.die
  let v := r.value.toNat
  match r.table with
  | 1 => s.setDie r.die { x with budget := sput x.budget (256 * c.slot + r.index) (BitVec.ofNat 32 v) }
  | 2 =>
    let i := 8 * r.die + r.index / 512
    s.setCluster i { s.cluster i with scale := sput (s.cluster i).scale (r.index % 512) (BitVec.ofNat 32 (v % 2 ^ 24)) }
  | 3 => s.setDie r.die { x with watch := sput x.watch r.index { sget ({} : Watch) x.watch r.index with cfg := BitVec.ofNat 32 v } }
  | 4 => s.setLink r.die r.index { cfg := BitVec.ofNat 32 (v % 512 + at_ 9 c.slot) }
  | 5 =>
    let j := r.index / 8
    s.setDie r.die { x with str := { x.str with scat := sput x.str.scat j ((sget {} x.str.scat j).load c.slot (r.index % 8) r.value) } }
  | 9 => s.setChk r.die r.index { s.chk r.die r.index with ctl := BitVec.ofNat 32 (v % 8 + at_ 3 c.slot) }
  | 10 => s.setChk r.die r.index { s.chk r.die r.index with exp := r.value }
  | 11 => s.setChk r.die r.index { s.chk r.die r.index with acc := r.value }
  | 12 => s.setDie r.die { x with pairSet := r.value }
  | 13 =>
    let t := s.ths c
    s.setThs c (if r.index = 0 then { t with cfg := BitVec.ofNat 32 (v % 2 ^ 22) }
      else if r.index = 1 then { t with child := BitVec.ofNat 32 (v % 2 ^ 16) }
      else { t with pair := BitVec.ofNat 32 v &&& 0xFFFF003F#32 })
  | _ => s

/-- The entry point of a thread (R78, R84). -/
def Hdr.entryAt (h : Hdr) (t n : Nat) : Option Nat :=
  match h.entries.find? (fun e => e.kind = 0 && !e.all && e.tid = t && e.thr = n) with
  | some e => some e.addr
  | none => (h.entries.find? (fun e => e.kind = 0 && e.all && e.thr = n)).map EntRec.addr

/-- The threads of a tile at START: registers 0; the others begin HALTED. -/
def Hdr.threads (h : Hdr) (t : Nat) : Sparse Thread :=
  (List.range 6).filterMap (fun n => (h.entryAt t n).map (fun a => (n, ({ pc := BitVec.ofNat 64 a, st := .runnable } : Thread))))

/-- A queue at START: ISSUE and DONE are 0 (R110). A request of an earlier run that still moves keeps its place,
with a number before 0, and its end does not count (log entry 16). -/
def Queue.begun (y : Queue) : Queue := { reqs := y.reqs.map (fun r => { r with seq := r.seq - y.issue }) }

/-- A tile at START. -/
def Tile.begun (x : Tile) (h : Hdr) (t : Nat) : Tile :=
  { x with thr := h.threads t, arrived := false, xch := { next := h.listAt t }, queues := x.queues.map (fun q => (q.1, q.2.begun)) }

/-- A cluster at START: NEXT_SEQ and the cycle counter begin at 0 (R134, R147). -/
def Cluster.begun (x : Cluster) : Cluster := { x with cycReg := 0, eng := x.eng.map (fun e => (e.1, { e.2 with nextSeq := 0 })), stopAt := none }

/-- The registers of a die that the header loads. -/
def Die.begun (x : Die) (c : CtxRef) (h : Hdr) (mine : Watch → Bool) : Die :=
  let ss := sget {} x.ss c.slot
  { x with ss := sput x.ss c.slot { ss with missAct := h.missAct, allow := h.allow },
           dsCtl := sput x.dsCtl c.slot (h.dsCtl &&& 0xFFFFF#32),
           rst := { x.rst with wdog := sput x.rst.wdog c.slot h.wdog, sample := sput x.rst.sample c.slot (h.sample &&& 0xFFFFFF#32) },
           watch := x.watch.map (fun e => (e.1, if mine e.2 then { e.2 with count := e.2.period } else e.2)) }

/-- The flags of a context as START records them (R229). -/
def State.snapTiles (s : State) (c : CtxRef) : Sparse W64 :=
  ((s.ctx c).tids.filter (fun t => (s.tile t).flags ≠ 0)).map (fun t => (t, (s.tile t).flags))
def State.snapGlobs (s : State) (c : CtxRef) : List (Nat × Nat) :=
  (diesOf s.layout c.part).flatMap (fun d =>
    (((s.die d).flg.gfOwn.filter (fun e => e.2 = c.slot + 1)).map Prod.fst).filterMap (fun n => if s.flag (.glob d n) then some (d, n) else none))

/-- The superstep state at START: compute phase 0 at SSN 0. -/
def State.runBegun (s : State) (c : CtxRef) (h : Hdr) : Run :=
  let r := (s.ctx c).run
  { tcs := s.now, wdogAt := s.now, tbc := r.tbc, xstart := r.xstart, snapT := s.snapTiles c, snapG := s.snapGlobs c, islocal := h.modCount = 1 }

/-- The clusters in which a context has a runnable thread ask for their clocks (R46). -/
def State.demandCtx (s : State) (c : CtxRef) : State :=
  forAll (s.ctx c).cids (fun s i =>
    if (tilesOfCid i).any (fun t => (s.tile t).thr.any (fun h => h.2.st = .runnable)) then s.demand i else s) s

/-- OVF_TOTAL of the descriptors of a slot at START: it counts from there (R281). -/
def DieStr.begun (x : DieStr) (slot : Nat) : DieStr :=
  { x with scat := x.scat.map (fun e => (e.1, if Scat.slot e.2 = slot then { w := sput e.2.w 7 (BitVec.ofNat 64 (e.2.word 7 % 2 ^ 32)) } else e.2)) }

/-- START of a context that passed its checks (R74). A context in which no thread runs is DONE at once. -/
def State.startCtx (s : State) (c : CtxRef) (h : Hdr) : State :=
  let x := s.ctx c
  let s := forAll (diesOf s.layout c.part) (fun s d => s.setDie d { s.die d with str := (s.die d).str.begun c.slot }) s
  let s := forAll x.tables (fun s r => s.writeTbl c r) s
  let s := forAll x.portsNamed (fun s p =>
    s.setXch p { withRecords (s.port p).xch x.tables p with owner := some c, slots := [] }) s
  let s := forAll x.portsFed (fun s p => s.setXch p (withRecords (s.port p).xch x.tables p)) s
  let s := forAll (diesOf s.layout c.part) (fun s d => s.setDie d ((s.die d).begun c h (fun k => k.own = ownWord c))) s
  let s := forAll x.tids (fun s t =>
    let y := (s.tile t).begun h t
    if y = s.tile t then s else s.setTile t y) s
  let s := forAll x.cids (fun s i => s.setCluster i (s.cluster i).begun) s
  let t := s.ths c
  let s := s.setThs c { t with self := false, sent := false, arr := 0, early := 0 }
  let s := s.setCtx c { s.ctx c with st := .running, run := s.runBegun c h }
  (s.demandCtx c).doneIf c

/-- START (R73, R74, R361). -/
def execStart (r : RingRef) (w : CmdWords) (s : State) : Res :=
  hostCtxCmd s r w { op := 0x23, needP := true, needC := true } (fun s c =>
    match (s.ctx c).st with
    | .running => s.replyCode r codeBusy
    | .faulted => s.replyCode r codeFaulted
    | .loaded =>
      match (s.ctx c).hdr with
      | none => s.replyCode r codeBadParam
      | some h =>
        match s.startCheck c h with
        | (s, some code) => s.replyCode r code
        | (s, none) => (s.startCtx c h).replyCode r codeOk
    | .created => s.replyCode r codeBadParam
    | .halted => s.replyCode r codeBadParam
    | .done => s.replyCode r codeBadParam
    | .free => s.replyCode r codeBadParam
    | .tearing => s.replyCode r codeBadParam)

/-- HALT (R73, R75): a running context is answered at its boundary. -/
def execHaltCommand (r : RingRef) (w : CmdWords) (s : State) : Res :=
  hostCtxCmd s r w { op := 0x24, needP := true } (fun s c =>
    let x := s.ctx c
    match x.st with
    | .faulted => s.replyCode r codeFaulted
    | .running => s.setCtx c { x with run := { x.run with haltBy := x.run.haltBy ++ [r] } }
    | .created => s.replyCode r codeOk
    | .loaded => s.replyCode r codeOk
    | .halted => s.replyCode r codeOk
    | .done => s.replyCode r codeOk
    | .free => s.replyCode r codeBadParam
    | .tearing => s.replyCode r codeBadParam)

/-- RESUME (R73, R75, R364): the next compute phase begins, at the SSN of the halt. -/
def execResume (r : RingRef) (w : CmdWords) (s : State) : Res :=
  hostCtxCmd s r w { op := 0x25, needP := true, needC := true } (fun s c =>
    let x := s.ctx c
    match x.st with
    | .running => s.replyCode r codeBusy
    | .faulted => s.replyCode r codeFaulted
    | .halted =>
      let s := s.setCtx c { x with st := .running, run := { x.run with tcs := s.now, wdogAt := s.now } }
      (s.demandCtx c).replyCode r codeOk
    | .created => s.replyCode r codeBadParam
    | .loaded => s.replyCode r codeBadParam
    | .done => s.replyCode r codeBadParam
    | .free => s.replyCode r codeBadParam
    | .tearing => s.replyCode r codeBadParam)

end Sys2Proof.Machine
end

