-- ==== Sys2Proof/Machine/HostMove.lean ====
section
/-!
DEFINITION. DMA_HOST, remote windows, flags by the host, samples (R36, R179, R203, R205, R230, R327, R328, R366).
-/

namespace Sys2Proof.Machine

/-! ### DMA_HOST (R328) -/

/-- DMA_HOST, fields by value. -/
structure DmaCmd where
  haddr : Nat
  daddr : Nat
  len   : Nat
  toHost : Bool
  phys  : Bool
deriving DecidableEq, Repr

def dmaCmd (w : CmdWords) : DmaCmd :=
  { haddr := w.w1.toNat, daddr := fld w.w2 47 0, len := fld w.w3 30 0, toHost := w.w3.getLsbD 32, phys := w.w3.getLsbD 33 }

/-- The parameter checks of DMA_HOST (R327). -/
def DmaCmd.ok (q : DmaCmd) (cxh : Nat) : Bool :=
  q.haddr % 32 = 0 && q.daddr % 32 = 0 && q.len % 32 = 0 && 32 ≤ q.len && q.len ≤ 2 ^ 30 && (!q.phys || cxh = 0)

/-- DMA_HOST (R328): accepted in every context state but FAULTED; the transfer holds the ring until it completes. -/
def execDmaHost (r : RingRef) (w : CmdWords) (s : State) : Res :=
  hostCmd s r w { op := 0x30, needP := true, needC := true, cxh := true,
                  masks := [2 ^ 64 - 1, 2 ^ 48 - 1, 0x37FFFFFFF] } (fun s =>
    let cxh := bits w.w0.toNat 31 16
    let q := dmaCmd w
    if q.phys then (if q.ok cxh then s else s.replyCode r codeBadParam)
    else
      match s.checkCxh r.pf (BitVec.ofNat 16 cxh) with
      | none => s.replyCode r codeBadParam
      | some c =>
        if (s.ctx c).st = .faulted then s.replyCode r codeFaulted
        else if q.ok cxh then s else s.replyCode r codeBadParam)

/-- The places of 32 bytes of HBM, or the failing address with its cause. -/
def State.dmaPlaces (s : State) (p : Nat) (c : Option CtxRef) (wr : Bool) (a : Nat) : State × Except (Nat × Nat) (List Nat) :=
  match c with
  | some c => s.translateAll (servingDie s.layout p) c wr ((vaList a 32).map (fun v => v % 2 ^ 48))
  | none =>
    match paPlace s.layout p a with
    | .error e => (s, .error (a, e))
    | .ok _ => (s, .ok ((vaList a 32).filterMap (fun v => match paPlace s.layout p v with | .ok k => some k | .error _ => none)))

/-- `n` units of 32 bytes moved; bytes before a failure stay moved. -/
def State.dmaMove (s : State) (p : Nat) (c : Option CtxRef) (toHost : Bool) (h a : Nat) : Nat → State × Option (Nat × Nat)
  | 0 => (s, none)
  | n + 1 =>
    match s.dmaPlaces p c (!toHost) a with
    | (s, .error e) => (s, some e)
    | (s, .ok ks) =>
      let s : State :=
        if toHost then { s with hostMem := mwrite s.hostMem h (ks.map (mget s.hbm)) }
        else { s with hbm := hbmPut s.hbm (ks.zip (mread s.hostMem h 32)) }
      s.dmaMove p c toHost (h + 32) (a + 32) n

/-- A transfer that runs to its end or its failure, with its reply. -/
def State.dmaFinish (s : State) (r : RingRef) (q : DmaCmd) (c : Option CtxRef) : State :=
  match s.dmaMove r.pf c q.toHost q.haddr q.daddr (q.len / 32) with
  | (s, none) => s.replyCode r codeOk
  | (s, some (a, cause)) => s.reply r codeBadParam (failWord a cause) 0 0

/-- DMA_HOST_COMPLETE (R42, R323, R328): a context that has gone answers BAD_PARAM, one that has faulted
FAULTED. No DMA runs once PF# is low (R384). -/
def execDmaHostComplete (r : RingRef) (s : State) : Res :=
  if !r.ok then .fault .noSuchUnit
  else if !s.plat.pf || s.asleep then .next s
  else
    match (s.ring r).cur with
    | none => .next s
    | some k =>
      let q := dmaCmd k.w
      if k.op ≠ 0x30 then .next s
      else if q.phys then .next (s.dmaFinish r q none)
      else
        match s.checkCxh r.pf k.cxh with
        | none => .next (s.replyCode r codeBadParam)
        | some c => .next (if (s.ctx c).st = .faulted then s.replyCode r codeFaulted else s.dmaFinish r q (some c))

/-! ### Remote windows (R203, R205) -/

/-- The lowest window that is not open. -/
def State.freeWin (s : State) : Option Nat := (List.range 256).find? (fun i => !(s.win i).open_)

/-- The window of WINDOW_OPEN (R327). -/
def winOf (w : CmdWords) (lcxh : BitVec 16) : Win :=
  { open_ := true, base := fld w.w1 47 0, size := fld w.w2 47 0, hdid := BitVec.ofNat 16 (fld w.w3 15 0),
    rcxh := BitVec.ofNat 16 (fld w.w3 31 16), lcxh := lcxh, w := w.w3.getLsbD 32, red := w.w3.getLsbD 33,
    objwin := if w.w3.getLsbD 48 then some (fld w.w3 47 40) else none }

/-- Whether an open window of a handle carries an object window index (R80). -/
def State.objwinUsed (s : State) (h : BitVec 16) (o : Option Nat) : Bool :=
  o.isSome && s.wins.any (fun e => e.2.open_ && e.2.lcxh = h && e.2.objwin = o)

/-- WINDOW_OPEN (R80, R203, R328). -/
def execWindowOpen (r : RingRef) (w : CmdWords) (s : State) : Res :=
  hostCtxCmd s r w { op := 0x31, needP := true, needC := true,
                     masks := [2 ^ 48 - 1, 2 ^ 48 - 1, 0x1FF03FFFFFFFF] } (fun s c =>
    let x := winOf w (s.cxh c)
    if x.base % 4096 ≠ 0 || x.size % 4096 ≠ 0 || x.size = 0 || 2 ^ 48 < x.base + x.size || s.objwinUsed x.lcxh x.objwin then
      s.replyCode r codeBadParam
    else
      match s.rangesOk c true [(x.base, x.size)] with
      | (s, false) => s.replyCode r codeBadParam
      | (s, true) =>
        match s.freeWin with
        | none => s.replyCode r codeNoResource
        | some i => (s.setWin i { x with rejects := (s.win i).rejects }).reply r codeOk i 0 0)

/-- WINDOW_CLOSE (R205, R328). -/
def execWindowClose (r : RingRef) (w : CmdWords) (s : State) : Res :=
  hostCmd s r w { op := 0x32, needP := true, masks := [0xFF] } (fun s =>
    let i := fld w.w1 7 0
    let x := s.win i
    if !x.open_ || bits x.lcxh.toNat 15 14 ≠ r.pf then s.replyCode r codeBadParam
    else
      let s := forAll ((List.range 16).filter (fun p => (s.port p).rx.part.isSome)) (fun s p =>
        s.setPort p { s.port p with rx := { (s.port p).rx with shut := (s.port p).rx.shut ++ [(i, x)] } }) s
      (s.setWin i {}).replyCode r codeOk)

/-! ### Flags (R230) -/

/-- The flag of FLAG_SET and FLAG_READ, `n` flags on. -/
def cmdFlag (w : CmdWords) (n : Nat) : FlagRef :=
  if w.w1.getLsbD 12 then .glob (fld w.w1 14 13) (fld w.w1 11 0 + n) else .tile (fld w.w1 28 16) (fld w.w1 11 0 + n)

/-- Whether the host may name a flag of a context. -/
def State.hostFlag (s : State) (c : CtxRef) (g : FlagRef) : Bool := g.ok && s.flagOf c g

/-- FLAG_SET (R230): a request that travels to the flag; its reply follows its effect. -/
def execFlagSet (r : RingRef) (w : CmdWords) (s : State) : Res :=
  hostCtxCmd s r w { op := 0x40, needP := true, masks := [0x11FFF7FFF] } (fun s c =>
    let g := cmdFlag w 0
    let go :=
      if s.hostFlag c g then
        let q : FlagReq := { g := g, kind := if w.w1.getLsbD 32 then .set else .clear, src := .host, tid := fld w.w1 28 16, thr := 0,
                             cxh := s.cxh c, arrived := false, order := 0, owner := some r }
        { s with freqs := s.freqs ++ [q] }
      else s.replyCode r codeBadParam
    match (s.ctx c).st with
    | .loaded => go
    | .running => go
    | .halted => go
    | .faulted => s.replyCode r codeFaulted
    | .created => s.replyCode r codeBadParam
    | .done => s.replyCode r codeBadParam
    | .free => s.replyCode r codeBadParam
    | .tearing => s.replyCode r codeBadParam)

/-- FLAG_READ (R230, R328). -/
def execFlagRead (r : RingRef) (w : CmdWords) (s : State) : Res :=
  hostCtxCmd s r w { op := 0x41, needP := true, masks := [0x3F001FFF7FFF] } (fun s c =>
    let gs := (List.range (fld w.w1 45 40 + 1)).map (cmdFlag w)
    if gs.all (s.hostFlag c) then s.reply r codeOk ((gs.zipIdx.map (fun e => b1 (s.flag e.1) * 2 ^ e.2)).sum) 0 0
    else s.replyCode r codeBadParam)

/-! ### Samples (R366) -/

/-- SCRATCH_SAMPLE (R366). -/
def execScratchSample (r : RingRef) (w : CmdWords) (s : State) : Res :=
  hostCtxCmd s r w { op := 0x42, needP := true, masks := [2 ^ 23 - 1] } (fun s c =>
    let x := s.ctx c
    let v := w.w1.toNat
    let go :=
      if sampleOff v % 32 ≠ 0 || 0x30000 < sampleOff v + sampleLen v then s.replyCode r codeBadParam
      else if x.dies.any (fun d => !(s.die d).rst.dumpEn) then s.replyCode r codeNoResource
      else if x.sampleBy.isSome || x.dies.any (fun d => (s.die d).rst.dumpV) then s.replyCode r codeBusy
      else s.setCtx c { x with sampleBy := some (some r, v) }
    match x.st with
    | .halted => go
    | .done => go
    | .faulted => go
    | .running => s.replyCode r codeBusy
    | .created => s.replyCode r codeBadParam
    | .loaded => s.replyCode r codeBadParam
    | .free => s.replyCode r codeBadParam
    | .tearing => s.replyCode r codeBadParam)

/-- SAMPLE_COMPLETE (R366). -/
def execSampleComplete (c : CtxRef) (s : State) : Res :=
  if !c.ok then .fault .noSuchUnit else when_ ((s.ctx c).sampleBy.isSome && s.plat.pf && !s.asleep) s (s.finishSample c)

end Sys2Proof.Machine
end

