-- ==== Sys2Proof/Machine/BankPower.lean ====
section
/-!
DEFINITION. Switching bank groups (R200 to R202).
-/

namespace Sys2Proof.Machine

/-- Whether a tile's DMA port holds a write into a bank group: accepted, and not yet in its banks (R201). -/
def State.heldWrite (s : State) (t g : Nat) : Bool :=
  match (s.tile t).dmaHeld with
  | none => false
  | some (u, k, _) =>
    match s.nextUnit t u k with
    | none => false
    | some x => x.toSram && groupOf x.a = g

/-- The in-flight count of a group (R201). -/
def State.inFlight (s : State) (cid g : Nat) : Nat := ((tilesOfCid cid).filter (fun t => s.heldWrite t g)).length

/-- A group zeroised in every tile of its cluster. -/
def State.zeroGroup (s : State) (cid g : Nat) : State :=
  { s with tiles := s.tiles.map (fun e =>
      (e.1, if cidOfTile e.1 = cid then { e.2 with sram := mzero e.2.sram (65536 * g) 65536 } else e.2)) }

/-- BANK_POWER (R200). A group that is in the state asked for stays so. -/
def execBankPower (r : RingRef) (w : CmdWords) (s : State) : Res :=
  hostCmd s r w { op := 0x61, needP := true, needC := true, masks := [0x7F] } (fun s =>
    let cid := fld w.w1 4 0
    let g := if w.w1.getLsbD 5 then 2 else 1
    let on := w.w1.getLsbD 6
    if partOfDie s.layout (dieOfCid cid) ≠ r.pf || !s.enabled cid then s.replyCode r codeBadParam
    else
      match (s.bank cid g).st with
      | .goingOff => s.replyCode r codeBusy
      | .goingOn => s.replyCode r codeBusy
      | .on => if on then s.replyCode r codeOk else s.setBank cid g { st := .goingOff, t0 := s.now, owner := some r }
      | .off => if on then s.setBank cid g { st := .goingOn, t0 := s.now, owner := some r } else s.replyCode r codeOk)

/-- The limit of GOING_OFF, ns (R201). -/
def bankOffLimit : Nat := 10000

/-- A group in GOING_OFF as a nanosecond ends: writes still in flight at the end of the last one in which it may
go OFF are noted (R201). -/
def State.bankLate (s : State) (cid g : Nat) (b : Bank) : Bank :=
  if b.st = .goingOff && b.t0 + bankOffLimit ≤ s.now && s.inFlight cid g ≠ 0 then { b with late := true } else b

/-- The groups of every cluster as a nanosecond ends. -/
def State.banksLate (s : State) : State :=
  { s with clusters := s.clusters.map (fun e => (e.1, { e.2 with g1 := s.bankLate e.1 1 e.2.g1, g2 := s.bankLate e.1 2 e.2.g2 })) }

/-- BANK_OFF_COMPLETE (R201): no write is in flight, and none was past the limit. -/
def execBankOffComplete (cid grp : Nat) (s : State) : Res :=
  if !(cidOk cid && grpOk grp) then .fault .noSuchUnit
  else
    let b := s.bank cid grp
    when_ (b.st = .goingOff && !b.late && s.inFlight cid grp = 0 && !s.asleep) s
      ((s.setBank cid grp { st := .off, t0 := s.now }).replyTo b.owner codeOk 0 0 0)

/-- BANK_OFF_TIMEOUT (R201): with a write still in flight past the limit the group is ON again, its contents
intact. -/
def execBankOffTimeout (cid grp : Nat) (s : State) : Res :=
  if !(cidOk cid && grpOk grp) then .fault .noSuchUnit
  else
    let b := s.bank cid grp
    when_ (b.st = .goingOff && (b.late || s.inFlight cid grp ≠ 0) && b.t0 + bankOffLimit < s.now && !s.asleep) s
      ((s.setBank cid grp {}).replyTo b.owner codeTimeout 0 0 0)

/-- BANK_ON_COMPLETE (R202): the group is zeroised and ON. -/
def execBankOnComplete (cid grp : Nat) (s : State) : Res :=
  if !(cidOk cid && grpOk grp) then .fault .noSuchUnit
  else
    let b := s.bank cid grp
    when_ (b.st = .goingOn && !s.asleep) s (((s.zeroGroup cid grp).setBank cid grp {}).replyTo b.owner codeOk 0 0 0)

end Sys2Proof.Machine
end

