-- ==== Sys2Proof/Machine/Branch.lean ====
section
/-!
DEFINITION. Branches (R90): the next fetch comes from the target. The PC is held in full, so a target out of
range traps at its fetch. -/

namespace Sys2Proof.Machine

/-- The target of a relative branch: PC + IMM × 8. -/
def Thread.target (h : Thread) (f : Fields) : W64 := h.pc + immS f * 8

/-- A conditional branch. -/
def State.branch (s : State) (r : IssueRef) (f : Fields) (p : W64 → W64 → Bool) : State :=
  s.modThread r.tid r.thr (fun h => if p (h.opA f) (h.opB f) then { h with pc := h.target f } else h.step)

/-- BEQ (R90). -/
def execBeq (r : IssueRef) (f : Fields) (s : State) : Res :=
  issue s r 0x1 0x00 f (fun s _ => s.branch r f (fun a b => a == b))

/-- BNE (R90). -/
def execBne (r : IssueRef) (f : Fields) (s : State) : Res :=
  issue s r 0x1 0x01 f (fun s _ => s.branch r f (fun a b => a != b))

/-- BLT (R90). -/
def execBlt (r : IssueRef) (f : Fields) (s : State) : Res :=
  issue s r 0x1 0x02 f (fun s _ => s.branch r f (fun a b => a.slt b))

/-- BGE (R90). -/
def execBge (r : IssueRef) (f : Fields) (s : State) : Res :=
  issue s r 0x1 0x03 f (fun s _ => s.branch r f (fun a b => !(a.slt b)))

/-- BLTU (R90). -/
def execBltu (r : IssueRef) (f : Fields) (s : State) : Res :=
  issue s r 0x1 0x04 f (fun s _ => s.branch r f (fun a b => a.ult b))

/-- BGEU (R90). -/
def execBgeu (r : IssueRef) (f : Fields) (s : State) : Res :=
  issue s r 0x1 0x05 f (fun s _ => s.branch r f (fun a b => !(a.ult b)))

/-- J (R90). -/
def execJ (r : IssueRef) (f : Fields) (s : State) : Res :=
  issue s r 0x1 0x08 f (fun s _ => s.modThread r.tid r.thr (fun h => { h with pc := h.target f }))

/-- JAL (R90): sD takes PC + 8. -/
def execJal (r : IssueRef) (f : Fields) (s : State) : Res :=
  issue s r 0x1 0x09 f (fun s _ => s.modThread r.tid r.thr (fun h => { h.setSr f.d (h.pc + 8) with pc := h.target f }))

/-- JR (R90): a misaligned target traps at the JR itself. -/
def execJr (r : IssueRef) (f : Fields) (s : State) : Res :=
  issue s r 0x1 0x0A f (fun s c =>
    let a := (s.thread r.tid r.thr).opA f
    if a.toNat % 8 = 0 then s.modThread r.tid r.thr (fun h => { h with pc := a }) else s.sramTrap r c a 0)

end Sys2Proof.Machine
end

