-- ==== Sys2Proof/Machine/EventCtl.lean ====
section
/-!
DEFINITION. The event controllers' steps and the event log (R338 to R346, R349 to R353, R383).
-/

namespace Sys2Proof.Machine

/-! ### Raises and storms (R338, R345) -/

/-- Whether the control domains run: power, no L3, not STANDBY (R357, R367). -/
def State.controlRuns (s : State) : Bool := s.plat.powered && s.plat.running && !s.asleep

/-- EVENT_RAISE (R336, R338): a reserved number is never pending. In STANDBY (R44, R346) only the latches take an
event. -/
def execEventRaise (die src : Nat) (x : RaiseInfo) (s : State) : Res :=
  if !dieOk die then .fault .noSuchUnit else when_ (s.plat.powered && evListed src && (!s.asleep || (evLatch src).isSome)) s (s.raise die src x)

/-- A die's event controller changed. -/
def State.modEvc (s : State) (d : Nat) (f : Evc → Evc) : State := s.setDie d { s.die d with evc := f (s.die d).evc }

/-- STORM_WINDOW (R345): the counts of a new HT millisecond begin at 0. -/
def execStormWindow (s : State) : Res :=
  awake s (.next (forAll [0, 1, 2, 3] (fun s d => s.modEvc d (fun e => e.window s.now)) s))

/-! ### The control core's accesses (R340, R341, R343, R344) -/

/-- A claim in a nanosecond, by the state at the start of its cycle (R340): the source's pending bit clears,
unless the source was raised in the same cycle (R338), and its priority is pushed. -/
def Evc.take (e : Evc) (now : Nat) : Evc :=
  match (e.atStart now).claim with
  | none => e
  | some n => { e with pend := putBit e.pend n (e.roseAt = now && e.again.getLsbD n), stack := e.prioOf n :: e.stack }

/-- EVC_CLAIM (R340): a read by the control core, which gets the word that the claim returns. -/
def execEvcClaim (die : Nat) (s : State) : Res :=
  if !dieOk die then .fault .noSuchUnit
  else when_ s.controlRuns s
    ((s.modEvc die (fun e => e.take s.now)).emit (.claim die (((s.die die).evc.atStart s.now).claimWord)))

/-- The end of an event (R341). -/
def Evc.eoi (e : Evc) : Evc :=
  match e.stack with
  | [] => { e with eoiErr := true }
  | _ :: ps => { e with stack := ps }

/-- A write of EVC_EOI by a control core: EOI_ERR is a hardware set (R18, R341). -/
def State.evcEoi (s : State) (d : Nat) : State :=
  let t := s.modEvc d Evc.eoi
  if (s.die d).evc.stack.isEmpty then t.hwSet (bar0Bit d 0xA0008 42) else t

/-- EVC_EOI (R341). -/
def execEvcEoi (die : Nat) (s : State) : Res :=
  if !dieOk die then .fault .noSuchUnit else when_ s.controlRuns s (s.evcEoi die)

/-- EVC_HOLD_SET (R343). -/
def execEvcHoldSet (die : Nat) (s : State) : Res :=
  if !dieOk die then .fault .noSuchUnit else when_ s.controlRuns s (s.modEvc die (fun e => { e with hold := true }))

/-- HOLD back at 0: the deferred enable clears take effect (R344). -/
def Evc.release (e : Evc) : Evc := { e with hold := false, en := e.en &&& ~~~e.deferred, deferred := 0 }

/-- EVC_HOLD_RELEASE (R344). -/
def execEvcHoldRelease (die : Nat) (s : State) : Res :=
  if !dieOk die then .fault .noSuchUnit else when_ s.controlRuns s (s.modEvc die Evc.release)

/-- A full latch passed to the pending bit of its die, with its stamp; the record is offered once (R337, R346). -/
def State.passLatch (s : State) (d l : Nat) : State :=
  let e := (s.die d).evc
  let s := s.modEvc d (fun e => { e with full := putBit e.full l false })
  s.evcRaise d (latchSrc l) (sget 0 e.stamps l) (d = 0) (sget noInfo e.infos l)

/-- LATCH_TRANSFER (R346), once the control clock runs. -/
def execLatchTransfer (die latch : Nat) (s : State) : Res :=
  if !(dieOk die && latch < 5) then .fault .noSuchUnit
  else when_ (s.controlRuns && (s.die die).evc.full.getLsbD latch) s (s.passLatch die latch)

/-! ### The log (R349 to R351, R383) -/

/-- Records of a page, records that the flash keeps, and the age at which a page is committed, ns (R351). -/
def pageRecs : Nat := 256
def flashRecs : Nat := 262144
def pageAge : Nat := 100000000

/-- Whether the open page is programmed now: it is full or due, none is being programmed, and no power-fail
sequence runs (R383, R384); it is asked at each change of these. -/
def State.progIfDue (s : State) : State :=
  let l := s.log
  if l.prog.isNone && s.plat.pf && (l.open_ = pageRecs || l.filled) then
    { s with log := { l with prog := some ((l.next - 1).toNat, s.now), open_ := 0, filled := false } }
  else s

/-- A record appended with the next LSEQ; it sets ATTN.EVENT where its scope reaches (R350, R352). -/
def State.append (s : State) (x : LogRec) : State :=
  let l := s.log
  let s : State := { s with log := { l with
    next := l.next + 1, recs := l.recs ++ [{ x with lseq := l.next }], open_ := l.open_ + 1,
    openAt := if l.open_ = 0 then s.now else l.openAt } }
  (if x.mscope then s.setAttnM 0 else s.setAttn x.part 0).progIfDue

/-- The record of LOG_LOST: the drops of its run. -/
def State.lostRec (s : State) : LogRec :=
  { s.mkRec 0 evLogLost s.log.runAt { noInfo with detail := BitVec.ofNat 64 (min s.log.run (2 ^ 32 - 1)) } with part := partOfDie s.layout 0 }

/-- A record dropped: counted, and LOG_LOST raised at the first of a run. -/
def State.dropRec (s : State) : State :=
  let l := s.log
  let first := l.run = 0
  let s : State := { s with log := { l with lost := satAdd l.lost 1, run := l.run + 1, runAt := if first then s.ht.now else l.runAt } }
  if first then forAll [0, 1, 2, 3] (fun s d => s.evcRaise d evLogLost s.ht.now false noInfo) s else s

/-- The die whose record is next in the round robin, of the records raised before a time: those of one cycle go
in ascending source number, once the cycle has ended (R350). -/
def State.nextDie (s : State) (before : Nat) : Option Nat :=
  ([0, 1, 2, 3].map (fun k => (s.log.turn + k) % 4)).find? (fun d => (s.die d).evc.offers.head?.any (fun x => x.1 < before))

/-- The arbiter's next record of those raised before a time (R350, R351): a pending LOG_LOST ahead of any
other. -/
def State.logStep (before : Nat) (s : State) : State :=
  let room : Bool := s.log.open_ < pageRecs
  if 0 < s.log.run && room then
    let x := s.lostRec
    ({ s with log := { s.log with run := 0 } } : State).append x
  else
    match s.nextDie before with
    | none => s
    | some d =>
      match (s.die d).evc.offers with
      | [] => s
      | x :: xs =>
        let s := s.modEvc d (fun e => { e with offers := xs })
        let s : State := { s with log := { s.log with turn := (d + 1) % 4 } }
        if room then s.append x.2 else s.dropRec

/-- Whether the event-log arbiter runs: an L3 does not stop it, STANDBY does (R44, R367, R387). -/
def State.logRuns (s : State) : Bool := s.plat.powered && !s.asleep

/-- LOG_APPEND (R350, R351): one record in a control cycle. -/
def execLogAppend (s : State) : Res :=
  when_ (s.logRuns && s.log.lastAt != some s.now) s (({ s with log := { s.log with lastAt := some s.now } } : State).logStep s.now)

/-- PAGE_COMMIT_TIMER (R351, R383): the open page is 100 ms old. -/
def execPageCommitTimer (s : State) : Res :=
  let l := s.log
  when_ (s.logRuns && s.plat.pf && 0 < l.open_ && !l.filled && l.openAt + pageAge ≤ s.now) s
    ({ s with log := { l with filled := true } } : State).progIfDue

/-- A page committed: EVC_LOGCOMMIT, and the oldest records that the flash no longer keeps are gone (R351). -/
def Log.committed (l : Log) (lseq : Nat) : Log :=
  { l with prog := none, commit := BitVec.ofNat 48 lseq, recs := l.recs.filter (fun x => lseq < x.lseq.toNat + flashRecs) }

/-- PAGE_PROGRAM_COMPLETE (R351, R383): a page in progress completes also in the power-fail sequence (R384). -/
def execPageProgramComplete (s : State) : Res :=
  match s.log.prog with
  | none => .next s
  | some (lseq, _) => when_ s.plat.powered s ({ s with log := s.log.committed lseq } : State).progIfDue

/-! ### EVENT_READ and EVENT_ACK (R352, R353) -/

/-- OLDEST: the oldest LSEQ held; that of the next record where none is. -/
def Log.oldest (l : Log) : BitVec 48 :=
  match l.recs with
  | [] => l.next
  | x :: _ => x.lseq

/-- A record as 32 bytes (R349). -/
def LogRec.bytes (x : LogRec) : List Byte :=
  toLE 8 (x.lseq.toNat + at_ 48 x.src + at_ 57 x.die + at_ 59 x.part + at_ 61 (b1 x.mscope)) ++ toLE 8 x.ht.toNat
    ++ toLE 8 (x.info.cxh.toNat + at_ 16 x.info.tid.toNat + at_ 29 x.info.thr.toNat + at_ 32 x.info.ssn.toNat) ++ toLE 8 x.info.detail.toNat

/-- Whether a function sees a record. -/
def seesRec (pf : Nat) (x : LogRec) : Bool := pf = 0 || x.mscope || x.part = pf

/-- The records copied from a list, at most `n`, and the LSEQ after the last record examined. -/
def copyRecs (pf : Nat) : Nat → Nat → List LogRec → List LogRec × Nat
  | _, nx, [] => ([], nx)
  | 0, nx, _ => ([], nx)
  | n + 1, _, x :: xs =>
    if seesRec pf x then
      let r := copyRecs pf n (x.lseq.toNat + 1) xs
      (x :: r.1, r.2)
    else copyRecs pf (n + 1) (x.lseq.toNat + 1) xs

/-- EVENT_READ (R352). -/
def execEventRead (r : RingRef) (w : CmdWords) (s : State) : Res :=
  hostCmd s r w { op := 0x50, masks := [2 ^ 64 - 1, 2 ^ 49 - 1, 2 ^ 13 - 1] } (fun s =>
    let a := w.w1.toNat
    let n := fld w.w3 12 0
    if a % 32 ≠ 0 || n = 0 || 4096 < n then s.replyCode r codeBadParam
    else
      let old := s.log.oldest.toNat
      let want := if w.w2.getLsbD 48 then (s.fn r.pf).cursor.toNat else fld w.w2 47 0
      let start := max want old
      let q := copyRecs r.pf n start (s.log.recs.filter (fun x => start ≤ x.lseq.toNat))
      let s : State := { s with hostMem := mwrite s.hostMem a (q.1.flatMap LogRec.bytes) }
      s.reply r codeOk (q.2 % 2 ^ 48) (q.1.length + at_ 16 (b1 (want < old))) old)

/-- EVENT_ACK (R353). -/
def execEventAck (r : RingRef) (w : CmdWords) (s : State) : Res :=
  hostCmd s r w { op := 0x51, masks := [2 ^ 48 - 1] } (fun s =>
    let upto := fld w.w1 47 0
    let x := s.fn r.pf
    if s.log.next.toNat ≤ upto then s.replyCode r codeBadParam
    else if x.cursor.toNat ≤ upto then (s.setFn r.pf { x with cursor := BitVec.ofNat 48 (upto + 1) }).replyCode r codeOk
    else s.replyCode r codeOk)

end Sys2Proof.Machine
end

