-- ==== Sys2Proof/Machine/Reset.lean ====
section
/-!
DEFINITION. Watchdogs, progress monitors and the reset levels (R309, R347, R355, R364, R365, R367 to R374, R378).
-/

namespace Sys2Proof.Machine

/-! ### The superstep watchdog (R364) -/

/-- LIMIT of a context's watchdog, ns, on the die that serves its partition. -/
def State.wdogNs (s : State) (c : CtxRef) : Nat :=
  let v := (sget 0 (s.die (servingDie s.layout c.part)).rst.wdog c.slot).toNat
  1000 * (if v = 0 then 1000000 else v)

/-- SS_WATCHDOG (R364): the next compute phase has not begun by T_cs + LIMIT. -/
def execSsWatchdog (c : CtxRef) (s : State) : Res :=
  if !c.ok then .fault .noSuchUnit
  else
    let x := s.ctx c
    when_ (x.st = .running && x.run.wdogAt + s.wdogNs c < s.now) s
      ((s.raise (servingDie s.layout c.part) evSsWatchdog (s.infoCtx c 0)).faultCtx c causeWatchdog evSsWatchdog)

/-! ### Engines (R365, R368) -/

def engClass (e : BitVec 16) : Nat := bits e.toNat 15 13
def engDie (e : BitVec 16) : Nat := bits e.toNat 12 11
def engIdx (e : BitVec 16) : Nat := bits e.toNat 10 0

/-- An engine ID. -/
def engId (cls die idx : Nat) : BitVec 16 := BitVec.ofNat 16 (at_ 13 cls + at_ 11 die + idx)

/-- Whether an engine ID names an engine. -/
def engValid (e : BitVec 16) : Bool :=
  let i := engIdx e
  match engClass e with
  | 0 => true
  | 1 => i < 32 && i % 4 < 3
  | 2 => i = 0
  | 3 => i < 4
  | 4 => i < 5
  | _ => false

def engTile (e : BitVec 16) : Nat := 2048 * engDie e + engIdx e
def engCid (e : BitVec 16) : Nat := 8 * engDie e + engIdx e / 4
def engPort (e : BitVec 16) : Nat := 4 * engDie e + engIdx e
def engStack (e : BitVec 16) : Nat := 5 * engDie e + engIdx e

/-- The transfers of a tile that are under way or queued, by the time of their issue: not those that a page
fault has stopped (R365). -/
def Tile.births (x : Tile) : List Nat :=
  x.queues.flatMap (fun q => (q.2.reqs.filter (fun z => z.stop = .run)).map Req.born)
    ++ (x.handles.filter (fun h => h.2.active && h.2.stop = .run)).map (fun h => h.2.born)

/-- The time of issue of the oldest work of a context in a die's DMA group: its transfers while they go on, and its
units in flight. -/
def State.oldestDma (s : State) (c : CtxRef) (d : Nat) : Option Nat :=
  ((if s.dmaRuns c then ((s.ctx c).tidsOn d).flatMap (fun t => (s.tile t).births) else [])
    ++ ((s.die d).str.fly.filter (fun f => f.cxh = s.cxh c)).map FlyUnit.born).min?

/-- A context inserted into a list by age, oldest first. -/
def insertAge (a : Nat × CtxRef) : List (Nat × CtxRef) → List (Nat × CtxRef)
  | [] => [a]
  | b :: bs => if a.1 ≤ b.1 then a :: b :: bs else b :: insertAge a bs

/-- The contexts with work in a die's DMA group, the oldest work first. -/
def State.dmaWork (s : State) (d : Nat) : List CtxRef :=
  ((allCtx.filterMap (fun c => (s.oldestDma c d).map (fun b => (b, c)))).foldl (fun l a => insertAge a l) []).map Prod.snd

/-- Contexts in their order, each once. -/
def firsts (l : List CtxRef) : List CtxRef := l.foldl (fun a c => if a.contains c then a else a ++ [c]) []

/-- The contexts whose frames a port holds, oldest first, and the context whose slots are in progress there. -/
def State.portWork (s : State) (p : Nat) : List CtxRef :=
  let x := s.port p
  let held := (x.tx.buf.map (fun f => cxhSlot f.cxh)).filter (fun c => x.tx.buf.any (fun f => f.cxh = s.cxh c))
  let now := match x.xch.owner with
    | some c => if x.xch.slots.any XSlot.inProgress then [c] else []
    | none => []
  firsts (held ++ now)

/-- The contexts whose requests the controller of a stack holds, oldest first (log entry 49). -/
def State.hbmWork (s : State) (st : Nat) : List CtxRef :=
  firsts (((s.die (st / 5)).str.hbmq.filter (fun q => q.stack = st && s.cxh (cxhSlot q.cxh) = q.cxh)).map (fun q => cxhSlot q.cxh))

/-- The contexts with work in an engine, the oldest work first (R365). -/
def State.engWork (s : State) (e : BitVec 16) : List CtxRef :=
  match engClass e with
  | 0 => if (s.tile (engTile e)).allHalted then [] else (s.ctxOfTile (engTile e)).toList
  | 1 => if ((s.cluster (engCid e)).engine (engIdx e % 4)).q.isEmpty then [] else (s.ctxOfCid (engCid e)).toList
  | 3 => s.portWork (engPort e)
  | 4 => s.hbmWork (engStack e)
  | _ => s.dmaWork (engDie e)

/-- Whether a tile holds a transfer, also one that a page fault has stopped. -/
def Tile.hasDma (x : Tile) : Bool := x.queues.any (fun q => !q.2.reqs.isEmpty) || x.handles.any (fun h => h.2.active)

/-- The contexts whose work an L1 of an engine removes (R363, R368): a DMA group discards also the transfers
that a page fault has stopped. -/
def State.engLost (s : State) (e : BitVec 16) : List CtxRef :=
  s.engWork e ++ (if engClass e = 2 then
    allCtx.filter (fun c => ((s.ctx c).tidsOn (engDie e)).any (fun t => (s.tile t).hasDma)) else [])

/-! ### L1 (R363, R368) -/

/-- Whether a reset of an engine, of its partition or of the module is in progress at a level or above; an L4
once it is requested (R374). -/
def State.resetOver (s : State) (level : Nat) (target : BitVec 16) (part : Nat) : Bool :=
  s.plat.pwrCycle || s.resets.any (fun q => level ≤ q.level &&
    ((q.level = 1 && level = 1 && q.target = target) || (q.level = 2 && q.part = part) || 3 ≤ q.level))

/-- A tile's fence set or lifted. -/
def State.setFence (s : State) (t : Nat) (b : Bool) : State := s.setTile t { s.tile t with fenced := b }

/-- An L1 begun: contexts whose work it removes fault as VICTIM. A tile is fenced, and its context faults also
without work there (R54, R252): with cause FENCE. -/
def State.startL1 (s : State) (e : BitVec 16) (owner : Option RingRef) (ctx : Option CtxRef) : State :=
  let s := forAll (s.engLost e) (fun s c => s.faultCtx c causeVictim 0) s
  let s := if engClass e = 0 then forAll (s.ctxOfTile (engTile e)).toList (fun s c => s.faultCtx c causeFence 0) (s.setFence (engTile e) true)
    else s
  { s with resets := s.resets ++ [{ level := 1, target := e, part := partOfDie s.layout (engDie e), start := s.now, owner := owner, ctx := ctx }] }

/-! ### Progress monitors (R365) -/

/-- The default of RST_PMLIM_k (R365, R389). -/
def pmDefault (k : Nat) : BitVec 16 := if k = 0 then 100 else if k = 1 then 2000 else 1000

/-- RST_PMLIM_k. -/
def DieRst.pm (x : DieRst) (k : Nat) : BitVec 16 := sget (pmDefault k) x.pmLim k

/-- The limit of an engine's monitor, ns: 0 acts as 1 µs (R389). -/
def State.pmNs (s : State) (e : BitVec 16) : Nat := 1000 * max 1 ((s.die (engDie e)).rst.pm (engClass e)).toNat

/-- Whether a tile core holds work: a RUNNABLE thread of a RUNNING context. -/
def State.coreBusy (s : State) (t : Nat) (x : Tile) : Bool :=
  x.thr.any (fun h => h.2.st = .runnable) && (match s.ctxOfTile t with | none => false | some c => (s.ctx c).st = .running)

/-- Whether the engines of a cluster hold work: a job in the queue, of a context that goes on. -/
def State.cloverBusy (s : State) (cid : Nat) (x : Engine) : Bool :=
  !x.q.isEmpty && (match s.ctxOfCid cid with | none => false | some c => (s.ctx c).live)

/-- Whether the DMA group of a die holds work: a transfer that no page fault has stopped, or a unit in flight. -/
def State.dmaBusy (s : State) (d : Nat) (x : DieStr) : Bool := !x.fly.isEmpty || !(s.dmaWork d).isEmpty

/-- Whether an HBM controller holds a request. -/
def hbmBusy (d st : Nat) (x : DieStr) : Bool := x.hbmq.any (fun q => q.stack = 5 * d + st)

/-- The time from which a monitor counts: it goes on from where it stands, begins where none counts, and stops
without work. -/
def pmNext (now : Nat) (busy : Bool) (at_ : Option Nat) : Option Nat :=
  if busy then some (at_.getD now) else none

/-- Where the monitors of a die's DMA group and HBM controllers count from. -/
def State.pmDie (s : State) (d : Nat) (x : DieStr) : DieStr :=
  { x with pmAt := pmNext s.now (s.dmaBusy d x) x.pmAt,
           hbmAt := (List.range 5).filterMap (fun st =>
             (pmNext s.now (hbmBusy d st x) ((x.hbmAt.find? (fun e => e.1 = st)).map Prod.snd)).map (fun a => (st, a))) }

/-- The monitors of every engine as a nanosecond begins (R365). -/
def State.monitors (s : State) : State :=
  { s with
    tiles := s.tiles.map (fun e => (e.1, { e.2 with pmAt := pmNext s.now (s.coreBusy e.1 e.2) e.2.pmAt })),
    clusters := s.clusters.map (fun e => (e.1, { e.2 with
      eng := e.2.eng.map (fun g => (g.1, { g.2 with pmAt := pmNext s.now (s.cloverBusy e.1 g.2) g.2.pmAt })) })),
    dies := s.dies.map (fun e => (e.1, { e.2 with str := s.pmDie e.1 e.2.str })),
    ports := s.ports.map (fun e => (e.1, { e.2 with tx := { e.2.tx with pmAt := pmNext s.now (!e.2.tx.buf.isEmpty) e.2.tx.pmAt } })) }

/-- Where an engine's monitor counts from. -/
def State.pmFrom (s : State) (e : BitVec 16) : Option Nat :=
  match engClass e with
  | 0 => (s.tile (engTile e)).pmAt
  | 1 => ((s.cluster (engCid e)).engine (engIdx e % 4)).pmAt
  | 2 => (s.die (engDie e)).str.pmAt
  | 3 => (s.port (engPort e)).tx.pmAt
  | 4 => ((s.die (engDie e)).str.hbmAt.find? (fun h => h.1 = engIdx e)).map Prod.snd
  | _ => none

/-- Whether an engine's monitor fires: it has counted to its limit. -/
def State.pmFires (s : State) (e : BitVec 16) : Bool :=
  match s.pmFrom e with
  | none => false
  | some a => a + s.pmNs e ≤ s.now

/-- A monitor that fires: ENGINE_HANG names the engine, the oldest work's context takes HANG, and an L1
begins, whose victims are the rest. -/
def State.hang (s : State) (e : BitVec 16) : State :=
  let s1 := s.raise (engDie e) evEngineHang { noInfo with names := [e.toNat] }
  (forAll (s.engWork e).head?.toList (fun s c => s.faultCtx c causeHang evEngineHang) s1).startL1 e none none

/-- ENGINE_HANG (R363, R365): the engine's monitor has reached its limit. -/
def execEngineHang (eng : BitVec 16) (s : State) : Res :=
  when_ (engValid eng && s.pmFires eng && s.controlRuns && !s.resetOver 1 eng (partOfDie s.layout (engDie eng))) s (s.hang eng)

/-- A tile core after its L1: threads, queues, handles and messages are reset; SRAM stays (R368). -/
def Tile.coreReset (x : Tile) : Tile := { x with thr := [], queues := [], handles := [], store := [], dmaHeld := none, fenced := false }

/-- A Clover engine after its L1. -/
def Cluster.resetEng (x : Cluster) (y : Engine) : Engine := { steps := (x.settle y).steps }

/-- A tile whose transfers are discarded. -/
def Tile.dmaReset (x : Tile) : Tile :=
  { x with queues := x.queues.map (fun q => (q.1, { q.2 with reqs := [] })),
           handles := x.handles.map (fun h => (h.1, { h.2 with active := false, inner := 0, stop := .run })), dmaHeld := none }

/-- What an L1 does to its engine (R368). -/
def State.resetEngine (s : State) (e : BitVec 16) : State :=
  match engClass e with
  | 0 =>
    let t := engTile e
    let y := s.die (engDie e)
    let s := s.setTile t (s.tile t).coreReset
    s.setDie (engDie e) { y with str := { y.str with waitq := y.str.waitq.filter (fun q => q.1 ≠ t) } }
  | 1 =>
    let x := s.cluster (engCid e)
    let s := s.setCluster (engCid e) { x with eng := sput x.eng (engIdx e % 4) (x.resetEng (x.engine (engIdx e % 4))) }
    { s with tiles := s.tiles.map (fun t => (t.1, if cidOfTile t.1 = engCid e then { t.2 with feed := t.2.feed.filter (fun l => l.eng ≠ engIdx e % 4) } else t.2)) }
  | 2 =>
    let d := engDie e
    let s : State := { s with tiles := s.tiles.map (fun t => (t.1, if dieOfTile t.1 = d then t.2.dmaReset else t.2)) }
    let y := s.die d
    s.setDie d { y with str := { y.str with waitq := [], fly := [] } }
  | 3 => s.portLost (engPort e) Config.resetCause.toNat
  | 4 =>
    let d := engDie e
    let y := s.die d
    s.setDie d { y with str := { y.str with hbmq := y.str.hbmq.filter (fun q => q.stack ≠ engStack e) } }
  | _ => s

/-! ### L2 (R370, R371, R378) -/

/-- Every fence lifted: an L3 tests each tile again (R370). -/
def State.liftAll (s : State) : State := { s with tiles := s.tiles.map (fun t => (t.1, { t.2 with fenced := false })) }

/-- The fences of a partition's tiles lifted. -/
def State.liftFences (s : State) (p : Nat) : State :=
  { s with tiles := s.tiles.map (fun t => (t.1, if partOfDie s.layout (dieOfTile t.1) = p then { t.2 with fenced := false } else t.2)) }

/-- A removal as an L2 finds it: its kind, and whether the L2 forces it. A reset's context is gone: it is answered. -/
def Td.underL2 (t : Td) (forced : Bool) : Td :=
  let f := if forced && t.forced = some 1 then some 2 else t.forced
  { t with kind := .level2, wiped := false, forced := f, owner := if t.kind = .reset && f.isNone then none else t.owner }

/-- A slot at the start of an L2: its epoch increments, and its context is destroyed. -/
def State.slotL2 (s : State) (c : CtxRef) (forced : Bool) : State :=
  let x := s.ctx c
  let up := s.setCtx c { x with epoch := x.epoch + 1 }
  match x.st with
  | .free => up
  | _ =>
    match x.td with
    | some t =>
      if t.wiped then up
      else
        let s := up.setCtx c { up.ctx c with td := some (t.underL2 forced) }
        if t.kind = .reset && (t.underL2 forced).owner.isNone then s.replyTo t.owner codeBadParam 0 0 0 else s
    | none => (s.finishSample c).beginRemoval c { kind := .level2, owner := none }

/-- An L2 begun. -/
def State.startL2 (s : State) (p : Nat) (owner : Option RingRef) (late : List RingRef) (forced : Bool) : State :=
  let s := s.liftFences p
  let s := forAll ((List.range 8).map (fun i => (⟨p, i⟩ : CtxRef))) (fun s c => s.slotL2 c forced) s
  let keep := s.resets.filter (fun q => !(q.level ≤ 1 && q.part = p))
  let gone := (s.resets.filter (fun q => q.level = 1 && q.part = p)).filterMap (fun q => q.owner)
  { s with resets := keep ++ [{ level := 2, target := 0, part := p, start := s.now, owner := owner, late := late ++ gone }] }

/-- The pending bits of scope-M sources. -/
def maskM : BitVec 512 := evTable.foldl (fun m e => if e.2.2 then putBit m e.1 true else m) 0

/-- A die at the end of an L2: the registers marked Teardown or L2 are wiped (R347, R378). -/
def Die.afterL2 (x : Die) : Die :=
  { evc := { x.evc with pend := x.evc.pend &&& maskM }, ss := x.ss.map (fun e => (e.1, { missAct := e.2.missAct })),
    rst := { x.rst with wdog := [], ctxStat := [], missBits := [], sample := [] } }

/-- A cluster at the end of an L2: wiped, its bank groups ON (R202). DESIGN CHOICE (log entry 41): a BANK_POWER in
progress on a group ends there, and gets no reply. -/
def Cluster.afterL2 (x : Cluster) : Cluster := { x.wiped with g1 := {}, g2 := {} }

/-- A tile at the end of an L2 or L3: a fenced one did not complete its reset. -/
def Tile.afterL2 (x : Tile) : Tile := if x.fenced then x else x.wiped

/-- The answers to the removals that an L2 forced. -/
def State.answerForced (s : State) (c : CtxRef) : State :=
  match (s.ctx c).td with
  | none => s
  | some t =>
    if t.forced = some 2 then
      (s.setCtx c { s.ctx c with td := some { t with owner := none } }).replyTo t.owner codeTimeout 2 0 0
    else s

/-- A slot at the end of an L2: the scrub of a destroyed context's allocation begins. -/
def State.scrubL2 (s : State) (c : CtxRef) : State :=
  let x := s.ctx c
  match x.td with
  | none => s
  | some t => if t.wiped || t.kind ≠ .level2 then s else s.setCtx c { x with td := some { t with wiped := true, due := s.now + s.scrubNs c }, run := {} }

/-- Rings answered with the code of a forced reset and its level (R369). -/
def State.answerLate (s : State) (rs : List RingRef) (level : Nat) : State := forAll rs (fun s r => s.reply r codeTimeout level 0 0) s

/-- The end of an L2. -/
def State.endL2 (s : State) (q : Reset) : State :=
  let p := q.part
  let here (d : Nat) : Bool := partOfDie s.layout d = p
  let s : State := { s with
    tiles := s.tiles.map (fun t => (t.1, if here (dieOfTile t.1) then t.2.afterL2 else t.2)),
    clusters := s.clusters.map (fun e => (e.1, if here (dieOfCid e.1) then e.2.afterL2 else e.2)),
    dies := s.dies.map (fun e => (e.1, if here e.1 then e.2.afterL2 else e.2)),
    flights := s.flights.filter (fun f => f.ctx.part ≠ p), lanes := s.lanes.filter (fun f => f.ctx.part ≠ p) }
  let s := s.closeWins (fun w => w.open_ && bits w.lcxh.toNat 15 14 = p)
  let s := forAll ((List.range 16).filter (fun k => here (dieOfPort k))) (fun s k =>
    (s.portLost k Config.resetCause.toNat).setXch k {}) s
  let slots := (List.range 8).map (fun i => (⟨p, i⟩ : CtxRef))
  let s := forAll slots State.scrubL2 s
  let s := forAll slots State.answerForced s
  (s.replyTo q.owner codeOk 0 0 0).answerLate q.late 2

/-! ### Firmware at boot (R309, R355, R382) -/

/-- Whether an image may run in a life-cycle state. -/
def FwImage.ok (x : FwImage) (lcs : BitVec 2) : Bool := x.valid && (lcs = 0 || x.signed)

/-- The image that BOOT chooses: B where true; none is recovery mode. -/
def bootImage (boot : BitVec 3) (a b : FwImage) (lcs : BitVec 2) : Option Bool :=
  let okA := a.ok lcs
  let okB := b.ok lcs
  match boot.toNat % 4 with
  | 0 => if okA && okB then some (a.version.toNat < b.version.toNat) else if okA then some false else if okB then some true else none
  | 1 => if okA then some false else if okB then some true else none
  | 2 => if okB then some true else if okA then some false else none
  | _ => none

/-- An image in flash. -/
def Plat.setImg (p : Plat) (b : Bool) (x : FwImage) : Plat := if b then { p with fwImgB := x } else { p with fwImgA := x }

/-- The control cores start (R324, R355, R382): recovery sets ATTN.LIFECYCLE, and so does another image than
the one that ran last (log entry 42); one written since it ran last also raises FW_IMAGE_CHANGE. -/
def State.bootFw (s : State) : State :=
  let p := s.plat
  match bootImage p.boot p.fwImgA p.fwImgB s.fuses.lcs with
  | none => ({ s with plat := { p with recovery := true } } : State).setAttnM 6
  | some b =>
    let x := if b then p.fwImgB else p.fwImgA
    let s : State := { s with plat := { p.setImg b { x with fresh := false } with recovery := false, fwB := b } }
    if x.fresh then s.raise 0 evFwImageChange noInfo else if p.recovery || p.fwB != b then s.setAttnM 6 else s

/-! ### L3 (R342, R347, R353, R367, R372, R378, R380) -/

/-- Every ring but those to be answered forgets its command. -/
def State.dropCmds (s : State) (keep : List RingRef) : State :=
  forAll allRings (fun s r => if keep.contains r || (s.ring r).cur.isNone then s else s.setRing r { s.ring r with cur := none }) s

/-- An L3 begun: contexts are destroyed, ports go DOWN with cause CONFIG, the control cores stop. -/
def State.startL3 (s : State) (owner : Option RingRef) (late : List RingRef) (lcs : Option (BitVec 2)) (perst : Bool) : State :=
  let s := (s.dropCmds (owner.toList ++ late)).liftAll
  let s : State := { s with ctxs := s.ctxs.map (fun e => (e.1, { epoch := e.2.epoch })), wins := [], flights := [], lanes := [], freqs := [] }
  let s := s.configDown
  let p := { s.plat with running := false, change := none, cfgBy := none, fwBy := none }
  { s with plat := p, ht := { s.ht with sets := [] },
           resets := [{ level := 3, target := 0, part := 0, start := s.now, owner := owner, late := late, lcs := lcs, perst := perst }] }

/-- The event controller at an L3: the latches stay, and so do records on their way to the log. -/
def Evc.afterL3 (e : Evc) : Evc := { full := e.full, ovf := e.ovf, stamps := e.stamps, infos := e.infos, offers := e.offers }

/-- A die at the end of an L3. -/
def Die.afterL3 (x : Die) : Die := { evc := x.evc.afterL3, rst := { temp := x.rst.temp } }

/-- A port at the end of an L3: its control and training results stay, its counts and buffers are gone, hall
time keeps its record. -/
def Port.afterL3 (x : Port) : Port :=
  { link := { ctl := x.link.ctl, laneOk := x.link.laneOk, cause := x.link.cause, since := x.link.since }, ht := x.ht }

/-- The platform at the end of an L3. -/
def Plat.afterL3 (p : Plat) (now : Nat) : Plat :=
  { p with running := true, envelope := false, hbmUp := false, hbmSr := false, pstate := .idle, idleAt := now, lock := 0 }

/-- The clusters at the end of an L3: their clocks stand, at the step K in force. -/
def clustersAfterL3 (k : Nat) : Sparse Cluster := if k = 16 then [] else (List.range 32).map (fun i => (i, { k := k }))

/-- Everything that an L3 resets (R372, R378). -/
def State.wipeL3 (s : State) : State :=
  let s := if s.cfg.isSome then s.setAttnM 5 else s
  let s := if s.plat.lock ≠ 0 then s.setAttnM 6 else s
  { s with cfg := none, pair := {}, layout := .p1, parts := 1, ctxs := [], clusters := clustersAfterL3 s.plat.k,
           tiles := (s.tiles.filter (fun t => t.2.fenced)).map (fun t => (t.1, { fenced := true })),
           dies := s.dies.map (fun e => (e.1, e.2.afterL3)), ports := s.ports.map (fun e => (e.1, e.2.afterL3)),
           fns := s.fns.map (fun e => (e.1, { e.2 with cursor := s.log.oldest, orphans := [] })), hbm := [], wins := [], resets := [],
           plat := s.plat.afterL3 s.now, log := { s.log with lost := 0 } }

/-- The cursor of every function at OLDEST (R353). -/
def State.cursors (s : State) : State := forAll [0, 1, 2, 3] (fun s f => s.setFn f { s.fn f with cursor := s.log.oldest }) s

/-- The end of an L3: the wipe, the new life-cycle state, the firmware's start and its replies. -/
def State.endL3 (s : State) (q : Reset) : State :=
  let s := s.wipeL3.cursors
  let s : State := match q.lcs with
    | none => s
    | some l => { s with fuses := { s.fuses with lcs := l } }
  let s := s.bootFw
  let s := if q.lcs.isSome then s.raise 0 evLifecycleChange noInfo else s
  (s.replyTo q.owner codeOk 0 0 0).answerLate q.late 3

/-! ### The steps of a reset -/

/-- RESET_COMPLETE (R367): the reset at a place of the list of those in progress ends. An L0 ends by its
drain; an L3 is held while PERST# is low. In STANDBY the control domains stand (R44). -/
def execResetComplete (q : Nat) (s : State) : Res :=
  match s.resets[q]? with
  | none => .next s
  | some x =>
    if x.level ≤ 2 && s.asleep then .next s
    else if x.level = 1 then
      .next ((({ s with resets := s.resets.eraseIdx q } : State).resetEngine x.target).replyTo x.owner codeOk 0 0 0)
    else if x.level = 2 then .next (({ s with resets := s.resets.eraseIdx q } : State).endL2 x)
    else if x.level = 3 && s.plat.powered && s.plat.perst && s.plat.pf && !s.plat.pwrCycle then .next (s.endL3 x)
    else .next s

/-- The budget of a level, ns (R367). -/
def resetBudget (level : Nat) : Nat := if level = 0 then 200000 else if level = 1 then 50000 else if level = 2 then 5000000 else 80000000

/-- A forced reset recorded on a die: RESET_FORCED names its level and the engine that held it (R369, R389). -/
def State.recordForced (s : State) (d level : Nat) (eng : BitVec 16) : State :=
  let x := s.die d
  (s.setDie d { x with rst := { x.rst with forced := satAdd x.rst.forced 1 } }).raise d evResetForced { noInfo with names := [level, eng.toNat] }

/-- The DMA groups and HBM controllers whose drain counter of a handle is not zero. -/
def State.heldDma (s : State) (h : BitVec 16) : List (BitVec 16) :=
  [0, 1, 2, 3].flatMap (fun d =>
    let x := (s.die d).str
    (if x.fly.any (fun f => f.cxh = h) then [engId 2 d 0] else [])
      ++ ((List.range 5).filter (fun k => x.hbmq.any (fun q => q.cxh = h && q.wr && q.stack = 5 * d + k))).map (fun k => engId 4 d k))

/-- The engines that still hold items of a context that is removed (R369, R375). -/
def State.heldEngines (s : State) (c : CtxRef) : List (BitVec 16) :=
  let h := s.oldCxh c
  let tiles := (s.ctx c).tids.filter (fun t => (s.tile t).msgsOut ≠ 0 || s.flights.any (fun f => f.cxh = h && f.src = t))
  tiles.map (fun t => engId 0 (dieOfTile t) (t % 2048))
    ++ s.heldDma h ++ ((List.range 16).filter (fun p => s.drainPort h p ≠ 0)).map (fun p => engId 3 (dieOfPort p) (p % 4))

/-- The rings that wait for removals which a forced L2 of a partition held back. -/
def State.forcedOwners (s : State) (p : Nat) : List RingRef :=
  ((List.range 8).filterMap (fun i => (s.ctx ⟨p, i⟩).td)).filterMap (fun t => if t.forced.isSome && !t.wiped then t.owner else none)

/-- An L0 past its budget: an L1 of each engine that still holds its items. -/
def State.forceL0 (s : State) (c : CtxRef) (t : Td) : State :=
  let es := s.heldEngines c
  let s := (s.setCtx c { s.ctx c with td := some { t with forced := some 1 } }).endL0 c
  let s := match es with
    | [] => s.recordForced (servingDie s.layout c.part) 0 0
    | _ => forAll es (fun s e => s.recordForced (engDie e) 0 e) s
  forAll es (fun s e => s.startL1 e none (some c)) s

/-- An L1 past its budget: an L2 of its partition; a context with a tile that it fenced faults (R370). -/
def State.forceL1 (s : State) (q : Reset) : State :=
  let s := s.recordForced (engDie q.target) 1 q.target
  let s := if engClass q.target = 0 then
      match s.ctxOfTile (engTile q.target) with
      | some c => s.faultCtx c causeFence 0
      | none => s
    else s
  s.startL2 q.part none q.owner.toList true

/-- RESET_BUDGET_EXPIRY (R369). -/
def execResetBudgetExpiry (q : Nat) (s : State) : Res :=
  match s.resets[q]? with
  | none => .next s
  | some x =>
    let rest : State := { s with resets := s.resets.eraseIdx q, free := if x.level = 2 then s.free + 1 else s.free }
    if s.now < x.start + resetBudget x.level || s.asleep then .next s
    else if x.level = 0 then
      match x.ctx with
      | none => .next s
      | some c =>
        match (s.ctx c).td with
        | none => .next s
        | some t => when_ (!t.wiped && t.forced.isNone && !s.drained c) s (s.forceL0 c t)
    else if x.level = 1 then .next (rest.forceL1 x)
    else if x.level = 2 then
      .next ((rest.recordForced (servingDie s.layout x.part) 2 (Config.heldEngine s.free)).startL3 none (x.owner.toList ++ x.late ++ s.forcedOwners x.part) none false)
    else if s.plat.pwrCycle then .next s
    else
      let s := ({ s with free := s.free + 1 } : State).recordForced 0 3 (Config.heldEngine s.free)
      .next { s with plat := { s.plat with pwrCycle := true } }

/-- TILE_FENCE (R370): a tile that has not completed its reset within half the budget of an L2 or L3. -/
def execTileFence (tid : Nat) (s : State) : Res :=
  if !tidOk tid then .fault .noSuchUnit
  else
    let due (q : Reset) : Bool := q.start + resetBudget q.level / 2 ≤ s.now &&
      ((q.level = 2 && q.part = partOfDie s.layout (dieOfTile tid)) || q.level = 3)
    when_ (s.resets.any due && !s.asleep) s (s.setFence tid true)

/-- RESET_ESCALATE (R374). -/
def execResetEscalate (r : RingRef) (w : CmdWords) (s : State) : Res :=
  let level := fld w.w1 2 0
  let lock := if 3 ≤ level && level ≤ 4 then some 8 else none
  hostCmd s r w { op := 0x90, cxh := true, masks := [0xFFFF001F], lock := lock } (fun s =>
    let cxh := BitVec.ofNat 16 (bits w.w0.toNat 31 16)
    let e := BitVec.ofNat 16 (fld w.w1 31 16)
    let p := fld w.w1 4 3
    let bad := s.replyCode r codeBadParam
    if level = 0 then
      match s.checkCxh r.pf cxh with
      | none => bad
      | some c => if s.resetOver 2 0 c.part then s.replyCode r codeBusy else s.removeCtx c .teardown (some r)
    else if cxh ≠ 0 then bad
    else if level = 1 then
      let ep := partOfDie s.layout (engDie e)
      if !engValid e || (r.pf ≠ 0 && ep ≠ r.pf) then bad
      else if s.resetOver 1 e ep then s.replyCode r codeBusy
      else s.startL1 e (some r) none
    else if level = 2 then
      if nParts s.layout ≤ p || (r.pf ≠ 0 && p ≠ r.pf) then bad
      else if s.resetOver 2 0 p then s.replyCode r codeBusy
      else s.startL2 p (some r) [] false
    else if 4 < level || r.pf ≠ 0 then bad
    else if s.plat.pwrCycle then s.replyCode r codeBusy
    else if level = 3 then s.startL3 (some r) [] none false
    else ({ s with plat := { s.plat with pwrCycle := true } } : State).replyCode r codeOk)

end Sys2Proof.Machine
end

