-- ==== Sys2Proof/Machine/Lifecycle.lean ====
section
/-!
DEFINITION. Life cycle, lock bits, firmware images and Function Level Reset (R314, R355, R379 to R382).
-/

namespace Sys2Proof.Machine

/-! ### LIFECYCLE and LOCK (R379 to R381) -/

/-- The transitions of R379. -/
def lcsMay (a b : Nat) : Bool := (a = 0 && b = 1) || (a = 1 && (b = 2 || b = 3)) || (a = 2 && b = 3)

/-- LIFECYCLE (R380). -/
def execLifecycle (r : RingRef) (w : CmdWords) (s : State) : Res :=
  hostCmd s r w { op := 0x70, pf0 := true, masks := [3], lock := some 1 } (fun s =>
    let target := fld w.w1 1 0
    if !lcsMay s.fuses.lcs.toNat target then s.replyCode r codeBadParam
    else if s.anyCtx then s.replyCode r codeBusy
    else s.startL3 (some r) [] (some (BitVec.ofNat 2 target)) false)

/-- Lock bits set; LOCK_CHANGE where one changes (R381). -/
def State.setLocks (s : State) (v : BitVec 9) : State :=
  let next := s.plat.lock ||| v
  if next = s.plat.lock then s
  else ({ s with plat := { s.plat with lock := next } } : State).raise 0 evLockChange noInfo

/-- LOCK (R381). -/
def execLock (r : RingRef) (w : CmdWords) (s : State) : Res :=
  hostCmd s r w { op := 0x71, pf0 := true, masks := [0x1FF] } (fun s =>
    (s.setLocks (BitVec.ofNat 9 (fld w.w1 8 0))).replyCode r codeOk)

/-! ### FW_UPDATE (R355, R382) -/

/-- The image that FW_UPDATE writes: B where true. -/
def State.fwTarget (s : State) : Bool :=
  let p := s.plat
  if p.recovery then
    if !p.fwImgA.ok s.fuses.lcs then false
    else if !p.fwImgB.ok s.fuses.lcs then true
    else Config.recoveryTarget
  else !p.fwB

/-- A header made invalid. -/
def Plat.invalidate (p : Plat) (b : Bool) : Plat :=
  p.setImg b { (if b then p.fwImgB else p.fwImgA) with valid := false }

/-- The parameter checks of FW_UPDATE. -/
def fwParamOk (addr len : Nat) : Bool := addr % 8 = 0 && len % 4096 = 0 && 4096 ≤ len && len ≤ 2 ^ 24

/-- FW_UPDATE (R382): the header of the target is made invalid, and the body is on its way to the flash. -/
def execFwUpdate (r : RingRef) (w : CmdWords) (s : State) : Res :=
  hostCmd s r w { op := 0xF0, pf0 := true, masks := [2 ^ 64 - 1, 0xFFFFFFFF], lock := some 0 } (fun s =>
    let len := fld w.w2 31 0
    if !fwParamOk w.w1.toNat len then s.replyCode r codeBadParam
    else if s.plat.fwBy.isSome then s.replyCode r codeBusy
    else
      let b := s.fwTarget
      { s with plat := { s.plat.invalidate b with fwBy := some (some r, b, mread s.hostMem w.w1.toNat len) } })

/-- Whether the bytes of an image pass the check of R355. -/
def fwCheck (lcs : BitVec 2) (bs : List Byte) : Bool := Config.fwCrcOk bs && (lcs = 0 || Config.fwSigOk bs)

/-- The image that a body makes once its header is written. -/
def fwImage (bs : List Byte) : FwImage := { valid := true, version := Config.fwVersion bs, signed := Config.fwSigOk bs, fresh := true }

/-- FW_UPDATE_COMPLETE (R382): a flash failure, a failed check, or the header written and the reply. -/
def execFwUpdateComplete (flashFail : Bool) (s : State) : Res :=
  match s.plat.fwBy with
  | none => .next s
  | some (r, b, bs) =>
    let s1 : State := { s with plat := { s.plat with fwBy := none } }
    when_ (s.plat.powered && s.plat.pf && !s.asleep) s
      (if flashFail then s1.replyTo r codeTimeout 0 0 0
       else if !fwCheck s.fuses.lcs bs then s1.replyTo r codeBadParam 0 0 0
       else
         let s2 : State := { s1 with plat := s1.plat.setImg b (fwImage bs) }
         s2.replyTo r codeOk ((Config.fwVersion bs).toNat + at_ 32 (b1 b)) 0 0)

/-! ### FUNCTION_LEVEL_RESET (R314, R316) -/

/-- A reference to a ring of a function forgotten. -/
def dropPf (f : Nat) (r : Option RingRef) : Option RingRef :=
  match r with
  | none => none
  | some x => if x.pf = f then none else some x

/-- The waiting replies of a function forgotten in the platform. -/
def Plat.dropPf (p : Plat) (f : Nat) : Plat :=
  { p with cfgBy := p.cfgBy.map (fun q => (Machine.dropPf f q.1, q.2)),
           fwBy := p.fwBy.map (fun q => (Machine.dropPf f q.1, q.2)),
           change := p.change.map (fun q => { q with owner := Machine.dropPf f q.owner }) }

def Bank.dropPf (b : Bank) (f : Nat) : Bank := { b with owner := Machine.dropPf f b.owner }

def Cluster.dropPf (x : Cluster) (f : Nat) : Cluster := { x with g1 := x.g1.dropPf f, g2 := x.g2.dropPf f }

def Reset.dropPf (q : Reset) (f : Nat) : Reset :=
  { q with owner := Machine.dropPf f q.owner, late := q.late.filter (fun r => r.pf ≠ f) }

def Ctx.dropPf (x : Ctx) (f : Nat) : Ctx :=
  { x with td := x.td.map (fun t => { t with owner := Machine.dropPf f t.owner }),
           sampleBy := x.sampleBy.map (fun q => (Machine.dropPf f q.1, q.2)),
           run := { x.run with haltBy := x.run.haltBy.filter (fun r => r.pf ≠ f) } }

def FlagReq.dropPf (q : FlagReq) (f : Nat) : FlagReq := { q with owner := Machine.dropPf f q.owner }

def HallTime.dropPf (h : HallTime) (f : Nat) : HallTime :=
  { h with sets := h.sets.map (fun q => (Machine.dropPf f q.1, q.2)) }

/-- No reply is written any more for a command of a function that is in progress. -/
def State.dropReplies (s : State) (f : Nat) : State :=
  { s with plat := s.plat.dropPf f, ht := s.ht.dropPf f,
           clusters := s.clusters.map (fun e => (e.1, e.2.dropPf f)),
           ctxs := s.ctxs.map (fun e => (e.1, e.2.dropPf f)),
           resets := s.resets.map (fun q => q.dropPf f),
           freqs := s.freqs.map (fun q => q.dropPf f) }

/-- The DMA_HOSTs on physical addresses that are in progress on a function's rings. -/
def State.physCmds (s : State) (f : Nat) : List CmdWords :=
  (List.range 16).filterMap (fun r =>
    match (s.ring ⟨f, r⟩).cur with
    | none => none
    | some k => if k.op = 0x30 && (dmaCmd k.w).phys then some k.w else none)

/-- DMA_HOSTs of a function on physical addresses moved to their end. -/
def State.movePhys (s : State) (f : Nat) (ws : List CmdWords) : State :=
  forAll ws (fun s w => let q := dmaCmd w; (s.dmaMove f none q.toHost q.haddr q.daddr (q.len / 32)).1) s

/-- The DMA_HOSTs of a function on physical addresses run to their end inside the module: in STANDBY (R44) after
the wake, and with PF# low (R384) not before the L3. -/
def State.finishPhys (s : State) (f : Nat) : State :=
  if s.asleep || !s.plat.pf then s.setFn f { s.fn f with orphans := (s.fn f).orphans ++ s.physCmds f }
  else s.movePhys f (s.physCmds f)

/-- What a Function Level Reset in STANDBY left to do: its transfers, and its first teardown (R44, R314). -/
def State.afterSleep (s : State) (f : Nat) : State :=
  let ws := (s.fn f).orphans
  ((s.setFn f { s.fn f with orphans := [] }).movePhys f ws).nextFlr f

/-- A function whose BAR2 registers are at their reset values (R314): what is not BAR2 stays. -/
def Fn.bar2Reset (x : Fn) : Fn :=
  { d3 := x.d3, pmeEn := x.pmeEn, ringErr := x.ringErr, taken := x.taken, flrs := x.flrs, cursor := x.cursor, his := x.his, turn := x.turn,
    orphans := x.orphans }

/-- A function after its FLR. -/
def Fn.flr (x : Fn) : Fn := { x.bar2Reset with ringErr := 0, flrs := satAdd x.flrs 1 }

/-- The contexts of a partition that hold their slots. -/
def State.ctxsOf (s : State) (p : Nat) : List CtxRef :=
  ((List.range 8).map (fun i => (⟨p, i⟩ : CtxRef))).filter (fun c => (s.ctx c).st != .free && (s.ctx c).st != .tearing)

/-- A context slot at a Function Level Reset of its partition (R314): its teardown waits for its turn; a
context reset that has begun becomes its teardown. -/
def Ctx.underFlr (x : Ctx) : Ctx :=
  if x.st = .free then x
  else if x.st = .tearing then
    { x with td := x.td.map (fun t => if t.kind = .reset then { t with kind := .flr } else t) }
  else { x with flr := true }

/-- FUNCTION_LEVEL_RESET (R314). -/
def execFunctionLevelReset (pf : Nat) (s : State) : Res :=
  if !pfOk pf then .fault .noSuchUnit
  else when_ s.hostUp s
    (let s := (s.finishPhys pf).dropReplies pf
     let s := s.setFn pf (s.fn pf).flr
     let s := forAll ((List.range 8).map (fun i => (⟨pf, i⟩ : CtxRef))) (fun s c => s.setCtx c (s.ctx c).underFlr) s
     if s.asleep then s else s.nextFlr pf)

end Sys2Proof.Machine
end

