-- ==== Sys2Proof/Machine/Mgmt.lean ====
section
/-!
DEFINITION. The lands for which the opcode table has no row: the test access port, the management bus, and the
PCIe link's training (R304, R308, R310 to R312, R316, R379, R381). The idle step takes their events (log entry
55). -/

namespace Sys2Proof.Machine

/-! ### The TAP controller (R308, R311, IEEE 1149.1) -/

/-- The next state at a rising edge of TCK. -/
def TapSt.next (st : TapSt) (tms : Bool) : TapSt :=
  match st with
  | .reset => if tms then .reset else .idle
  | .idle => if tms then .selDr else .idle
  | .selDr => if tms then .selIr else .capDr
  | .capDr => if tms then .ex1Dr else .shDr
  | .shDr => if tms then .ex1Dr else .shDr
  | .ex1Dr => if tms then .upDr else .pauDr
  | .pauDr => if tms then .ex2Dr else .pauDr
  | .ex2Dr => if tms then .upDr else .shDr
  | .upDr => if tms then .selDr else .idle
  | .selIr => if tms then .reset else .capIr
  | .capIr => if tms then .ex1Ir else .shIr
  | .shIr => if tms then .ex1Ir else .shIr
  | .ex1Ir => if tms then .upIr else .pauIr
  | .pauIr => if tms then .ex2Ir else .pauIr
  | .ex2Ir => if tms then .upIr else .shIr
  | .upIr => if tms then .selDr else .idle

/-- A number as bits, the lowest first: the bit that leaves first. -/
def bitsOf : Nat → Nat → List Bool
  | 0, _ => []
  | n + 1, v => (v % 2 = 1) :: bitsOf n (v / 2)

/-- The IDCODE word (R311). -/
def State.idcode (s : State) : Nat :=
  1 + at_ 1 Config.jedecCode.toNat + at_ 12 s.grade + at_ 28 (if s.fuses.stepping = 0xB0 then 2 else 1)

/-- The lands of the boundary-scan register, in the order of R304: HT_PPS_IN, HT_PPS_OUT, PERST#, PF#,
PWR_CYCLE_REQ#, THERM#, I3C_SCL, I3C_SDA, I3C_ADDR[2:0], BOOT[2:0] (R311; DESIGN CHOICE, log entry 61). -/
def bsrLen : Nat := 14

/-- The level that the module drives or reads on a boundary land; a free value where State does not hold it. -/
def State.land (s : State) (n : Nat) : Bool :=
  if n = 1 then s.ht.ppsOut
  else if n = 2 then s.plat.perst
  else if n = 3 then s.plat.pf
  else if n = 4 then !s.plat.pwrCycle
  else if n = 5 then !s.plat.therm
  else if 8 ≤ n && n < 11 then s.plat.straps.getLsbD (n - 8)
  else Config.landLevel s.free n

/-- What an output land shows (R308, R311): the module's own level, or under EXTEST the latch of its boundary cell. -/
def State.landOut (s : State) (n : Nat) : Bool :=
  match s.tap.ir with
  | .extest => s.tap.bsr.getD n false
  | .bypass => s.land n
  | .idcode => s.land n
  | .sample => s.land n
  | .debug => s.land n

/-- The instruction that a code selects: one of R311, or a debug instruction, which acts as BYPASS where it is
refused or locked (R379, R381). All ones is BYPASS. -/
def State.tapInstr (s : State) (code : List Bool) : TapIr :=
  if code.all id then .bypass
  else
    match (Config.tapCode code).toNat with
    | 0 => .bypass
    | 1 => .idcode
    | 2 => .sample
    | 3 => .extest
    | _ => if s.fuses.lcs = 2 || s.plat.lock.getLsbD 6 then .bypass else .debug

/-- What Capture-DR loads: a 0 for BYPASS, IDCODE, the lands for the boundary-scan register, a free value for
a debug instruction. -/
def State.captureDr (s : State) : List Bool :=
  match s.tap.ir with
  | .bypass => [false]
  | .idcode => bitsOf 32 s.idcode
  | .sample => (List.range bsrLen).map s.land
  | .extest => (List.range bsrLen).map s.land
  | .debug => Config.debugReg s.free

/-- The length of the instruction register, at least two bits. -/
def irBits : Nat := max 2 Config.irLen

/-- A shift path after one shift towards TDO. -/
def shiftIn (xs : List Bool) (tdi : Bool) : List Bool := xs.drop 1 ++ [tdi]

/-- The TAP after an edge that leaves a state: Capture, Shift and Update act in the state left. -/
def State.tapAct (s : State) (tdi : Bool) : Tap :=
  let x := s.tap
  match x.st with
  | .reset => { x with ir := .idcode }
  | .capDr => { x with drSh := s.captureDr }
  | .shDr => { x with drSh := shiftIn x.drSh tdi }
  | .upDr => (match x.ir with
    | .sample => { x with bsr := x.drSh }
    | .extest => { x with bsr := x.drSh }
    | .bypass => x
    | .idcode => x
    | .debug => x)
  | .capIr => { x with irSh := [true] ++ List.replicate (irBits - 1) false }
  | .shIr => { x with irSh := shiftIn x.irSh tdi }
  | .upIr => { x with ir := s.tapInstr x.irSh }
  | .idle => x
  | .selDr => x
  | .ex1Dr => x
  | .pauDr => x
  | .ex2Dr => x
  | .selIr => x
  | .ex1Ir => x
  | .pauIr => x
  | .ex2Ir => x

/-- The bit that TDO shows in a state: the one nearest TDO while shifting. -/
def Tap.out (x : Tap) : Option Bool :=
  match x.st with
  | .shDr => x.drSh.head?
  | .shIr => x.irSh.head?
  | _ => none

/-- A rising edge of TCK (R311). TRST# low holds the TAP in reset (R308). -/
def State.tck (s : State) (tms tdi : Bool) : State :=
  if s.tap.trst then s
  else
    let y := s.tapAct tdi
    let st := s.tap.st.next tms
    let y : Tap := { y with st := st, ir := if st = .reset then .idcode else y.ir }
    let y : Tap := { y with tdo := y.out }
    let s : State := { s with tap := y, free := s.free + 1 }
    match y.tdo with
    | none => s
    | some b => s.emit (.tdo b)

/-- TRST# (R308): low resets the TAP and holds it. -/
def State.setTrst (s : State) (low : Bool) : State :=
  { s with tap := if low then { s.tap with st := .reset, trst := true, ir := .idcode, tdo := none } else { s.tap with trst := false } }

/-! ### The management bus (R308, R310) -/

/-- The addresses at which the bus target answers: its static one and a dynamic one assigned. -/
def State.i3cMine (s : State) (a : BitVec 7) : Bool := a = 0x30#7 + s.plat.straps.zeroExtend 7 || s.i3cDyn = some a

/-- The hottest of the die junctions that PWR_STAT reports. -/
def State.hotTemp (s : State) : Int :=
  [1, 2, 3].foldl (fun m d => max m (s.die d).rst.temp.toInt) (s.die 0).rst.temp.toInt

/-- Ports in UP, a bit each. -/
def State.portsUp (s : State) : Nat := ((List.range 16).map (fun p => at_ p (b1 (s.port p).isUp))).sum

/-- A management register (R310); the power is the reading of the last control step. Other offsets read 0
(DESIGN CHOICE, log entry 61). -/
def State.mgmt (s : State) (off : Nat) : Nat :=
  if off = 0x00 then s.grade + at_ 16 s.fuses.stepping.toNat
  else if off = 0x04 then (match s.plat.pstate with | .active => 0 | .idle => 1 | .standby => 2) + at_ 2 s.fuses.lcs.toNat
  else if off = 0x08 then (s.hotTemp % 256).toNat
  else if off = 0x0C then s.plat.power % 2 ^ 16
  else if off = 0x10 then s.portsUp
  else 0

/-! ### The PCIe link (R312, R316) -/

/-- The link as a training leaves it: 1 to 6 for 2.5 to 64 GT/s, one of five widths, flit mode at 64 GT/s. -/
def pcieTrained (rate width : Nat) : W32 :=
  let r := 1 + rate % 6
  BitVec.ofNat 32 (r + at_ 4 (2 ^ (width % 5)) + at_ 9 (b1 (r = 6)))

/-- A link that has power, is not in reset and is not down for good trains as the partner and the channel
allow, which is a free value. -/
def State.trainPcie (s : State) : State :=
  let p := s.plat
  if p.powered && p.perst && !p.pcie.off && bits p.pcie.stat.toNat 3 0 = 0 then
    { s with plat := { p with pcie := { p.pcie with stat := pcieTrained (Config.pcieRate s.free) (Config.pcieWidth s.free) } }, free := s.free + 1 }
  else s

/-- A saturating count in 16 bits of HST_PCIERR. -/
def pcieCount (e : W32) (lo : Nat) : W32 := setBits e (lo + 15) lo (min 0xFFFF (bits e.toNat (lo + 15) lo + 1))

/-! ### Events on these lands -/

/-- An event on a land (log entry 55). The management bus accepts no write (R310). Without power there are none. -/
def State.pinEvent (s : State) (e : PinEv) : State :=
  let p := s.plat
  match e with
  | .tck tms tdi => s.tck tms tdi
  | .trst low => s.setTrst low
  | .i3cRead a off => if s.i3cMine a then s.emit (.i3c off (BitVec.ofNat 32 (s.mgmt off))) else s
  | .i3cWrite _ _ _ => s
  | .i3cDyn a => { s with i3cDyn := a }
  | .pcieLink rate width => { s with plat := { p with pcie := { p.pcie with stat := pcieTrained rate.toNat width.toNat } } }
  | .pcieRetrain => { s with plat := { p with pcie := { p.pcie with errs := pcieCount p.pcie.errs 0 } } }
  | .pcieCorr => { s with plat := { p with pcie := { p.pcie with errs := pcieCount p.pcie.errs 16 } } }

/-- The oldest event that waits on a land. -/
def State.takePin (s : State) : State :=
  match s.pins with
  | [] => s
  | e :: es => ({ s with pins := es } : State).pinEvent e

end Sys2Proof.Machine
end

