-- ==== Sys2Proof/Machine/Tick.lean ====
section
/-!
DEFINITION. One nanosecond: what passes by itself on an empty queue (log entries 1, 55 and 57).
-/

namespace Sys2Proof.Machine

/-- A count of 1/80 cycles as whole cycles and the rest. -/
def cycles (ph : Nat) : Nat × Nat := (ph / 80, ph % 80)

/-- A cluster that waits for a feed-window boundary to change its mode (R124, R359). -/
def Cluster.turn (x : Cluster) : Cluster :=
  match x.toMode with
  | none => x
  | some e => if x.boundary then x.setMode e else x

/-- A cluster after 1 ns (R44, R124, R147, R360): its clocks at K ÷ 16 of 1.6 and 1.0 GHz, or of 1.4 and 0.8 GHz. -/
def Cluster.tick (x : Cluster) : Cluster :=
  match x.clk with
  | .running =>
    let t := cycles (x.tilePh + (if x.envelope then 7 else 8) * x.k)
    let c := cycles (x.cloverPh + (if x.envelope then 4 else 5) * x.k)
    { x with tileCyc := x.tileCyc + t.1, tilePh := t.2, cyc := x.cyc + c.1, cloverPh := c.2, cycReg := x.cycReg + BitVec.ofNat 64 c.1 }
  | .stopped => x
  | .starting => x
  | .gating => x

/-- A table entry of a cluster after 1 ns. -/
def Cluster.tickEntry (e : Nat × Cluster) : Nat × Cluster := (e.1, e.2.turn.tick)

/-- A die after a throttled microsecond (R390). -/
def Die.throttled (x : Die) : Die := { x with rst := { x.rst with thrUs := satAdd x.rst.thrUs 1 } }

/-- The throttle time (R390). -/
def State.tickThrottle (s : State) : State :=
  if s.plat.k < 16 then
    if s.plat.thrNs + 1 < 1000 then { s with plat := { s.plat with thrNs := s.plat.thrNs + 1 } }
    else forAll [0, 1, 2, 3] (fun s d => s.setDie d (s.die d).throttled) { s with plat := { s.plat with thrNs := 0 } }
  else s

/-- A demand of R357: a RUNNING context, a command in progress, slot traffic. -/
def State.busy (s : State) : Bool :=
  s.ctxs.any (fun e => e.2.st = .running) || allRings.any (fun r => (s.ring r).cur.isSome)
    || s.ports.any (fun e => !e.2.tx.buf.isEmpty)

/-- The DMA units in flight of a die that end in a nanosecond: the oldest one, as a free value says. -/
def State.tickFly (s : State) (d : Nat) : State :=
  let x := (s.die d).str
  if !s.hbmOn || x.fly.isEmpty then s
  else
    let u : State := { s with free := s.free + 1 }
    if Config.dmaDone s.free then u.setDie d { s.die d with str := { x with fly := x.fly.tail } } else u

/-- The requests in the queue of a stack's controller that complete in a nanosecond: the oldest one, as a free value
says. The controller's monitor begins anew with each (R365). -/
def State.tickHbm (s : State) (st : Nat) : State :=
  let x := (s.die (st / 5)).str
  if !s.hbmOn || !x.hbmq.any (fun q => q.stack = st) then s
  else
    let u : State := { s with free := s.free + 1 }
    if Config.dmaDone s.free then
      u.setDie (st / 5) { s.die (st / 5) with str := { x with
        hbmq := x.hbmq.eraseP (fun q => q.stack = st), hbmAt := sdrop (fun k => k = st % 5) x.hbmAt } }
    else u

/-- The misses of the nanosecond that ends, with MISS_ACT = 1 (R60). -/
def State.endNs (s : State) : State :=
  forAll (allCtx.filter (fun c => !(s.ctx c).run.instant.isEmpty)) State.endInstant s

/-- What a nanosecond of HT brings: the symbols that wait leave (R242), the monitors and the clocks go on,
units in flight complete, and a bank group that switches off past its limit is noted (R201). -/
def State.pass (s : State) : State :=
  let s := forAll (List.range 16) State.flushSyms s
  let s := s.endNs.monitors.banksLate
  let s := forAll (List.range 20) State.tickHbm (forAll [0, 1, 2, 3] State.tickFly s)
  { s with ht := { s.ht with now := s.ht.now + 1 }, clusters := s.clusters.map Cluster.tickEntry }

/-- The block idles for one nanosecond of HT, and an event on a land is taken; without power nothing passes. -/
def tick (s : State) : State :=
  if s.plat.powered then
    let s := s.pass
    let s := if s.busy then s.touch else s
    s.tickThrottle.pmeAckIfDone.trainPcie.takePin
  else s

end Sys2Proof.Machine
end

