-- ==== Sys2Proof/Machine/Power.lean ====
section
/-!
DEFINITION. Power mode, throttle and trip, power states, reset pins, power-up and power loss (R301, R308,
R309, R354, R356 to R361, R384 to R387). -/

namespace Sys2Proof.Machine

/-! ### POWER_MODE (R359) -/

/-- Whether a context runs on a cluster. -/
def State.runsOn (s : State) (cid : Nat) : Bool :=
  match s.ctxOfCid cid with
  | none => false
  | some c => (s.ctx c).st = .running

/-- POWER_MODE (R359): clusters without a RUNNING context change at once. -/
def execPowerMode (r : RingRef) (w : CmdWords) (s : State) : Res :=
  hostCmd s r w { op := 0x60, pf0 := true, needC := true, masks := [1], lock := some 4 } (fun s =>
    let env := w.w1.getLsbD 0
    if s.plat.change.isSome then s.replyCode r codeBusy
    else if s.plat.envelope = env then s.replyCode r codeOk
    else
      let s : State := { s with plat := { s.plat with change := some { envelope := env, owner := some r, since := s.now } } }
      forAll ((List.range 32).filter (fun i => !s.runsOn i)) State.followMode s)

/-- A step K set on the module: THROTTLE is raised when it leaves 16 and when it returns (R360). -/
def State.setK (s : State) (k : Nat) : State :=
  let edge : Bool := (s.plat.k = 16) != (k = 16)
  let s : State := { s with plat := { s.plat with k := k } }
  if edge then s.raise 0 evThrottle noInfo else s

/-- POWER_MODE_COMPLETE (R359): every cluster has changed. A cluster that has come to run nothing is told to
change. -/
def execPowerModeComplete (s : State) : Res :=
  match s.plat.change with
  | none => .next s
  | some q =>
    let t := forAll ((List.range 32).filter (fun i => !s.runsOn i)) State.followMode s
    let done : Bool := (List.range 32).all (fun i => (t.cluster i).envelope = q.envelope)
    if !s.controlRuns then .next s
    else if !done then .next t
    else .next (let s : State := t
       let s : State := { s with plat := { s.plat with envelope := q.envelope, change := none } }
       (s.setK (max s.plat.k (kFloor q.envelope))).replyTo q.owner codeOk 0 0 0)

/-! ### Throttle and trip (R308, R360, R361) -/

/-- The power limit, W (R3, R9): the lower of two while a change is in progress (R359). -/
def State.powerLimit (s : State) : Nat := if s.plat.envelope || s.plat.change.isSome then 1500 else 1800

/-- The hottest junction, °C. -/
def hottest (t : Temps) : Int := max (max t.d0.toInt t.d1.toInt) (max t.d2.toInt t.d3.toInt)

/-- The junction temperature of a die. -/
def tempOf (t : Temps) (d : Nat) : BitVec 8 := if d = 0 then t.d0 else if d = 1 then t.d1 else if d = 2 then t.d2 else t.d3

/-- The temperatures that PWR_STAT reports. -/
def State.setTemps (s : State) (t : Temps) : State :=
  forAll [0, 1, 2, 3] (fun s d => s.setDie d { s.die d with rst := { (s.die d).rst with temp := tempOf t d } }) s

/-- THERM# (R308, R324): low at 110 °C; a change sets ATTN.THERMAL, and its fall is the edge of THERM_HOT. -/
def State.setTherm (s : State) (t : Temps) : State :=
  let low : Bool := 110 ≤ hottest t
  if low = s.plat.therm then s
  else
    let s := ({ s with plat := { s.plat with therm := low } } : State).setAttnM 3
    if low then s.raise 0 evThermHot noInfo else s

/-- The step K that a control step asks for (R360). -/
def nextK (k floor : Nat) (temp : Int) (power limit : Nat) : Nat :=
  if 100 ≤ temp || limit < power then max floor (k - 1)
  else if temp ≤ 95 && 100 * power ≤ 95 * limit then min 16 (k + 1)
  else k

/-- Control steps in a row with K at the floor and the power above 1.05 × the limit (R361). -/
def nextOver (n k floor power limit : Nat) : Nat := if k = floor && 105 * limit < 100 * power then n + 1 else 0

/-- A cluster whose fast clocks are stopped from outside; a start under way is asked for again. -/
def Cluster.stopClock (x : Cluster) (now : Nat) : Cluster :=
  match x.clk with
  | .stopped => x
  | .starting => { x with clk := .stopped, want := true, since := now }
  | .running => { x with clk := .stopped, since := now }
  | .gating => { x with clk := .stopped, since := now }

/-- Every cluster's fast clocks stopped. -/
def State.stopClocks (s : State) : State := { s with clusters := s.clusters.map (fun e => (e.1, e.2.stopClock s.now)) }

/-- A trip (R361, R390). -/
def State.trip (s : State) (byPower : Bool) : State :=
  let s := forAll (allCtx.filter (fun c => (s.ctx c).st = .running)) (fun s c => s.faultCtx c causeTrip 0) s
  let s := s.stopClocks
  let s : State := { s with plat := { s.plat with trip := true, tripPower := byPower, tripAt := s.now, overCnt := 0 } }
  forAll [0, 1, 2, 3] (fun s d => s.setDie d { s.die d with rst := { (s.die d).rst with trips := satAdd (s.die d).rst.trips 1 } }) s

/-- The control step of the power controller: K, and a trip. -/
def State.throttle (s : State) (t : Temps) (power : Nat) : State :=
  let p := s.plat
  let floor := kFloor p.envelope
  let limit := s.powerLimit
  let n := nextOver p.overCnt p.k floor power limit
  let s : State := { s with plat := { p with overCnt := n } }
  if 120 ≤ hottest t then s.trip false
  else if 10 ≤ n then s.trip true
  else s.setK (nextK p.k floor (hottest t) power limit)

/-- THROTTLE_STEP (R308, R360, R361): the junctions and the power as the controller reads them, every 100 µs. -/
def execThrottleStep (t : Temps) (power : Nat) (s : State) : Res :=
  if s.plat.powered && s.plat.stepAt + 100000 ≤ s.now then
    let s : State := { s with plat := { s.plat with stepAt := s.now, power := power } }
    let s := (s.setTemps t).setTherm t
    .next (if s.controlRuns && s.plat.pf && !s.plat.trip then s.throttle t power else s)
  else .next s

/-- THROTTLE_APPLY (R124, R125, R262, R360): a cluster takes K at a feed-window boundary, at or above the
floor of its mode. -/
def execThrottleApply (cid : Nat) (s : State) : Res :=
  if !cidOk cid then .fault .noSuchUnit
  else
    let x := s.cluster cid
    when_ (x.cyc % 16 = 0 && !s.asleep) s (s.setCluster cid { x with k := max s.plat.k (kFloor x.envelope) })

/-- TRIP_CLEAR (R361): at 100 °C or below, or 10 ms after a trip by power alone. -/
def execTripClear (t : Temps) (s : State) : Res :=
  let due : Bool := hottest t ≤ 100 || (s.plat.tripPower && s.plat.tripAt + 10000000 ≤ s.now)
  when_ (s.plat.powered && s.plat.pf && s.plat.trip && due && !s.asleep) s
    (let s := (s.setTemps t).setTherm t
     let s : State := { s with plat := { s.plat with trip := false, overCnt := 0 } }
     let s := s.setK (kFloor s.plat.envelope)
     { s with clusters := s.clusters.map (fun e => (e.1, e.2.startWaiting s.now)) })

/-! ### Power states (R357, R358, R387) -/

/-- IDLE_ENTRY (R44, R357): 1 ms without a demand; the clusters that nothing asks for are gated, and trained
HBM goes into self-refresh. -/
def execIdleEntry (s : State) : Res :=
  when_ (s.controlRuns && s.plat.pstate = .active && !s.busy && s.plat.idleAt + 1000000 ≤ s.now) s
    (let s := forAll ((List.range 32).filter (fun i => (s.cluster i).clk = .running && !s.hasDemand i))
       (fun s i => s.setCluster i { s.cluster i with clk := .gating, since := s.now }) s
     { s with plat := { s.plat with pstate := .idle, hbmSr := s.plat.hbmUp } })

/-- The open page and one being programmed committed (R357, R387). -/
def State.commitLog (s : State) : State :=
  if s.log.open_ = 0 && s.log.prog.isNone then s
  else { s with log := { s.log.committed (s.log.next - 1).toNat with open_ := 0, filled := false } }

/-- Records that wait for the arbiter. -/
def State.offered (s : State) : Nat := ([0, 1, 2, 3].map (fun d => (s.die d).evc.offers.length)).sum

/-- Every record offered appended, a full page committed first; then the open page committed. -/
def State.settleLog (s : State) : State :=
  (forAll (List.range (s.offered + 1)) (fun s _ => (if s.log.open_ = pageRecs then s.commitLog else s).logStep (s.now + 1)) s).commitLog

/-- Hall time in HOLDOVER (R237, R357). -/
def State.holdover (s : State) : State :=
  match s.ht.st with
  | .free => s
  | _ => s.setHt { s.ht with st := .holdover }

/-- STANDBY_ENTRY (R357, R387): ports DOWN, hall time in holdover, the log committed. -/
def execStandbyEntry (s : State) : Res :=
  let off : Bool := [0, 1, 2, 3].all (fun f => (s.fn f).d3) && !s.ctxs.any (fun e => e.2.st = .running)
  when_ (s.controlRuns && s.plat.pf && off) s
    (let s := forAll (List.range 16) (fun s p => s.portDown p Config.standbyCause.toNat) s
     let s := (s.holdover.settleLog).stopClocks
     { s with plat := { s.plat with pstate := .standby, hbmSr := s.plat.hbmUp } })

/-- The control domains run again (R44, R46, R358): HBM leaves self-refresh, clusters that were asked for
start, the ports retrain under R296, and what Function Level Resets left to do is done. -/
def State.wake (s : State) : State :=
  let s : State := { s with plat := { s.plat with pstate := .active, idleAt := s.now, hbmSr := false } }
  let s : State := if s.barred then s else { s with clusters := s.clusters.map (fun e => (e.1, e.2.startWaiting s.now)) }
  let s := forAll (List.range 16) (fun s p => s.portTry p false) s
  forAll [0, 1, 2, 3] State.afterSleep s

/-- STANDBY_WAKE (R357, R358): a function in D0, or a latched edge of PERST_EDGE or THERM_HOT. -/
def execStandbyWake (s : State) : Res :=
  let d0 : Bool := [0, 1, 2, 3].any (fun f => !(s.fn f).d3)
  let edge : Bool := [0, 1, 2, 3].any (fun d => (s.die d).evc.full.getLsbD 1 || (s.die d).evc.full.getLsbD 2)
  when_ (s.plat.powered && s.plat.pf && s.plat.pstate = .standby && (d0 || edge)) s s.wake

/-! ### PERST# (R316, R356) -/

/-- A function whose BAR2 state and HST registers a PERST# resets; its cursor and its high-word latch are not
of these. -/
def Fn.perst (x : Fn) : Fn := { cursor := x.cursor, his := x.his }

/-- PERST_EDGE (R356): PCIe and the BAR2 state of every function are reset, and an L3 begins. -/
def execPerstEdge (s : State) : Res :=
  when_ (s.plat.powered && s.plat.perst) s
    (let s := s.raise 0 evPerstEdge noInfo
     let s := forAll [0, 1, 2, 3] (fun s f => (s.dropReplies f).setFn f (s.fn f).perst) s
     let s : State := { s with plat := { s.plat with perst := false, pcie := {} } }
     s.startL3 none [] none true)

/-- PERST_RISE (R356): the L3 is no longer held. -/
def execPerstRise (s : State) : Res :=
  when_ (s.plat.powered && !s.plat.perst) s { s with plat := { s.plat with perst := true } }

/-! ### Power loss (R301, R384 to R387) -/

/-- GOING_AWAY twice on every port that carries traffic, before its transmitters go idle (R242, R301). -/
def State.goingAway (s : State) : State :=
  forAll ((List.range 16).filter (fun p => (s.port p).live))
    (fun s p => ((s.sendSym p (symWord tyGoing s.hdid.toNat)).sendSym p (symWord tyGoing s.hdid.toNat)).flushSyms p) s

/-- POWER_FAIL (R384, R387): in STANDBY the edge is only latched. -/
def execPowerFail (s : State) : Res :=
  when_ (s.plat.powered && s.plat.pf) s
    (let s := s.raise 0 evPowerFail noInfo
     let s := if s.plat.pstate = .standby then s else s.goingAway.stopClocks
     { s with plat := { s.plat with pf := false, pfAt := s.now, fwBy := none } })

/-- The latched POWER_FAIL passed to the event controller of every die and logged (R346, R387). -/
def State.logPowerFail (s : State) : State :=
  let s := forAll [0, 1, 2, 3] (fun s d => if (s.die d).evc.full.getLsbD 0 then s.passLatch d 0 else s) s
  forAll (List.range s.offered) (fun s _ => s.logStep (s.now + 1)) s

/-- PF_RISE (R351, R386, R387): a page that waits is programmed again; all volatile state counts as lost: an
L3. In STANDBY the control domains wake first, and the latched edge is logged. -/
def execPfRise (s : State) : Res :=
  when_ (s.plat.powered && !s.plat.pf) s
    (let s : State := { s with plat := { s.plat with pf := true } }
     let s := s.progIfDue
     let s := if s.asleep then ({ s with plat := { s.plat with pstate := .active, idleAt := s.now } } : State).logPowerFail else s
     s.startL3 none [] none false)

/-- The log after a loss of power (R385): a page in progress is complete, the open page is lost. -/
def Log.afterLoss (l : Log) : Log :=
  let l := match l.prog with
    | none => l
    | some (n, _) => l.committed n
  { next := l.commit + 1, recs := l.recs.filter (fun x => x.lseq.toNat < (l.commit + 1).toNat), commit := l.commit }

/-- What is left without power (R385): flash and fuses, and the image that ran last (log entry 42). The pins are
low. -/
def Plat.afterLoss (p : Plat) : Plat :=
  { powered := false, running := false, perst := false, pf := p.pf, fwImgA := p.fwImgA, fwImgB := p.fwImgB, fwB := p.fwB, recovery := p.recovery, straps := p.straps }

/-- RAIL_LOSS (R385): everything volatile is gone. -/
def execRailLoss (s : State) : Res :=
  when_ s.plat.powered s
    { pending := s.pending, plat := s.plat.afterLoss, fuses := s.fuses, log := s.log.afterLoss,
      hostMem := s.hostMem, outs := s.outs, free := s.free, pins := s.pins }

/-! ### Power-up (R309, R354) -/

/-- BOOT_SAMPLE (R309): ignored at every other time; BOOT[2] counts only in BLANK. -/
def execBootSample (boot : BitVec 3) (s : State) : Res :=
  let b := if s.fuses.lcs = 0 then boot else boot &&& 3#3
  when_ (!s.plat.powered) s { s with plat := { s.plat with boot := b } }

/-- POWER_UP (R354): the steps of its table, PERST# high at their end. -/
def execPowerUp (s : State) : Res :=
  when_ (!s.plat.powered) s
    (let s : State := { s with plat := { s.plat with powered := true, running := true, perst := true, pf := true } }
     s.cursors.bootFw)

end Sys2Proof.Machine
end

