-- ==== Sys2Proof/Machine/Pcie.lean ====
section
/-!
DEFINITION. MSI-X moderation and PCIe power states (R333 to R335).
-/

namespace Sys2Proof.Machine

/-- A vector of a function. -/
def vecOk (pf vec : Nat) : Bool := pfOk pf && vec < 512

/-- MSIX_MODERATION_TIMEOUT (R334): t1 + TIME has come. -/
def execMsixModerationTimeout (pf vec : Nat) (s : State) : Res :=
  if !vecOk pf vec then .fault .noSuchUnit
  else
    let v := (s.fn pf).vec vec
    let due : Bool := match v.t1 with | none => false | some t => t + v.timeNs ≤ s.now
    when_ (s.hostUp && 0 < v.n && due) s (s.fireVec pf vec)

/-- A vector unmasked (R334): one message if n > 0. -/
def State.unmask (s : State) (f v : Nat) : State :=
  let x := s.fn f
  let s := s.setFn f (x.setVec v { x.vec v with masked := false })
  if 0 < (x.vec v).n then s.fireVec f v else s

/-- MSIX_UNMASK (R334). -/
def execMsixUnmask (pf vec : Nat) (s : State) : Res :=
  if !vecOk pf vec then .fault .noSuchUnit
  else when_ (s.hostUp && ((s.fn pf).vec vec).masked) s (s.unmask pf vec)

/-- The link in L1 or out of it. -/
def State.setL1 (s : State) (b : Bool) : State := { s with plat := { s.plat with pcie := { s.plat.pcie with l1 := b } } }

/-- PCIE_L1_ENTRY (R335): the pending vectors send before. -/
def execPcieL1Entry (s : State) : Res := when_ s.hostUp s (s.flush.setL1 true)

/-- D3HOT_ENTRY (R335): the flush comes before; with every function in D3hot the link enters L1. -/
def execD3hotEntry (pf : Nat) (pmeEn : Bool) (s : State) : Res :=
  if !pfOk pf then .fault .noSuchUnit
  else when_ s.hostUp s
    (let s := s.flush
     let s := s.setFn pf { s.fn pf with d3 := true, pmeEn := pmeEn }
     if [0, 1, 2, 3].all (fun f => (s.fn f).d3) then s.setL1 true else s)

/-- D0_RETURN (R335): the pending vectors send. -/
def execD0Return (pf : Nat) (s : State) : Res :=
  if !pfOk pf then .fault .noSuchUnit
  else when_ (s.hostUp && (s.fn pf).d3) s
    (let s := (s.setL1 false).setFn pf { s.fn pf with d3 := false }
     forAll (s.fn pf).vecs (fun s v => if 0 < v.2.n then s.fireVec pf v.1 else s) s)

/-- PME_TURN_OFF (R335): no new command is taken; PME_TO_Ack follows once none runs, or after 1 ms. -/
def execPmeTurnOff (s : State) : Res :=
  when_ (s.hostUp && s.plat.pcie.turn.isNone) s
    ({ s with plat := { s.plat with pcie := { s.plat.pcie with turn := some s.now } } } : State).pmeAckIfDone

end Sys2Proof.Machine
end

