-- ==== Sys2Proof/Machine/RegRead.lean ====
section
/-!
DEFINITION. What the registers of a die's space read as (R34, R47, R62, R64, R113, R147, R148, R161, R162,
R165, R176, R181, R195, R199, R202, R205, R208, R221, R231, R265, R266, R275, R280, R281, R303, R316, R348,
R389 to R391). Each block answers the eight bytes at a multiple of 8, and whether they are one 64-bit
register. -/

namespace Sys2Proof.Machine

/-- Eight bytes of registers: whether they are one 64-bit register, and their value. -/
abbrev Word8 := Bool × Nat

def two32 (lo hi : Nat) : Word8 := (false, lo % 2 ^ 32 + at_ 32 (hi % 2 ^ 32))
def one64 (v : Nat) : Word8 := (true, v % 2 ^ 64)
def noReg : Word8 := (false, 0)

/-- The place of an offset in a run of registers: base, size of all, size of one. -/
def inRun (o base size : Nat) : Bool := base ≤ o && o < base + size

/-- The context of a slot on a die. -/
def State.slotOn (s : State) (d c : Nat) : CtxRef := ⟨partOfDie s.layout d, c⟩

/-! ### HTM (R265) -/

def htCode : HtSt → Nat
  | .free => 0
  | .acquire => 1
  | .locked => 2
  | .holdover => 3

def State.htmStat (s : State) : Nat :=
  let h := s.ht
  htCode h.st + at_ 2 (b1 h.master) + at_ 3 h.depth.toNat + at_ 7 h.parent.toNat + at_ 11 (b1 h.parentV) + at_ 12 (b1 h.unlock)
    + at_ 16 h.mhdid.toNat

def State.htmPort (s : State) (p : Nat) : Nat :=
  let h := s.portHt p
  h.delay.toNat + at_ 16 (b1 h.valid) + at_ 17 (b1 (s.upLink p)) + at_ 18 (b1 h.slow) + at_ 19 h.pdepth.toNat
    + at_ 32 h.phdid.toNat + at_ 48 h.symErr.toNat

def State.rdHtm (s : State) (d o : Nat) : Word8 :=
  if o = 0 then one64 s.now
  else if d ≠ 0 then noReg
  else if o = 0x08 then two32 s.htmStat (s.ht.bound.toNat + at_ 16 s.ht.offset.toNat)
  else if o = 0x10 then one64 s.ht.pps.toNat
  else if o = 0x18 then one64 s.ht.todoff.toNat
  else if inRun o 0x100 0x80 then one64 (s.htmPort ((o - 0x100) / 8))
  else noReg

/-! ### XCH (R62, R64, R253, R265) -/

/-- XCH_SS_CTL (R62). DESIGN CHOICE (log entry 45): in a slot that holds no context MODE and LOCAL read 0. -/
def State.ssCtl (s : State) (d c : Nat) : Nat :=
  let x := s.ctx (s.slotOn d c)
  b1 x.strict + at_ 1 (b1 (s.ss d c).missAct) + at_ 2 (b1 (x.hdr.any (fun h => h.modCount = 1))) + at_ 3 (b1 (x.st = .running))

def State.rdSs (s : State) (d c o : Nat) : Word8 :=
  let r := (s.ctx (s.slotOn d c)).run
  let x := s.ss d c
  if o = 0x00 then two32 (s.ssCtl d c) r.ssn.toNat
  else if o = 0x08 then one64 r.tbc.toNat
  else if o = 0x10 then one64 r.xstart.toNat
  else if o = 0x18 then one64 x.stretch.toNat
  else if o = 0x20 then two32 x.nstretch.toNat x.nmiss.toNat
  else if o = 0x28 then two32 x.missInfo.toNat x.missSsn.toNat
  else if o = 0x30 then two32 x.missOver.toNat x.allow.toNat
  else noReg

def State.xchPort (s : State) (p : Nat) : Nat :=
  let x := (s.port p).xch
  match x.owner with
  | none => at_ 4 x.first.toNat
  | some c => c.slot % 8 + 8 + at_ 4 x.first.toNat

def State.rdXch (s : State) (d o : Nat) : Word8 :=
  if o < 0x8000 then one64 (sget 0 (s.port (4 * d + o / 0x2000)).xch.ram (o % 0x2000 / 8)).toNat
  else if inRun o 0xC000 0x2000 then
    let i := (o - 0xC000) / 4
    two32 (sget 0 (s.die d).budget i).toNat (sget 0 (s.die d).budget (i + 1)).toNat
  else if inRun o 0xE000 0x200 then s.rdSs d ((o - 0xE000) / 0x40) (o % 0x40)
  else if o = 0xE200 && d = 0 then two32 (1 + at_ 16 s.fuses.stepping.toNat) 0
  else if o = 0xF000 then one64 (s.die d).xerr0.toNat
  else if o = 0xF008 then one64 (s.die d).xerr1.toNat
  else if inRun o 0xF100 0x10 then
    let k := 4 * d + (o - 0xF100) / 4
    two32 (s.xchPort k) (s.xchPort (k + 1))
  else noReg

/-! ### CLV (R147, R148, R161, R165) -/

/-- CLV_QSTAT of an engine (R147). R147 does not say when a job stops to feed: FEEDING stays 1 until its last
wavefront (DESIGN CHOICE, log entry 45). A drain is in progress from its first value, at s_n + Kc + 255, until
it is complete. -/
def State.qstat (s : State) (cid e : Nat) : Nat :=
  let x := s.cluster cid
  let y := x.engine e
  let headSeq := match y.q with | [] => if y.last.isNone then 0 else (Config.headSeq y.nextSeq).toNat | j :: _ => j.seq.toNat
  let hazard : Bool := match y.q with | [] => false | j :: _ => j.started = 0 && x.cyc < j.clearAt
  y.q.length + at_ 5 (b1 (y.q.any (fun j => j.started ≠ 0 && j.waves < jobTiles j.words)))
    + at_ 6 (b1 (y.tiles.any (fun p => p.1.sAt p.2 + jobKc p.1.words + 255 ≤ x.workCyc && p.1.drained ≤ p.2))) + at_ 7 (b1 hazard) + at_ 8 headSeq + at_ 16 y.nextSeq.toNat

def State.rdClv (s : State) (d o : Nat) : Word8 :=
  if o < 0x800 then
    let cid := 8 * d + o / 0x100
    let x := s.cluster cid
    let r := o % 0x100
    if !s.enabled cid then noReg
    else if r = 0x00 then two32 (s.qstat cid 0) (s.qstat cid 1)
    else if r = 0x08 then two32 (s.qstat cid 2) 0
    else if r = 0x10 then two32 (x.sbUsed + at_ 8 x.sbPeak.toNat) 0
    else if r = 0x18 then one64 x.err.toNat
    else if r = 0x20 then one64 x.cycReg.toNat
    else if inRun r 0x28 0x18 then one64 (x.settle (x.engine ((r - 0x28) / 8))).steps.toNat
    else noReg
  else if inRun o 0x8000 0x4000 then
    let x := s.cluster (8 * d + (o - 0x8000) / 0x800)
    let e := o % 0x800 / 4
    if s.enabled (8 * d + (o - 0x8000) / 0x800) then two32 (sget 0 x.scale e).toNat (sget 0 x.scale (e + 1)).toNat else noReg
  else if inRun o 0xC000 0x200 then
    let x := s.cluster (8 * d + (o - 0xC000) / 0x40)
    let lo := 8 * (o % 0x40)
    if s.enabled (8 * d + (o - 0xC000) / 0x40) then (false, bits x.ovf.toNat (lo + 63) lo) else noReg
  else noReg

/-! ### TIL (R113) -/

def thrCode : ThrSt → Nat
  | .halted => 0
  | .runnable => 1
  | .blocked => 2
  | .trapped => 3

def Tile.status (x : Tile) : Nat :=
  ((List.range 6).map (fun n => at_ (2 * n) (thrCode (x.thread n).st))).sum + at_ 12 (b1 x.fenced)
    + ((List.range 8).map (fun q => at_ (16 + q) (b1 (!(sget ({} : Queue) x.queues q).reqs.isEmpty)))).sum
    + at_ 32 x.trapPc.toNat + at_ 50 x.trapThr.toNat + at_ 53 (b1 x.trapV)

/-- A register of a tile: 0 where its cluster is fused off. -/
def State.tileReg (s : State) (t : Nat) (f : Tile → Nat) : Word8 :=
  if s.enabled (cidOfTile t) then one64 (f (s.tile t)) else one64 0

def State.rdTil (s : State) (d o : Nat) : Word8 :=
  if o < 0x4000 then s.tileReg (2048 * d + o / 8) Tile.status
  else if o = 0x8000 then one64 (s.die d).replay.toNat
  else noReg

/-! ### STR and MMU (R181, R195, R199, R202, R205, R281) -/

def bankCode : BankSt → Nat
  | .on => 0
  | .goingOff => 1
  | .off => 2
  | .goingOn => 3

def State.strBank (s : State) (cid : Nat) : Nat :=
  bankCode (s.bank cid 1).st + at_ 2 (bankCode (s.bank cid 2).st) + at_ 4 (min 255 (s.inFlight cid 1)) + at_ 12 (min 255 (s.inFlight cid 2))

def Win.rd (x : Win) (o : Nat) : Word8 :=
  if o = 0x00 then one64 x.base
  else if o = 0x08 then one64 x.size
  else if o = 0x10 then
    one64 (x.hdid.toNat + at_ 16 x.rcxh.toNat + at_ 32 x.lcxh.toNat + at_ 48 (b1 x.w) + at_ 49 (b1 x.red) + at_ 63 (b1 x.open_))
  else two32 x.rejects.toNat 0

def FaultRec.rd (x : FaultRec) (o : Nat) : Word8 :=
  if o = 0x00 then one64 x.fva.toNat else if o = 0x08 then one64 x.fsrc.toNat else if o = 0x10 then one64 x.fcur.toNat else noReg

def Link.rd (x : Link) (o : Nat) : Word8 :=
  if o = 0x0 then two32 x.cfg.toNat x.pcount.toNat else two32 x.ccount.toNat 0

/-- A scatter descriptor: two 32-bit registers at +0x00 and at +0x38, 64-bit registers between. -/
def Scat.rd (x : Scat) (i : Nat) : Word8 := (i ≠ 0 && i ≠ 7, x.word i)

def State.rdStr (s : State) (d o : Nat) : Word8 :=
  let x := (s.die d).str
  if o < 0x40 then one64 (sget 0 x.root (o / 8)).toNat
  else if o = 0x40 then two32 (at_ 31 (b1 x.inval.isSome)) 0
  else if inRun o 0x1000 0x400 then (s.frec d ((o - 0x1000) / 0x20)).rd (o % 0x20)
  else if inRun o 0x8000 0x2000 && d = 0 then (s.win ((o - 0x8000) / 0x20)).rd (o % 0x20)
  else if inRun o 0xC000 0x1000 then (s.link d ((o - 0xC000) / 0x10)).rd (o % 0x10)
  else if inRun o 0xD000 0x400 then (sget ({} : Scat) x.scat ((o - 0xD000) / 0x40)).rd (o % 0x40 / 8)
  else if inRun o 0xF000 0x20 then
    let k := 8 * d + (o - 0xF000) / 4
    two32 (s.strBank k) (s.strBank (k + 1))
  else noReg

/-! ### CHK (R208), FLG and MSG (R221, R231), NUM (R162, R176) -/

def State.rdChk (s : State) (d o : Nat) : Word8 :=
  let u := o / 0x20
  let x := s.chk d u
  let r := o % 0x20
  if 64 ≤ u then noReg
  else if r = 0x00 then two32 x.ctl.toNat (b1 (s.chkBusy d u) + at_ 1 (b1 (x.stat.getLsbD 1)))
  else if r = 0x08 then one64 x.acc.toNat
  else if r = 0x10 then one64 x.exp.toNat
  else one64 x.bytes.toNat

/-- The values of 32 global flags. -/
def DieFlg.values (x : DieFlg) (w : Nat) : Nat := ((List.range 32).map (fun i => at_ i (b1 (sget false x.gf (32 * w + i))))).sum

/-- The owners of 8 global flags. -/
def DieFlg.owners (x : DieFlg) (w : Nat) : Nat :=
  ((List.range 8).map (fun k =>
    let o := sget 0 x.gfOwn (8 * w + k)
    at_ (4 * k) (if o = 0 then 0 else (o - 1) % 8 + 8))).sum

/-- Entries that messages hold in a tile's store, and the messages (R213, R221). -/
def Tile.msgStat (x : Tile) : Nat :=
  x.storeUsed + at_ 6 x.heldMsgs + at_ 32 x.drops.toNat

def State.rdFlg (s : State) (d o : Nat) : Word8 :=
  let x := (s.die d).flg
  if o < 0x200 then two32 (x.values (o / 4)) (x.values (o / 4 + 1))
  else if inRun o 0x1000 0x800 then two32 (x.owners ((o - 0x1000) / 4)) (x.owners ((o - 0x1000) / 4 + 1))
  else if o = 0x2000 then one64 x.misuse.toNat
  else if inRun o 0x2100 0x40 then one64 (sget 0 x.left ((o - 0x2100) / 8)).toNat
  else if inRun o 0x4000 0x4000 then s.tileReg (2048 * d + (o - 0x4000) / 8) (fun t => t.flags.toNat)
  else if inRun o 0x8000 0x4000 then s.tileReg (2048 * d + (o - 0x8000) / 8) Tile.msgStat
  else if inRun o 0xC000 0x30 then one64 (sget 0 x.msgCnt ((o - 0xC000) / 8)).toNat
  else noReg

def Watch.rd (x : Watch) (o : Nat) : Word8 :=
  if o = 0x00 then two32 x.cfg.toNat x.own.toNat
  else if o = 0x08 then one64 x.elems.toNat
  else if o = 0x10 then one64 x.zeros.toNat
  else if o = 0x18 then one64 x.sats.toNat
  else if o = 0x20 then one64 x.nonfin.toNat
  else if o = 0x28 then two32 x.step.toNat x.stat.toNat
  else if o = 0x30 then two32 x.firstBad.toNat 0
  else one64 0

/-- NUM_DS_CTL at reset (R162). -/
def dsCtlReset : W32 := 0x103E8

def State.rdNum (s : State) (d o : Nat) : Word8 :=
  let x := s.die d
  if o < 0x4000 then (sget ({} : Watch) x.watch (o / 0x40)).rd (o % 0x40)
  else if inRun o 0x8000 0x20 then
    let c := (o - 0x8000) / 4
    two32 (sget dsCtlReset x.dsCtl c).toNat (sget dsCtlReset x.dsCtl (c + 1)).toNat
  else noReg

/-! ### ULK and RED (R275, R280, R303), THS (R266, R279) -/

def portCode : PortSt → Nat
  | .down => 0
  | .detect => 1
  | .train => 2
  | .align => 3
  | .up => 4
  | .degraded => 5

def PortLink.stat (x : PortLink) : Nat :=
  portCode x.st + at_ 3 (b1 x.lanes4) + at_ 4 (b1 x.upper) + at_ 5 x.laneOk.toNat + at_ 13 x.cause.toNat

def PortLink.rd (x : PortLink) (o : Nat) : Word8 :=
  if o = 0x00 then two32 x.ctl.toNat x.stat
  else if o = 0x08 then two32 (x.asym.toNat + at_ 16 x.skew.toNat) 0
  else if o = 0x10 then one64 x.fecCor.toNat
  else if o = 0x18 then one64 x.fecUnc.toNat
  else if o = 0x20 then two32 x.crcErr.toNat x.retry.toNat
  else if o = 0x28 then two32 x.drop.toNat x.blkErr.toNat
  else if o = 0x30 then two32 x.downCnt.toNat 0
  else noReg

def chCode : ChSt → Nat
  | .idle => 0
  | .armed => 1
  | .wait => 2
  | .done => 3
  | .fault => 4

def Chan.rd (x : Chan) (o : Nat) : Word8 :=
  if o = 0 then two32 (chCode x.st + at_ 16 x.bkUsed.toNat) x.late.toNat else two32 x.ssn.toNat 0

def PortXch.cnt (x : PortXch) (o : Nat) : Word8 :=
  if o = 0x00 then one64 x.bkUnits.toNat else if o = 0x08 then two32 x.lateCnt.toNat x.lateFr.toNat else noReg

def Pair.rd (x : Pair) : Word8 :=
  one64 (b1 x.on + at_ 1 (b1 x.twin) + at_ 2 (b1 x.lost) + at_ 3 (b1 x.diverged) + at_ 16 x.skipped.toNat + at_ 32 x.ssn.toNat)

def State.rdUlk (s : State) (d o : Nat) : Word8 :=
  if o < 0x400 then (s.port (4 * d + o / 0x100)).link.rd (o % 0x100)
  else if inRun o 0x8000 0x1000 then
    let p := 4 * d + (o - 0x8000) / 0x400
    (sget ({} : Chan) (s.port p).xch.chans (o % 0x400 / 0x10)).rd (o % 0x10)
  else if inRun o 0x9000 0x80 then (s.port (4 * d + (o - 0x9000) / 0x20)).xch.cnt (o % 0x20)
  else if o = 0x9100 then one64 (s.die d).pairSet.toNat
  else if o = 0x9108 && d = 3 then s.pair.rd
  else noReg

def Ths.rd (x : Ths) (o : Nat) : Word8 :=
  if o = 0x00 then two32 x.cfg.toNat x.child.toNat
  else if o = 0x08 then two32 (x.arr.toNat + at_ 16 (b1 x.self)) x.stale.toNat
  else if o = 0x10 then two32 x.pair.toNat x.early.toNat
  else noReg

def State.rdThs (s : State) (d o : Nat) : Word8 :=
  if o < 0x100 && d = servingDie s.layout (partOfDie s.layout d) then (sget ({} : Ths) (s.die d).ths (o / 0x20)).rd (o % 0x20) else noReg

/-! ### EVC (R342, R348) -/

/-- Bits of a 512-bit set at a byte offset. -/
def setWord (x : BitVec 512) (o : Nat) : Word8 := (false, bits x.toNat (8 * o + 63) (8 * o))

/-- The priorities of 16 sources from a number on. -/
def Evc.prioWord (e : Evc) (n : Nat) : Word8 := (false, ((List.range 16).map (fun k => at_ (4 * k) (e.prioOf (n + k) % 16))).sum)

def Evc.rd (e : Evc) (now o : Nat) : Word8 :=
  if o = 0x000 then two32 (b1 e.hold + at_ 1 (b1 e.claim.isSome)) (e.atStart now).claimWord.toNat
  else if o = 0x008 then two32 0 (e.runpri + at_ 5 e.stack.length + at_ 10 (b1 e.eoiErr))
  else if inRun o 0x100 0x40 then setWord e.pend (o - 0x100)
  else if inRun o 0x140 0x40 then setWord e.en (o - 0x140)
  else if o = 0x180 then two32 (e.full.toNat + at_ 16 e.ovf.toNat) 0
  else if inRun o 0x1C0 0x40 then setWord e.storm (o - 0x1C0)
  else if inRun o 0x200 0x100 then e.prioWord (2 * (o - 0x200))
  else if o = 0x300 then two32 e.limit.toNat 0
  else noReg

def State.rdEvc (s : State) (d o : Nat) : Word8 :=
  if o = 0x400 && d = 0 then one64 s.log.next.toNat
  else if o = 0x408 && d = 0 then one64 s.log.commit.toNat
  else if o = 0x410 && d = 0 then two32 s.log.lost.toNat 0
  else (s.die d).evc.rd s.now o

/-! ### RST and PWR (R389, R390), LCS, LOCK and FUS (R34, R391) -/

/-- The handle that a slot's items carry: the present one, or during a removal the one before. -/
def State.itemCxh (s : State) (c : CtxRef) : BitVec 16 :=
  match (s.ctx c).td with
  | none => s.cxh c
  | some _ => s.oldCxh c

def State.ctxStat (s : State) (d c : Nat) : Nat :=
  let r := s.slotOn d c
  (sget 0 (s.die d).rst.ctxStat c).toNat + at_ 16 (min 0xFFFF (s.drainOn r (s.itemCxh r) d))

/-- The reset in progress on a die, the highest level first; an L4 stands until the rails fall (R373). -/
def State.resetOn (s : State) (d : Nat) : Option Reset :=
  let on (q : Reset) : Bool := q.level = 3 || (q.level = 1 && engDie q.target = d) || (q.level ≠ 1 && q.part = partOfDie s.layout d)
  ([3, 2, 1, 0].filterMap (fun l => s.resets.find? (fun q => q.level = l && on q))).head?

def State.rstLevel (s : State) (d : Nat) : Nat :=
  if s.plat.pwrCycle then 1 + at_ 1 4 + at_ 4 (Config.levelTarget 4).toNat else
  match s.resetOn d with
  | none => 0
  | some q => 1 + at_ 1 q.level + at_ 4 (if q.level < 2 then q.target else Config.levelTarget q.level).toNat

/-- RST_PMLIM_k as it reads; there are five classes. -/
def DieRst.pmWord (x : DieRst) (k : Nat) : Nat := if k < 5 then (x.pm k).toNat else 0

def pstateCode : PState → Nat
  | .active => 0
  | .idle => 1
  | .standby => 2

def State.pwrStat (s : State) (d : Nat) : Nat :=
  let p := s.plat
  pstateCode p.pstate + at_ 2 (b1 p.envelope) + at_ 3 (b1 p.change.isSome) + at_ 4 p.k + at_ 9 (b1 p.trip) + at_ 10 (b1 p.therm)
    + at_ 16 (s.die d).rst.temp.toNat

def State.rdRst (s : State) (d o : Nat) : Word8 :=
  let x := (s.die d).rst
  if o < 0x20 then two32 (sget 0 x.wdog (o / 4)).toNat (sget 0 x.wdog (o / 4 + 1)).toNat
  else if inRun o 0x40 0x40 then one64 (s.ctxStat d ((o - 0x40) / 8))
  else if o = 0x100 then one64 x.fault.toNat
  else if o = 0x108 then one64 x.faultHt.toNat
  else if inRun o 0x120 0x18 then two32 (x.pmWord ((o - 0x120) / 4)) (x.pmWord ((o - 0x120) / 4 + 1))
  else if o = 0x140 then two32 (s.rstLevel d) x.forced.toNat
  else if o = 0x200 then one64 x.dumpBase.toNat
  else if o = 0x208 then one64 x.dumpInfo.toNat
  else if o = 0x210 then two32 x.dumpSsn.toNat 0
  else if inRun o 0x240 0x20 then two32 (sget 0 x.sample ((o - 0x240) / 4)).toNat (sget 0 x.sample ((o - 0x240) / 4 + 1)).toNat
  else if o = 0x8000 then two32 (s.pwrStat d) 0
  else if o = 0x8008 then one64 (x.thrUs.toNat + at_ 32 x.trips.toNat)
  else noReg

def State.rdLcs (s : State) (d o : Nat) : Word8 :=
  if o = 0x00 then two32 (s.fuses.lcs.toNat + at_ 2 (b1 s.plat.recovery) + at_ 3 (b1 s.plat.fwB)) 0
  else if o = 0x10 then two32 s.plat.lock.toNat 0
  else if o = 0x8000 then two32 (bits s.fuses.dis.toNat (8 * d + 7) (8 * d)) 0
  else if inRun o 0x8100 0x80 then
    let n := 32 * d + (o - 0x8100) / 4
    two32 (sget 0 s.fuses.rowmap n).toNat (sget 0 s.fuses.rowmap (n + 1)).toNat
  else noReg

/-! ### HST in BAR0 (R316) -/

/-- HST_PCIE: a link that has power and is not in reset is in training until it has a rate (R312). -/
def State.pcieStat (s : State) : Nat :=
  let p := s.plat.pcie
  let training : Bool := s.plat.powered && s.plat.perst && bits p.stat.toNat 3 0 = 0
  bits p.stat.toNat 9 0 + at_ 10 (if p.off then 2 else if training then 3 else if p.l1 then 1 else 0)

def State.fnStat (s : State) (f : Nat) : Nat :=
  (s.attn f).toNat + at_ 8 (if (s.fn f).d3 then 3 else 0) + at_ 10 (b1 (s.partExists f))
    + ((List.range 16).map (fun r => at_ (16 + r) (b1 (s.ring ⟨f, r⟩).en))).sum

def State.rdHst (s : State) (o : Nat) : Word8 :=
  if o = 0 then two32 s.pcieStat s.plat.pcie.errs.toNat
  else if inRun o 0x100 0x80 then
    let f := (o - 0x100) / 0x20
    let x := s.fn f
    if o % 0x20 = 0x00 then two32 (s.fnStat f) x.ringErr.toNat
    else if o % 0x20 = 0x08 then one64 x.taken.toNat
    else if o % 0x20 = 0x10 then two32 x.flrs.toNat 0
    else noReg
  else noReg

/-! ### The map (R47, R49) -/

/-- Eight bytes of a die's space. -/
def State.rdDie (s : State) (d o : Nat) : Word8 :=
  let r := o % 0x10000
  match o / 0x10000 with
  | 0x0 => s.rdHtm d r
  | 0x1 => s.rdXch d r
  | 0x2 => s.rdClv d r
  | 0x3 => s.rdTil d r
  | 0x4 => s.rdStr d r
  | 0x5 => s.rdChk d r
  | 0x6 => s.rdFlg d r
  | 0x7 => s.rdNum d r
  | 0x8 => s.rdUlk d r
  | 0x9 => s.rdThs d r
  | 0xA => s.rdEvc d r
  | 0xB => s.rdRst d r
  | 0xC => s.rdLcs d r
  | 0x30 => if d = 0 then s.rdHst r else noReg
  | _ => noReg

/-- Eight bytes of BAR0 as a function sees them: 0 outside its die spaces (R49). -/
def State.rdBar0 (s : State) (f o : Nat) : Word8 :=
  let d := o / 2 ^ 24
  if d < 4 && s.sees f d then s.rdDie d (o % 2 ^ 24) else noReg

/-! ### BAR2 (R17, R317, R325, R333, R334) -/

/-- Eight bytes of a ring's page: HST_RDB reads 0. -/
def Ring.rd (x : Ring) (o : Nat) : Word8 :=
  if o = 0x00 then (true, x.cmd.toNat)
  else if o = 0x08 then (true, x.rpl.toNat)
  else if o = 0x10 then two32 x.ctl.toNat x.seq0.toNat
  else if o = 0x18 then two32 0 (x.head + at_ 16 (b1 x.err))
  else noReg

/-- HST_MOD of a vector with its pending count. -/
def Vec.modWord (x : Vec) : Nat := bits x.mod.toNat 17 0 + at_ 18 x.n

/-- A dword of the MSI-X table: three that hold the host's message, and the vector control with its mask bit. -/
def Fn.rdMsix (x : Fn) (v i : Nat) : Nat := if i < 3 then (sget 0 x.msix (4 * v + i)).toNat else b1 (x.vec v).masked

/-- The PBA bits of 32 vectors from `v` on. -/
def Fn.rdPba (x : Fn) (v : Nat) : Nat := ((List.range 32).map (fun i => at_ i (b1 (x.vec (v + i)).pba))).sum

/-- Eight bytes of a function's BAR2. -/
def State.rdBar2 (s : State) (f o : Nat) : Word8 :=
  let x := s.fn f
  if o < 0x10000 then (s.ring ⟨f, o / 0x1000⟩).rd (o % 0x1000)
  else if o = 0x10000 then two32 (s.attn f).toNat x.attnCtl.toNat
  else if o = 0x10008 then (true, x.b4base.toNat)
  else if o = 0x10010 then two32 x.b4err.toNat 0
  else if inRun o 0x20000 0x800 then two32 (x.vec ((o - 0x20000) / 4)).modWord (x.vec ((o - 0x20000) / 4 + 1)).modWord
  else if inRun o 0x40000 0x2000 then two32 (x.rdMsix ((o - 0x40000) / 16) (o % 16 / 4)) (x.rdMsix ((o - 0x40000) / 16) (o % 16 / 4 + 1))
  else if inRun o 0x44000 0x40 then two32 (x.rdPba (8 * (o - 0x44000))) (x.rdPba (8 * (o - 0x44000) + 32))
  else noReg

/-- Eight bytes of a BAR. -/
def State.rdBar (s : State) (f bar o : Nat) : Word8 := if bar = 0 then s.rdBar0 f o else s.rdBar2 f o

/-! ### The row -/

/-- The bytes of a BAR (R313). -/
def barSize (bar : Nat) : Nat := if bar = 0 then 2 ^ 26 else 2 ^ 24

/-- A 32-bit read of a BAR (R48): the value, and the function's latches after it. Each 64-bit register has a
latch for each function (DESIGN CHOICE, log entry 44): the low word's read fills it, the high word's read
empties it. -/
def State.read32 (s : State) (f bar o : Nat) : Nat × Fn :=
  let x := s.fn f
  let w := s.rdBar f bar (o / 8 * 8)
  let k := (if bar = 0 then 0 else barSize 0) + o
  let lo := w.2 % 2 ^ 32
  let hi := w.2 / 2 ^ 32
  if o % 8 = 0 then (lo, if w.1 then { x with his := sput x.his (k + 4) (BitVec.ofNat 32 hi) } else x)
  else if x.his.any (fun e => e.1 = k) then ((sget 0 x.his k).toNat, { x with his := sdrop (fun i => i = k) x.his })
  else (hi, x)

/-- Whether a function answers accesses to its BARs. -/
def State.barUp (s : State) (f : Nat) : Bool := s.hostUp && !(s.fn f).d3

/-- Whether a BAR serves a read of a size at an offset (R48). -/
def readOk (bar off size : Nat) : Bool := ((size = 4 && off % 4 = 0) || (size = 8 && off % 8 = 0)) && off < barSize bar

/-- BAR0_LOW_WORD_READ (R17, R48): an aligned 32-bit read of BAR0 or BAR2, of which the low word of a 64-bit
register latches its high word; or an aligned 64-bit read of both words at once (log entry 44). -/
def execBar0LowWordRead (pf : Nat) (a : BarRead) (s : State) : Res :=
  if !barReadOk pf a then .fault .noSuchUnit
  else if !s.hostUp then .next s
  else if (s.fn pf).d3 || !readOk a.bar a.off a.size then .next ((s.setL1 false).emit (.unsupported pf a.off))
  else if a.size = 8 then
    .next ((s.setL1 false).emit (.data64 pf a.bar a.off (BitVec.ofNat 64 (s.rdBar pf a.bar a.off).2)))
  else
    let r := s.read32 pf a.bar a.off
    .next (((s.setL1 false).setFn pf r.2).emit (.data32 pf a.bar a.off (BitVec.ofNat 32 r.1)))

end Sys2Proof.Machine
end

