-- ==== Sys2Proof/Machine/RegWrite.lean ====
section
/-!
DEFINITION. Writes of registers, BAR2 and the HBM aperture (R17 to R19, R48, R49, R62, R147, R162, R165, R172,
R176, R181, R195, R199, R208, R231, R266, R275, R280, R281, R303, R315, R317, R325, R333, R334, R342, R389,
R390). A write reaches the eight bytes at a multiple of 8 under a mask of the bits that it carries. -/

namespace Sys2Proof.Machine

/-! ### Access types (R17) -/

/-- Eight bytes after a write of `v` under mask `m`: RW bits take the value, W1C bits written 1 clear. -/
def mergeReg (old v m rw w1c : W64) : W64 := ((old &&& ~~~(m &&& rw)) ||| (v &&& m &&& rw)) &&& ~~~(v &&& m &&& w1c)

/-- Bits [hi:lo] of eight bytes. -/
def field64 (hi lo : Nat) : W64 := BitVec.ofNat 64 ((2 ^ (hi + 1 - lo) - 1) * 2 ^ lo)

def all64 : W64 := BitVec.allOnes 64
def w1 (n : Nat) : W64 := field64 n n

/-- A write: the value, the mask, and what eight bytes hold after it. -/
structure RegW where
  v : W64
  m : W64

def RegW.lo (k : RegW) : Bool := k.m.getLsbD 0
def RegW.hi (k : RegW) : Bool := k.m.getLsbD 32
def RegW.on (k : RegW) (old : Nat) (rw w1c : W64) : W64 := mergeReg (BitVec.ofNat 64 old) k.v k.m rw w1c

/-- W1C bits of eight bytes of a die's space that a write may clear: not those that hardware sets in the same
cycle (R18). -/
def State.clearable (s : State) (d off : Nat) (m : W64) : W64 := m &&& ~~~(s.freshMask (bar0Bit d off 0))

/-- The record that a write to V of eight bytes of a die's space leaves held in place of the one that it clears:
one of the same cycle (R18). -/
def State.heldRec (s : State) (d off : Nat) (k : RegW) (old : Nat) : Option W64 :=
  if bit old 63 && !(k.on old 0 (s.clearable d off (w1 63))).getLsbD 63 then s.newRec (bar0Bit d off 63) else none

/-- Eight bytes that hold a record with its V, after a write. -/
def State.onRec (s : State) (d off : Nat) (k : RegW) (old : Nat) (rw : W64) : W64 :=
  let x := k.on old rw (s.clearable d off (w1 63))
  match s.heldRec d off k old with
  | none => x
  | some r => (x &&& rw) ||| (r &&& ~~~rw)

/-- A mask without the half of a context that is RUNNING. -/
def RegW.spare (k : RegW) (lo hi : Bool) : RegW :=
  { k with m := (if lo then 0 else k.m &&& field64 31 0) ||| (if hi then 0 else k.m &&& field64 63 32) }

def State.modDie (s : State) (d : Nat) (f : Die → Die) : State := s.setDie d (f (s.die d))
def State.modRst (s : State) (d : Nat) (f : DieRst → DieRst) : State := s.modDie d (fun x => { x with rst := f x.rst })
def State.modStr (s : State) (d : Nat) (f : DieStr → DieStr) : State := s.modDie d (fun x => { x with str := f x.str })
def State.modFlg (s : State) (d : Nat) (f : DieFlg → DieFlg) : State := s.modDie d (fun x => { x with flg := f x.flg })

/-- Whether the context of a slot on a die runs. -/
def State.runningOn (s : State) (d c : Nat) : Bool := (s.ctx (s.slotOn d c)).st = .running

/-- Two neighbouring entries of a table of 32-bit registers. -/
def sput2 (m : Sparse W32) (i : Nat) (v : W64) : Sparse W32 := sput (sput m i (lo32 v)) (i + 1) (hi32 v)

/-! ### XCH (R62, R64, R265) -/

def State.wrSs (s : State) (d c o : Nat) (k : RegW) : State :=
  let x := s.ss d c
  let old := (s.rdSs d c o).2
  if o = 0x00 then s.setSs d c { x with missAct := (k.on old (w1 1) 0).getLsbD 1 }
  else if o = 0x28 then (if (k.on old 0 (w1 31)).getLsbD 31 then s else s.setSs d c (x.clearMiss s.now))
  else if o = 0x30 then s.setSs d c { x with allow := BitVec.ofNat 16 (fld (k.on old (field64 47 32) 0) 47 32) }
  else s

def State.wrXch (s : State) (d o : Nat) (k : RegW) : State :=
  let old := (s.rdXch d o).2
  if inRun o 0xC000 0x2000 then
    if s.runningOn d ((o - 0xC000) / 0x400) then s
    else s.modDie d (fun x => { x with budget := sput2 x.budget ((o - 0xC000) / 4) (k.on old all64 0) })
  else if inRun o 0xE000 0x200 then s.wrSs d ((o - 0xE000) / 0x40) (o % 0x40) k
  else if o = 0xF000 then (if (k.on old 0 (w1 63)).getLsbD 63 then s else s.modDie d (fun x => x.clearXerr s.now))
  else s

/-! ### CLV (R147, R161, R165) -/

def State.wrClv (s : State) (d o : Nat) (k : RegW) : State :=
  let old := (s.rdClv d o).2
  if o < 0x800 then
    let cid := 8 * d + o / 0x100
    let x := s.cluster cid
    let r := o % 0x100
    if !s.enabled cid then s
    else if r = 0x10 then s.setCluster cid { x with sbPeak := BitVec.ofNat 7 (fld (k.on old (field64 14 8) 0) 14 8) }
    else if r = 0x18 then s.setCluster cid { x with err := s.onRec d (0x20000 + o) k old 0 }
    else if inRun r 0x28 0x18 then
      let e := (r - 0x28) / 8
      s.setCluster cid { x with eng := sput x.eng e { x.settle (x.engine e) with steps := k.on old all64 0 } }
    else s
  else if inRun o 0x8000 0x4000 then
    let cid := 8 * d + (o - 0x8000) / 0x800
    let x := s.cluster cid
    let y := k.on old (field64 23 0 ||| field64 55 32) 0
    if !s.enabled cid || s.runsOn cid then s else s.setCluster cid { x with scale := sput2 x.scale (o % 0x800 / 4) y }
  else if inRun o 0xC000 0x200 then
    let cid := 8 * d + (o - 0xC000) / 0x40
    let x := s.cluster cid
    let lo := 8 * (o % 0x40)
    if s.enabled cid then s.setCluster cid { x with ovf := setBits x.ovf (lo + 63) lo (k.on old 0 (s.clearable d (0x20000 + o) all64)).toNat } else s
  else s

/-! ### STR and MMU (R181, R195, R199, R281) -/

/-- MMU_FRES written (R199): a write to both bits aborts; to a record with V = 0 it is discarded. -/
def State.wrFres (s : State) (d f : Nat) (v : W64) : State :=
  if !(s.frec d f).fva.getLsbD 63 then s
  else if v.getLsbD 1 then s.fresAbort d f
  else if v.getLsbD 0 then s.fresResume d f
  else s

/-- STR_LINK written (R195): both counts return to 0. -/
def State.wrLink (s : State) (d l : Nat) (v : W32) : State :=
  let x := s.link d l
  if x.cfg.getLsbD 8 && s.runningOn d (bits x.cfg.toNat 11 9) then s else s.setLink d l { cfg := v &&& 0xFFF#32 }

def State.wrStr (s : State) (d o : Nat) (k : RegW) : State :=
  let old := (s.rdStr d o).2
  if o < 0x40 then
    if s.runningOn d (o / 8) then s
    else s.modStr d (fun x => { x with root := sput x.root (o / 8) (k.on old (w1 0 ||| field64 47 21) 0) })
  else if o = 0x40 then (if k.lo then s.mmuInval d (lo32 k.v) else s)
  else if inRun o 0x1000 0x400 then
    if o % 0x20 = 0x18 && k.lo then s.wrFres d ((o - 0x1000) / 0x20) k.v else s
  else if inRun o 0xC000 0x1000 then
    if o % 0x10 = 0 && k.lo then s.wrLink d ((o - 0xC000) / 0x10) (lo32 k.v) else s
  else if inRun o 0xD000 0x400 then
    let j := (o - 0xD000) / 0x40
    let i := o % 0x40 / 8
    let x := sget ({} : Scat) (s.die d).str.scat j
    if x.valid && s.runningOn d x.slot then s
    else s.modStr d (fun y => { y with scat := sput y.scat j { x with w := sput x.w i (k.on old (BitVec.ofNat 64 (scatMask i)) 0) } })
  else s

/-! ### CHK (R207, R208), FLG and MSG (R221, R231), NUM (R162, R172, R176) -/

def State.wrChk (s : State) (d o : Nat) (k : RegW) : State :=
  let u := o / 0x20
  let x := s.chk d u
  let old := (s.rdChk d o).2
  let held : Bool := s.runningOn d (bits x.ctl.toNat 5 3)
  let r := o % 0x20
  if 64 ≤ u then s
  else if r = 0x00 then
    let y := k.on old (field64 5 0) (s.clearable d (0x50000 + o) (w1 33))
    s.setChk d u { x with ctl := lo32 y, stat := hi32 y &&& 2#32 }
  else if r = 0x08 then (if held then s else s.setChk d u { x with acc := k.on old all64 0 })
  else if r = 0x10 then (if held then s else s.setChk d u { x with exp := k.on old all64 0 })
  else s

def State.wrFlg (s : State) (d o : Nat) (k : RegW) : State :=
  let old := (s.rdFlg d o).2
  if o = 0x2000 then s.modFlg d (fun x => { x with misuse := s.onRec d 0x62000 k old (field64 7 0) })
  else if inRun o 0xC000 0x30 then
    s.modFlg d (fun x => { x with msgCnt := sput x.msgCnt ((o - 0xC000) / 8) (k.on old all64 0) })
  else s

/-- WCTL.CLEAR (R172, R176): the counters, STREAK, SAT and the step flags; STEP and the alarms stay. -/
def Watch.clear (x : Watch) (now : Nat) : Watch :=
  let y : Watch := { x with elems := 0, zeros := 0, sats := 0, nonfin := 0, stat := x.stat &&& 0x0300_0000#32 }
  if x.newAt = some now then
    { y with elems := BitVec.ofNat 48 x.newE, zeros := BitVec.ofNat 48 x.newZ, sats := BitVec.ofNat 48 x.newS,
             nonfin := BitVec.ofNat 48 x.newN, stat := y.stat ||| x.newF }
  else y

/-- A watch slot of a die changed. -/
def State.modWatch (s : State) (d w : Nat) (f : Watch → Watch) : State :=
  s.modDie d (fun x => { x with watch := sput x.watch w (f (sget {} x.watch w)) })

/-- The bits of NUM_WSTAT that clear by a 1 (R176), in its eight bytes. -/
def wstatMask : W64 := field64 57 52

def State.wrNum (s : State) (d o : Nat) (k : RegW) : State :=
  let old := (s.rdNum d o).2
  if o < 0x4000 then
    let w := o / 0x40
    let x := sget ({} : Watch) (s.die d).watch w
    let held : Bool := match x.owner with | none => false | some c => (s.ctx c).st = .running
    let r := o % 0x40
    if r = 0x00 then (if held then s else s.modWatch d w (fun x => { x with cfg := lo32 (k.on old (field64 31 0) 0) }))
    else if r = 0x28 then s.modWatch d w (fun x => { x with stat := hi32 (k.on old 0 (s.clearable d (0x70000 + o) wstatMask)) })
    else if r = 0x30 then (if k.hi && k.v.getLsbD 32 then s.modWatch d w (fun x => x.clear s.now) else s)
    else s
  else if inRun o 0x8000 0x20 then
    let c := (o - 0x8000) / 4
    let k := k.spare (s.runningOn d c) (s.runningOn d (c + 1))
    s.modDie d (fun x => { x with dsCtl := sput2 x.dsCtl c (k.on old (field64 19 0 ||| field64 51 32) 0) })
  else s

/-! ### ULK and RED (R275, R280, R303), THS (R266, R279) -/

def PortLink.wr (x : PortLink) (o : Nat) (k : RegW) : PortLink :=
  let y := k.on (x.rd o).2 all64 0
  if o = 0x10 then { x with fecCor := y }
  else if o = 0x18 then { x with fecUnc := y }
  else if o = 0x20 then { x with crcErr := lo32 y, retry := hi32 y }
  else if o = 0x28 then { x with drop := lo32 y, blkErr := hi32 y }
  else if o = 0x30 then { x with downCnt := BitVec.ofNat 16 (fld y 15 0) }
  else x

def PortXch.wrCnt (x : PortXch) (o : Nat) (k : RegW) : PortXch :=
  let y := k.on (x.cnt o).2 all64 0
  if o = 0x00 then { x with bkUnits := y } else if o = 0x08 then { x with lateCnt := lo32 y, lateFr := hi32 y } else x

/-- Whether a context of a die's partition runs. -/
def State.anyRunning (s : State) (d : Nat) : Bool := (List.range 8).any (fun c => s.runningOn d c)

def State.wrUlk (s : State) (d o : Nat) (k : RegW) : State :=
  if o < 0x400 then
    let p := 4 * d + o / 0x100
    let r := o % 0x100
    if r = 0 then (if k.lo then s.linkCtl p (fld k.v 2 0) false else s)
    else s.setPortLink p ((s.port p).link.wr r k)
  else if inRun o 0x9000 0x80 then
    let p := 4 * d + (o - 0x9000) / 0x20
    s.setXch p ((s.port p).xch.wrCnt (o % 0x20) k)
  else if o = 0x9100 then
    if s.anyRunning d then s else s.modDie d (fun x => { x with pairSet := k.on x.pairSet.toNat all64 0 })
  else if o = 0x9108 && d = 3 then
    { s with pair := { s.pair with diverged := (k.on s.pair.rd.2 0 (s.clearable 3 0x89108 (w1 3))).getLsbD 3 } }
  else s

def State.wrThs (s : State) (d o : Nat) (k : RegW) : State :=
  let c := o / 0x20
  let r := o % 0x20
  let old := (s.rdThs d o).2
  let x := sget ({} : Ths) (s.die d).ths c
  if !(o < 0x100 && d = servingDie s.layout (partOfDie s.layout d)) || s.runningOn d c then s
  else if r = 0x00 then
    let y := k.on old (field64 21 0 ||| field64 47 32) 0
    s.modDie d (fun z => { z with ths := sput z.ths c { x with cfg := lo32 y, child := hi32 y } })
  else if r = 0x10 then
    let y := k.on old (field64 5 0 ||| field64 31 16) 0
    s.modDie d (fun z => { z with ths := sput z.ths c { x with pair := lo32 y } })
  else s

/-! ### RST and PWR (R389, R390) -/

/-- PA and EN of RST_DUMPBASE, and the limits of RST_PMLIM: RWL, frozen by LOCK_REG (R17, R381). -/
def State.frozen (s : State) : Bool := s.plat.lock.getLsbD 7

def DieRst.setPm (x : DieRst) (k : Nat) (v : Nat) : DieRst :=
  if k < 5 then { x with pmLim := sput x.pmLim k (BitVec.ofNat 16 v) } else x

def State.wrRst (s : State) (d o : Nat) (k : RegW) : State :=
  let old := (s.rdRst d o).2
  if o < 0x20 then
    let c := o / 4
    let k := k.spare (s.runningOn d c) (s.runningOn d (c + 1))
    s.modRst d (fun x => { x with wdog := sput2 x.wdog c (k.on old all64 0) })
  else if o = 0x100 then s.modRst d (fun x => { x with fault := s.onRec d 0xB0100 k old 0, faultHt := if (s.heldRec d 0xB0100 k old).isSome then s.ht.now else x.faultHt })
  else if inRun o 0x120 0x18 then
    let y := k.on old (field64 15 0 ||| field64 47 32) 0
    let i := (o - 0x120) / 4
    if s.frozen then s else s.modRst d (fun x => (x.setPm i (fld y 15 0)).setPm (i + 1) (fld y 47 32))
  else if o = 0x140 then s.modRst d (fun x => { x with forced := BitVec.ofNat 16 (fld (k.on old (field64 47 32) 0) 47 32) })
  else if o = 0x200 then
    if s.frozen then s else s.modRst d (fun x => { x with dumpBase := k.on old (w1 0 ||| field64 47 21) 0 })
  else if o = 0x208 then s.modRst d (fun x => { x with dumpInfo := k.on old 0 (s.clearable d 0xB0208 (w1 40 ||| w1 63)) })
  else if inRun o 0x240 0x20 then
    let c := (o - 0x240) / 4
    let k := k.spare (s.runningOn d c) (s.runningOn d (c + 1))
    s.modRst d (fun x => { x with sample := sput2 x.sample c (k.on old (field64 23 0 ||| field64 55 32) 0) })
  else if o = 0x8008 then
    let y := k.on old all64 0
    s.modRst d (fun x => { x with thrUs := lo32 y, trips := hi32 y })
  else s

/-! ### BAR0 (R48, R49) -/

/-- UNLOCK of HTM_STAT (R265). -/
def State.wrHtm (s : State) (d o : Nat) (k : RegW) : State :=
  if d = 0 && o = 0x08 then s.setHt { s.ht with unlock := (k.on s.htmStat 0 (s.clearable 0 0x8 (w1 12))).getLsbD 12 } else s

/-- TIL_REPLAY (R113). -/
def State.wrTil (s : State) (d o : Nat) (k : RegW) : State :=
  if o = 0x8000 then s.modDie d (fun x => { x with replay := k.on x.replay.toNat all64 0 }) else s

/-! ### EVC, by the die's control core (R342 to R345, R348) -/

/-- EVC_CTL written: HOLD as the write has it; its fall lets the deferred clears act (R343, R344). -/
def Evc.wrHold (e : Evc) (b : Bool) : Evc := if b then { e with hold := true } else e.release

/-- Eight bytes of EVC_EN from source `lo` on written (R344): an enable bit set by firmware ends the source's
masking (R345), unless a deferred clear of the bit is to come. -/
def Evc.wrEn (e : Evc) (lo : Nat) (k : RegW) : Evc :=
  let en := setBits e.en (lo + 63) lo (k.on (bits e.en.toNat (lo + 63) lo) all64 0).toNat
  let ones : BitVec 512 := setBits 0 (lo + 63) lo (k.v &&& k.m).toNat
  { e with en := en, masked := e.masked &&& ~~~(ones &&& ~~~e.deferred) }

/-- Sixteen priorities from source `n` on written. -/
def Evc.wrPrio (e : Evc) (n : Nat) (k : RegW) : Evc :=
  let y := (k.on (e.prioWord n).2 all64 0).toNat
  { e with prio := (List.range 16).foldl (fun m i => sput m (n + i) (bits y (4 * i + 3) (4 * i))) e.prio }

/-- A write of a register of die `d`'s event controller (R340 to R348). -/
def State.wrEvc (s : State) (d o : Nat) (k : RegW) : State :=
  let clr (m : W64) : W64 := s.clearable d (0xA0000 + o) m
  if o = 0x000 then (if k.lo then s.modEvc d (fun e => e.wrHold (k.v.getLsbD 0)) else s)
  else if o = 0x008 then
    let s := if k.hi then s.modEvc d (fun e => { e with eoiErr := (k.on (at_ 42 (b1 e.eoiErr)) 0 (clr (w1 42))).getLsbD 42 }) else s
    if k.lo then s.evcEoi d else s
  else if inRun o 0x140 0x40 then s.modEvc d (fun e => e.wrEn (8 * (o - 0x140)) k)
  else if o = 0x180 then
    s.modEvc d (fun e => { e with ovf := BitVec.ofNat 5 (fld (k.on (at_ 16 e.ovf.toNat) 0 (clr (field64 20 16))) 20 16) })
  else if inRun o 0x1C0 0x40 then
    let lo := 8 * (o - 0x1C0)
    s.modEvc d (fun e => { e with storm := setBits e.storm (lo + 63) lo (k.on (bits e.storm.toNat (lo + 63) lo) 0 (clr all64)).toNat })
  else if inRun o 0x200 0x100 then s.modEvc d (fun e => e.wrPrio (2 * (o - 0x200)) k)
  else if o = 0x300 then s.modEvc d (fun e => { e with limit := BitVec.ofNat 16 (fld (k.on e.limit.toNat (field64 15 0) 0) 15 0) })
  else s

/-- A write into a die's space, by its control core or by a host. LCS, LOCK, FUS and HST take none, and EVC
only its core's (R34, R316, R342, R391). -/
def State.wrDie (s : State) (core : Bool) (d o : Nat) (k : RegW) : State :=
  let r := o % 0x10000
  match o / 0x10000 with
  | 0x0 => s.wrHtm d r k
  | 0x1 => s.wrXch d r k
  | 0x2 => s.wrClv d r k
  | 0x3 => s.wrTil d r k
  | 0x4 => s.wrStr d r k
  | 0x5 => s.wrChk d r k
  | 0x6 => s.wrFlg d r k
  | 0x7 => s.wrNum d r k
  | 0x8 => s.wrUlk d r k
  | 0x9 => s.wrThs d r k
  | 0xA => if core then s.wrEvc d r k else s
  | 0xB => s.wrRst d r k
  | _ => s

/-- A write of BAR0: discarded outside the function's die spaces (R49). -/
def State.wrBar0 (s : State) (f o : Nat) (k : RegW) : State :=
  let d := o / 2 ^ 24
  if d < 4 && s.sees f d then s.wrDie false d (o % 2 ^ 24) k else s

/-! ### BAR2 (R317, R325, R333, R334) -/

def State.wrRing (s : State) (r : RingRef) (o : Nat) (k : RegW) : State :=
  let x := s.ring r
  if o = 0x00 then (if x.en then s else s.setRing r { x with cmd := k.on x.cmd.toNat all64 0 })
  else if o = 0x08 then (if x.en then s else s.setRing r { x with rpl := k.on x.rpl.toNat all64 0 })
  else if o = 0x10 then
    let y := k.on (x.ctl.toNat + at_ 32 x.seq0.toNat) (field64 14 0 ||| field64 47 32) 0
    let s := if x.en || !k.hi then s else s.setRing r { x with seq0 := BitVec.ofNat 16 (fld y 47 32) }
    if k.lo then s.writeRctl r (fld y 31 0) else s
  else if o = 0x18 then (if k.lo then s.doorbell r (fld k.v 15 0) else s)
  else s

/-- HST_ATTN and HST_ATTNCTL (R325): `w1c` are the bits that a write may clear. -/
def Fn.wrAttn (x : Fn) (k : RegW) (w1c : W64) : Fn :=
  let y := k.on (x.attn.toNat + at_ 32 x.attnCtl.toNat) (field64 41 32) w1c
  { x with attn := BitVec.ofNat 8 (fld y 7 0), attnCtl := hi32 y }

/-- Two neighbouring moderation registers (R334). -/
def Fn.wrMod (x : Fn) (v : Nat) (k : RegW) : Fn :=
  let a := x.vec v
  let b := x.vec (v + 1)
  let y := k.on (a.mod.toNat + at_ 32 b.mod.toNat) (field64 17 0 ||| field64 49 32) 0
  (x.setVec v { a with mod := lo32 y }).setVec (v + 1) { b with mod := hi32 y }

/-- A dword of the MSI-X table: three that the host's message holds, and the vector control with its mask bit. -/
def State.wrMsix (s : State) (f v i : Nat) (w : W32) : State :=
  let x := s.fn f
  if i < 3 then s.setFn f { x with msix := sput x.msix (4 * v + i) w }
  else if w.getLsbD 0 then s.setFn f (x.setVec v { x.vec v with masked := true })
  else if (x.vec v).masked then s.unmask f v
  else s

def State.wrBar2 (s : State) (f o : Nat) (k : RegW) : State :=
  let x := s.fn f
  if o < 0x10000 then s.wrRing ⟨f, o / 0x1000⟩ (o % 0x1000) k
  else if o = 0x10000 then s.setFn f (x.wrAttn k (field64 7 0 &&& ~~~(s.freshMask (bar2Bit f 0x10000 0))))
  else if o = 0x10008 then s.setFn f { x with b4base := k.on x.b4base.toNat (w1 0 ||| field64 47 36) 0 }
  else if o = 0x10010 then s.setFn f { x with b4err := lo32 (k.on x.b4err.toNat (field64 31 0) 0) }
  else if inRun o 0x20000 0x800 then s.setFn f (x.wrMod ((o - 0x20000) / 4) k)
  else if inRun o 0x40000 0x2000 then
    let v := (o - 0x40000) / 16
    let i := o % 16 / 4
    let s := if k.lo then s.wrMsix f v i (lo32 k.v) else s
    if k.hi then s.wrMsix f v (i + 1) (hi32 k.v) else s
  else s

/-! ### The rows -/

/-- The write that an aligned access makes at the multiple of 8 below it; none for another size or alignment (R48). -/
def regW (off : Nat) : RegValue → Option RegW
  | .w32 v =>
    if off % 8 = 0 then some { v := BitVec.ofNat 64 v.toNat, m := field64 31 0 }
    else if off % 8 = 4 then some { v := BitVec.ofNat 64 (at_ 32 v.toNat), m := field64 63 32 }
    else none
  | .w64 v => if off % 8 = 0 then some { v := v, m := all64 } else none
  | .other _ => none

/-- A write of a host through a BAR. DESIGN CHOICE (log entry 53): in STANDBY one of BAR0 reaches no
register (R44). -/
def State.hostWrite (s : State) (pf bar off : Nat) (v : RegValue) : State :=
  let s := s.setL1 false
  match regW off v with
  | none => s.emit (.unsupported pf off)
  | some k =>
    if (s.fn pf).d3 || barSize bar ≤ off then s.emit (.unsupported pf off)
    else if bar = 0 then (if s.asleep then s else s.wrBar0 pf (off / 8 * 8) k)
    else s.wrBar2 pf (off / 8 * 8) k

/-- A write of a control core into its die's space; one of another size or alignment, or beyond the space,
does nothing. -/
def State.coreWrite (s : State) (d off : Nat) (v : RegValue) : State :=
  match regW off v with
  | none => s
  | some k => if off < 2 ^ 24 then s.wrDie true d (off / 8 * 8) k else s

/-- REGISTER_WRITE (R17, R18, R48, R49, R342, R344). -/
def execRegisterWrite (who : RegBy) (bar off : Nat) (v : RegValue) (s : State) : Res :=
  if !regByOk who bar then .fault .noSuchUnit
  else
    match who with
    | .host pf => when_ s.hostUp s (s.hostWrite pf bar off v)
    | .core d => when_ s.controlRuns s (s.coreWrite d off v)

/-- NUM_WCTL_CLEAR (R172, R176). -/
def execNumWctlClear (pf die slot : Nat) (v : W32) (s : State) : Res :=
  if !(pfOk pf && dieOk die && slot < 256) then .fault .noSuchUnit
  else when_ (s.hostUp && s.sees pf die && v.getLsbD 0 && !s.asleep) s (s.modWatch die slot (fun x => x.clear s.now))

/-! ### The aperture (R315) -/

/-- The physical address that an aperture offset reaches. -/
def Fn.aperture (x : Fn) (off : Nat) : Nat := bits x.b4base.toNat 47 36 * 2 ^ 36 + off

/-- Whether the aperture serves an access. -/
def State.apertureOk (s : State) (f off n : Nat) : Bool :=
  (s.fn f).b4base.getLsbD 0 && s.partExists f && paRangeOk s.layout f ((s.fn f).aperture off) n

def HostAccess.size : HostAccess → Nat
  | .read n => n
  | .write bs => bs.length

/-- An access that is refused: all-ones bytes for a read, and HST_B4ERR. -/
def State.apertureErr (s : State) (f off : Nat) (a : HostAccess) : State :=
  let s := s.setFn f { s.fn f with b4err := satAdd (s.fn f).b4err 1 }
  match a with
  | .read n => s.emit (.bytes f off (List.replicate n 0xFF))
  | .write _ => s

/-- An access that reaches HBM. -/
def State.apertureGo (s : State) (f off : Nat) (a : HostAccess) : State :=
  match a with
  | .read n => s.emit (.bytes f off (s.paRead f ((s.fn f).aperture off) n))
  | .write bs => s.paWrite f ((s.fn f).aperture off) bs

/-- BAR4_ACCESS (R315). HBM that is parked answers nothing: PF# low (R384), STANDBY (R44). -/
def execBar4Access (pf off : Nat) (a : HostAccess) (s : State) : Res :=
  if !pfOk pf then .fault .noSuchUnit
  else if !s.hostUp then .next s
  else
    let s := s.setL1 false
    if (s.fn pf).d3 || 2 ^ 36 < off + HostAccess.size a then .next (s.emit (.unsupported pf off))
    else if !s.plat.pf || s.asleep then .next s
    else
      let s := s.touch
      .next (if s.apertureOk pf off (HostAccess.size a) then s.apertureGo pf off a else s.apertureErr pf off a)

end Sys2Proof.Machine
end

