-- ==== Sys2Proof/Machine/Scalar.lean ====
section
/-!
DEFINITION. The scalar instructions (R89): one issue slot, sD written, PC + 8.
-/

namespace Sys2Proof.Machine

/-- The result of a scalar instruction written to sD. -/
def State.alu (s : State) (r : IssueRef) (f : Fields) (g : Thread → W64) : State :=
  s.modThread r.tid r.thr (fun h => (h.setSr f.d (g h)).step)

/-- A truth value as a register. -/
def wb (b : Bool) : W64 := if b then 1 else 0

/-- Leading zeros of the low `n` bits of a number. -/
def clzN (v : Nat) : Nat → Nat
  | 0 => 0
  | n + 1 => if bit v n then 0 else clzN v n + 1

/-- Ones among the low `n` bits of a number. -/
def popN (v : Nat) : Nat → Nat
  | 0 => 0
  | n + 1 => b1 (bit v n) + popN v n

/-- ADD (R89). -/
def execAdd (r : IssueRef) (f : Fields) (s : State) : Res :=
  issue s r 0x0 0x00 f (fun s _ => s.alu r f (fun h => h.opA f + h.opBI f))

/-- SUB (R89). -/
def execSub (r : IssueRef) (f : Fields) (s : State) : Res :=
  issue s r 0x0 0x01 f (fun s _ => s.alu r f (fun h => h.opA f - h.opBI f))

/-- AND (R89). -/
def execAnd (r : IssueRef) (f : Fields) (s : State) : Res :=
  issue s r 0x0 0x02 f (fun s _ => s.alu r f (fun h => h.opA f &&& h.opBI f))

/-- OR (R89). -/
def execOr (r : IssueRef) (f : Fields) (s : State) : Res :=
  issue s r 0x0 0x03 f (fun s _ => s.alu r f (fun h => h.opA f ||| h.opBI f))

/-- XOR (R89). -/
def execXor (r : IssueRef) (f : Fields) (s : State) : Res :=
  issue s r 0x0 0x04 f (fun s _ => s.alu r f (fun h => h.opA f ^^^ h.opBI f))

/-- SHL (R89). -/
def execShl (r : IssueRef) (f : Fields) (s : State) : Res :=
  issue s r 0x0 0x05 f (fun s _ => s.alu r f (fun h => h.opA f <<< ((h.opBI f).toNat % 64)))

/-- SHR (R89). -/
def execShr (r : IssueRef) (f : Fields) (s : State) : Res :=
  issue s r 0x0 0x06 f (fun s _ => s.alu r f (fun h => h.opA f >>> ((h.opBI f).toNat % 64)))

/-- SRA (R89). -/
def execSra (r : IssueRef) (f : Fields) (s : State) : Res :=
  issue s r 0x0 0x07 f (fun s _ => s.alu r f (fun h => (h.opA f).sshiftRight ((h.opBI f).toNat % 64)))

/-- MUL (R89). -/
def execMul (r : IssueRef) (f : Fields) (s : State) : Res :=
  issue s r 0x0 0x08 f (fun s _ => s.alu r f (fun h => h.opA f * h.opBI f))

/-- MULHU (R89). -/
def execMulhu (r : IssueRef) (f : Fields) (s : State) : Res :=
  issue s r 0x0 0x09 f (fun s _ => s.alu r f (fun h => BitVec.ofNat 64 ((h.opA f).toNat * (h.opB f).toNat / 2 ^ 64)))

/-- MULHS (R89). -/
def execMulhs (r : IssueRef) (f : Fields) (s : State) : Res :=
  issue s r 0x0 0x0A f (fun s _ => s.alu r f (fun h => BitVec.ofInt 64 ((h.opA f).toInt * (h.opB f).toInt / 2 ^ 64)))

/-- MIN (R89). -/
def execMin (r : IssueRef) (f : Fields) (s : State) : Res :=
  issue s r 0x0 0x0B f (fun s _ => s.alu r f (fun h => if (h.opA f).slt (h.opBI f) then h.opA f else h.opBI f))

/-- MAX (R89). -/
def execMax (r : IssueRef) (f : Fields) (s : State) : Res :=
  issue s r 0x0 0x0C f (fun s _ => s.alu r f (fun h => if (h.opA f).slt (h.opBI f) then h.opBI f else h.opA f))

/-- MINU (R89). -/
def execMinu (r : IssueRef) (f : Fields) (s : State) : Res :=
  issue s r 0x0 0x0D f (fun s _ => s.alu r f (fun h => if (h.opA f).ult (h.opBI f) then h.opA f else h.opBI f))

/-- MAXU (R89). -/
def execMaxu (r : IssueRef) (f : Fields) (s : State) : Res :=
  issue s r 0x0 0x0E f (fun s _ => s.alu r f (fun h => if (h.opA f).ult (h.opBI f) then h.opBI f else h.opA f))

/-- SLT (R89). -/
def execSlt (r : IssueRef) (f : Fields) (s : State) : Res :=
  issue s r 0x0 0x0F f (fun s _ => s.alu r f (fun h => wb ((h.opA f).slt (h.opBI f))))

/-- SLTU (R89). -/
def execSltu (r : IssueRef) (f : Fields) (s : State) : Res :=
  issue s r 0x0 0x10 f (fun s _ => s.alu r f (fun h => wb ((h.opA f).ult (h.opBI f))))

/-- SEQ (R89). -/
def execSeq (r : IssueRef) (f : Fields) (s : State) : Res :=
  issue s r 0x0 0x11 f (fun s _ => s.alu r f (fun h => wb (h.opA f == h.opBI f)))

/-- SEL (R89). -/
def execSel (r : IssueRef) (f : Fields) (s : State) : Res :=
  issue s r 0x0 0x12 f (fun s _ => s.alu r f (fun h => if h.opA f = 0 then h.sr f.d else h.opB f))

/-- CLZ (R89). -/
def execClz (r : IssueRef) (f : Fields) (s : State) : Res :=
  issue s r 0x0 0x13 f (fun s _ => s.alu r f (fun h => BitVec.ofNat 64 (clzN (h.opA f).toNat 64)))

/-- POPC (R89). -/
def execPopc (r : IssueRef) (f : Fields) (s : State) : Res :=
  issue s r 0x0 0x14 f (fun s _ => s.alu r f (fun h => BitVec.ofNat 64 (popN (h.opA f).toNat 64)))

/-- MOVI (R89). -/
def execMovi (r : IssueRef) (f : Fields) (s : State) : Res :=
  issue s r 0x0 0x15 f (fun s _ => s.alu r f (fun _ => immS f))

/-- MOVHI (R89). -/
def execMovhi (r : IssueRef) (f : Fields) (s : State) : Res :=
  issue s r 0x0 0x16 f (fun s _ => s.alu r f (fun h => f.imm ++ (h.sr f.d).extractLsb 31 0))

/-- RDTID (R89): the thread's own TID. -/
def execRdtid (r : IssueRef) (f : Fields) (s : State) : Res :=
  issue s r 0x0 0x18 f (fun s _ => s.alu r f (fun _ => BitVec.ofNat 64 r.tid))

/-- RDTHR (R89): the thread's own number. -/
def execRdthr (r : IssueRef) (f : Fields) (s : State) : Res :=
  issue s r 0x0 0x19 f (fun s _ => s.alu r f (fun _ => BitVec.ofNat 64 r.thr))

/-- RDSSN (R89): the context's SSN. -/
def execRdssn (r : IssueRef) (f : Fields) (s : State) : Res :=
  issue s r 0x0 0x1A f (fun s c => s.alu r f (fun _ => (s.ctx c).run.ssn.zeroExtend 64))

/-- RDHT (R89): HT in ns at issue. -/
def execRdht (r : IssueRef) (f : Fields) (s : State) : Res :=
  issue s r 0x0 0x1B f (fun s _ => s.alu r f (fun _ => s.ht.now))

end Sys2Proof.Machine
end

