-- ==== Sys2Proof/Machine/Dispatch.lean ====
section
/-!
DEFINITION. Each command's meaning, one arm per constructor.
-/

namespace Sys2Proof.Machine

def exec (i : Instr) (s : State) : Host.Outcome State Fault Refusal :=
  match i with
  | .add r f => Sys2Proof.Machine.execAdd r f s
  | .sub r f => Sys2Proof.Machine.execSub r f s
  | .and r f => Sys2Proof.Machine.execAnd r f s
  | .or r f => Sys2Proof.Machine.execOr r f s
  | .xor r f => Sys2Proof.Machine.execXor r f s
  | .shl r f => Sys2Proof.Machine.execShl r f s
  | .shr r f => Sys2Proof.Machine.execShr r f s
  | .sra r f => Sys2Proof.Machine.execSra r f s
  | .mul r f => Sys2Proof.Machine.execMul r f s
  | .mulhu r f => Sys2Proof.Machine.execMulhu r f s
  | .mulhs r f => Sys2Proof.Machine.execMulhs r f s
  | .min r f => Sys2Proof.Machine.execMin r f s
  | .max r f => Sys2Proof.Machine.execMax r f s
  | .minu r f => Sys2Proof.Machine.execMinu r f s
  | .maxu r f => Sys2Proof.Machine.execMaxu r f s
  | .slt r f => Sys2Proof.Machine.execSlt r f s
  | .sltu r f => Sys2Proof.Machine.execSltu r f s
  | .seq r f => Sys2Proof.Machine.execSeq r f s
  | .sel r f => Sys2Proof.Machine.execSel r f s
  | .clz r f => Sys2Proof.Machine.execClz r f s
  | .popc r f => Sys2Proof.Machine.execPopc r f s
  | .movi r f => Sys2Proof.Machine.execMovi r f s
  | .movhi r f => Sys2Proof.Machine.execMovhi r f s
  | .rdtid r f => Sys2Proof.Machine.execRdtid r f s
  | .rdthr r f => Sys2Proof.Machine.execRdthr r f s
  | .rdssn r f => Sys2Proof.Machine.execRdssn r f s
  | .rdht r f => Sys2Proof.Machine.execRdht r f s
  | .beq r f => Sys2Proof.Machine.execBeq r f s
  | .bne r f => Sys2Proof.Machine.execBne r f s
  | .blt r f => Sys2Proof.Machine.execBlt r f s
  | .bge r f => Sys2Proof.Machine.execBge r f s
  | .bltu r f => Sys2Proof.Machine.execBltu r f s
  | .bgeu r f => Sys2Proof.Machine.execBgeu r f s
  | .j r f => Sys2Proof.Machine.execJ r f s
  | .jal r f => Sys2Proof.Machine.execJal r f s
  | .jr r f => Sys2Proof.Machine.execJr r f s
  | .ld8 r f => Sys2Proof.Machine.execLd8 r f s
  | .ld16 r f => Sys2Proof.Machine.execLd16 r f s
  | .ld32 r f => Sys2Proof.Machine.execLd32 r f s
  | .ld64 r f => Sys2Proof.Machine.execLd64 r f s
  | .lds8 r f => Sys2Proof.Machine.execLds8 r f s
  | .lds16 r f => Sys2Proof.Machine.execLds16 r f s
  | .lds32 r f => Sys2Proof.Machine.execLds32 r f s
  | .st8 r f => Sys2Proof.Machine.execSt8 r f s
  | .st16 r f => Sys2Proof.Machine.execSt16 r f s
  | .st32 r f => Sys2Proof.Machine.execSt32 r f s
  | .st64 r f => Sys2Proof.Machine.execSt64 r f s
  | .vld r f => Sys2Proof.Machine.execVld r f s
  | .vst r f => Sys2Proof.Machine.execVst r f s
  | .vfma r f => Sys2Proof.Machine.execVfma r f s
  | .vadd r f => Sys2Proof.Machine.execVadd r f s
  | .vsub r f => Sys2Proof.Machine.execVsub r f s
  | .vmul r f => Sys2Proof.Machine.execVmul r f s
  | .vmax r f => Sys2Proof.Machine.execVmax r f s
  | .vmin r f => Sys2Proof.Machine.execVmin r f s
  | .vbcast r f => Sys2Proof.Machine.execVbcast r f s
  | .vcvt r f => Sys2Proof.Machine.execVcvt r f s
  | .vreds r f => Sys2Proof.Machine.execVreds r f s
  | .vredm r f => Sys2Proof.Machine.execVredm r f s
  | .vext r f => Sys2Proof.Machine.execVext r f s
  | .qput r f => Sys2Proof.Machine.execQput r f s
  | .qget r f => Sys2Proof.Machine.execQget r f s
  | .qwait r f => Sys2Proof.Machine.execQwait r f s
  | .send r f => Sys2Proof.Machine.execSend r f s
  | .sendw r f => Sys2Proof.Machine.execSendw r f s
  | .recv r f => Sys2Proof.Machine.execRecv r f s
  | .poll r f => Sys2Proof.Machine.execPoll r f s
  | .fset r f => Sys2Proof.Machine.execFset r f s
  | .fclr r f => Sys2Proof.Machine.execFclr r f s
  | .fwait r f => Sys2Proof.Machine.execFwait r f s
  | .fwaitc r f => Sys2Proof.Machine.execFwaitc r f s
  | .fence r f => Sys2Proof.Machine.execFence r f s
  | .cjob r f => Sys2Proof.Machine.execCjob r f s
  | .sopen r f => Sys2Proof.Machine.execSopen r f s
  | .swait r f => Sys2Proof.Machine.execSwait r f s
  | .srelease r f => Sys2Proof.Machine.execSrelease r f s
  | .updSplit r f => Sys2Proof.Machine.execUpdSplit r f s
  | .sync r f => Sys2Proof.Machine.execSync r f s
  | .halt r f => Sys2Proof.Machine.execHalt r f s
  | .nop r f => Sys2Proof.Machine.execNop r f s
  | .coreDataReplay r => Sys2Proof.Machine.execCoreDataReplay r s
  | .dmaReplay tid unit cyc => Sys2Proof.Machine.execDmaReplay tid unit cyc s
  | .tileArrival tid => Sys2Proof.Machine.execTileArrival tid s
  | .txPrefetch port entry => Sys2Proof.Machine.execTxPrefetch port entry s
  | .exchangeListRead tid cyc => Sys2Proof.Machine.execExchangeListRead tid cyc s
  | .barrierComplete c => Sys2Proof.Machine.execBarrierComplete c s
  | .thsArriveReceive port a b => Sys2Proof.Machine.execThsArriveReceive port a b s
  | .thsCompleteReceive port a b => Sys2Proof.Machine.execThsCompleteReceive port a b s
  | .computeOverrun c => Sys2Proof.Machine.execComputeOverrun c s
  | .exchangePhaseStart c => Sys2Proof.Machine.execExchangePhaseStart c s
  | .exchangeUnitSend tid entry k => Sys2Proof.Machine.execExchangeUnitSend tid entry k s
  | .exchangeUnitHop u => Sys2Proof.Machine.execExchangeUnitHop u s
  | .exchangeUnitArrival u => Sys2Proof.Machine.execExchangeUnitArrival u s
  | .exchangeUnitMissing tid entry k => Sys2Proof.Machine.execExchangeUnitMissing tid entry k s
  | .exchangePhaseEnd c => Sys2Proof.Machine.execExchangePhaseEnd c s
  | .watchStepClose die slot => Sys2Proof.Machine.execWatchStepClose die slot s
  | .haltTakesEffect c => Sys2Proof.Machine.execHaltTakesEffect c s
  | .clusterClockStart cid => Sys2Proof.Machine.execClusterClockStart cid s
  | .cloverJobStart cid eng => Sys2Proof.Machine.execCloverJobStart cid eng s
  | .cloverOutputTileStart cid eng => Sys2Proof.Machine.execCloverOutputTileStart cid eng s
  | .cloverFeedWindow cid lane win cyc => Sys2Proof.Machine.execCloverFeedWindow cid lane win cyc s
  | .cloverWavefrontComplete cid eng => Sys2Proof.Machine.execCloverWavefrontComplete cid eng s
  | .cloverDrainWrite cid eng row unit => Sys2Proof.Machine.execCloverDrainWrite cid eng row unit s
  | .cloverTileDrainComplete cid eng => Sys2Proof.Machine.execCloverTileDrainComplete cid eng s
  | .cloverJobComplete cid eng => Sys2Proof.Machine.execCloverJobComplete cid eng s
  | .queueRequestComplete tid q => Sys2Proof.Machine.execQueueRequestComplete tid q s
  | .streamBlockStart tid h => Sys2Proof.Machine.execStreamBlockStart tid h s
  | .dmaUnitMove tid unit cyc hbmErr => Sys2Proof.Machine.execDmaUnitMove tid unit cyc hbmErr s
  | .streamBlockComplete tid h => Sys2Proof.Machine.execStreamBlockComplete tid h s
  | .lateConsumer tid thr => Sys2Proof.Machine.execLateConsumer tid thr s
  | .messageArrival tid thr => Sys2Proof.Machine.execMessageArrival tid thr s
  | .messageReplyArrival tid thr => Sys2Proof.Machine.execMessageReplyArrival tid thr s
  | .sendwRetry tid thr => Sys2Proof.Machine.execSendwRetry tid thr s
  | .msgRetryExhausted tid thr => Sys2Proof.Machine.execMsgRetryExhausted tid thr s
  | .msgRecvTimeout tid thr => Sys2Proof.Machine.execMsgRecvTimeout tid thr s
  | .flagRequestArrival q => Sys2Proof.Machine.execFlagRequestArrival q s
  | .flagEvaluation g => Sys2Proof.Machine.execFlagEvaluation g s
  | .flagTimeout tid thr => Sys2Proof.Machine.execFlagTimeout tid thr s
  | .slotStart port entry => Sys2Proof.Machine.execSlotStart port entry s
  | .frameTransmit port => Sys2Proof.Machine.execFrameTransmit port s
  | .slotSuspend port entry => Sys2Proof.Machine.execSlotSuspend port entry s
  | .slotTail port => Sys2Proof.Machine.execSlotTail port s
  | .frameReceive port x uncorr => Sys2Proof.Machine.execFrameReceive port x uncorr s
  | .ackSend port => Sys2Proof.Machine.execAckSend port s
  | .ackReceive port x => Sys2Proof.Machine.execAckReceive port x s
  | .nakReceive port x => Sys2Proof.Machine.execNakReceive port x s
  | .replayStart port => Sys2Proof.Machine.execReplayStart port s
  | .blockReceive port x fec => Sys2Proof.Machine.execBlockReceive port x fec s
  | .channelUnitForm port chan unit => Sys2Proof.Machine.execChannelUnitForm port chan unit s
  | .reduceDeadline port chan => Sys2Proof.Machine.execReduceDeadline port chan s
  | .digestReceive port x => Sys2Proof.Machine.execDigestReceive port x s
  | .tsExchangeStart sub => Sys2Proof.Machine.execTsExchangeStart sub s
  | .tsReqReceive port x t2 t3 => Sys2Proof.Machine.execTsReqReceive port x t2 t3 s
  | .tsRespReceive port x => Sys2Proof.Machine.execTsRespReceive port x s
  | .tsFupReceive port x sub => Sys2Proof.Machine.execTsFupReceive port x sub s
  | .htLock => Sys2Proof.Machine.execHtLock s
  | .parentSelect => Sys2Proof.Machine.execParentSelect s
  | .holdoverRestrictionEnd => Sys2Proof.Machine.execHoldoverRestrictionEnd s
  | .holdoverBoundStep => Sys2Proof.Machine.execHoldoverBoundStep s
  | .treeSend => Sys2Proof.Machine.execTreeSend s
  | .treeReceive port x => Sys2Proof.Machine.execTreeReceive port x s
  | .hallTimeSet r w => Sys2Proof.Machine.execHallTimeSet r w s
  | .htPpsInEdge => Sys2Proof.Machine.execHtPpsInEdge s
  | .htPpsOutPulse => Sys2Proof.Machine.execHtPpsOutPulse s
  | .signalDetect port => Sys2Proof.Machine.execSignalDetect port s
  | .trainingComplete port lanes skew => Sys2Proof.Machine.execTrainingComplete port lanes skew s
  | .trainTimeout port => Sys2Proof.Machine.execTrainTimeout port s
  | .alignComplete port txd rxd cal => Sys2Proof.Machine.execAlignComplete port txd rxd cal s
  | .lossOfSignal port => Sys2Proof.Machine.execLossOfSignal port s
  | .laneLockLoss port lane => Sys2Proof.Machine.execLaneLockLoss port lane s
  | .goingAwayReceive port x => Sys2Proof.Machine.execGoingAwayReceive port x s
  | .doorbell r v => Sys2Proof.Machine.execDoorbell r v s
  | .ringEnable r v => Sys2Proof.Machine.execRingEnable r v s
  | .ringDisable r v => Sys2Proof.Machine.execRingDisable r v s
  | .nopCommand r w => Sys2Proof.Machine.execNopCommand r w s
  | .identify r w => Sys2Proof.Machine.execIdentify r w s
  | .configApply r w => Sys2Proof.Machine.execConfigApply r w s
  | .configApplyComplete => Sys2Proof.Machine.execConfigApplyComplete s
  | .configRead r w => Sys2Proof.Machine.execConfigRead r w s
  | .partCreate r w => Sys2Proof.Machine.execPartCreate r w s
  | .partDestroy r w => Sys2Proof.Machine.execPartDestroy r w s
  | .ctxCreate r w => Sys2Proof.Machine.execCtxCreate r w s
  | .ctxTeardown r w => Sys2Proof.Machine.execCtxTeardown r w s
  | .ctxReset r w => Sys2Proof.Machine.execCtxReset r w s
  | .drainComplete c => Sys2Proof.Machine.execDrainComplete c s
  | .scrubComplete c => Sys2Proof.Machine.execScrubComplete c s
  | .loadSegment r w => Sys2Proof.Machine.execLoadSegment r w s
  | .relocate r w => Sys2Proof.Machine.execRelocate r w s
  | .patch r w => Sys2Proof.Machine.execPatch r w s
  | .start r w => Sys2Proof.Machine.execStart r w s
  | .haltCommand r w => Sys2Proof.Machine.execHaltCommand r w s
  | .resume r w => Sys2Proof.Machine.execResume r w s
  | .dmaHost r w => Sys2Proof.Machine.execDmaHost r w s
  | .dmaHostComplete r => Sys2Proof.Machine.execDmaHostComplete r s
  | .windowOpen r w => Sys2Proof.Machine.execWindowOpen r w s
  | .windowClose r w => Sys2Proof.Machine.execWindowClose r w s
  | .flagSet r w => Sys2Proof.Machine.execFlagSet r w s
  | .flagRead r w => Sys2Proof.Machine.execFlagRead r w s
  | .scratchSample r w => Sys2Proof.Machine.execScratchSample r w s
  | .sampleComplete c => Sys2Proof.Machine.execSampleComplete c s
  | .eventRead r w => Sys2Proof.Machine.execEventRead r w s
  | .eventAck r w => Sys2Proof.Machine.execEventAck r w s
  | .powerMode r w => Sys2Proof.Machine.execPowerMode r w s
  | .powerModeComplete => Sys2Proof.Machine.execPowerModeComplete s
  | .bankPower r w => Sys2Proof.Machine.execBankPower r w s
  | .bankOffComplete cid grp => Sys2Proof.Machine.execBankOffComplete cid grp s
  | .bankOffTimeout cid grp => Sys2Proof.Machine.execBankOffTimeout cid grp s
  | .bankOnComplete cid grp => Sys2Proof.Machine.execBankOnComplete cid grp s
  | .lifecycle r w => Sys2Proof.Machine.execLifecycle r w s
  | .lock r w => Sys2Proof.Machine.execLock r w s
  | .linkControl r w => Sys2Proof.Machine.execLinkControl r w s
  | .resetEscalate r w => Sys2Proof.Machine.execResetEscalate r w s
  | .fwUpdate r w => Sys2Proof.Machine.execFwUpdate r w s
  | .functionLevelReset pf => Sys2Proof.Machine.execFunctionLevelReset pf s
  | .bar4Access pf off a => Sys2Proof.Machine.execBar4Access pf off a s
  | .bar0LowWordRead pf a => Sys2Proof.Machine.execBar0LowWordRead pf a s
  | .registerWrite who bar off v => Sys2Proof.Machine.execRegisterWrite who bar off v s
  | .mmuInval pf die v => Sys2Proof.Machine.execMmuInval pf die v s
  | .mmuInvalComplete die => Sys2Proof.Machine.execMmuInvalComplete die s
  | .mmuFaultResume pf die rec v => Sys2Proof.Machine.execMmuFaultResume pf die rec v s
  | .mmuFaultAbort pf die rec v => Sys2Proof.Machine.execMmuFaultAbort pf die rec v s
  | .numWctlClear pf die slot v => Sys2Proof.Machine.execNumWctlClear pf die slot v s
  | .msixModerationTimeout pf vec => Sys2Proof.Machine.execMsixModerationTimeout pf vec s
  | .msixUnmask pf vec => Sys2Proof.Machine.execMsixUnmask pf vec s
  | .pcieL1Entry => Sys2Proof.Machine.execPcieL1Entry s
  | .d3hotEntry pf pmeEn => Sys2Proof.Machine.execD3hotEntry pf pmeEn s
  | .d0Return pf => Sys2Proof.Machine.execD0Return pf s
  | .pmeTurnOff => Sys2Proof.Machine.execPmeTurnOff s
  | .eventRaise die src x => Sys2Proof.Machine.execEventRaise die src x s
  | .stormWindow => Sys2Proof.Machine.execStormWindow s
  | .evcClaim die => Sys2Proof.Machine.execEvcClaim die s
  | .evcEoi die => Sys2Proof.Machine.execEvcEoi die s
  | .evcHoldSet die => Sys2Proof.Machine.execEvcHoldSet die s
  | .evcHoldRelease die => Sys2Proof.Machine.execEvcHoldRelease die s
  | .latchTransfer die latch => Sys2Proof.Machine.execLatchTransfer die latch s
  | .logAppend => Sys2Proof.Machine.execLogAppend s
  | .pageCommitTimer => Sys2Proof.Machine.execPageCommitTimer s
  | .pageProgramComplete => Sys2Proof.Machine.execPageProgramComplete s
  | .powerUp => Sys2Proof.Machine.execPowerUp s
  | .bootSample boot => Sys2Proof.Machine.execBootSample boot s
  | .perstEdge => Sys2Proof.Machine.execPerstEdge s
  | .perstRise => Sys2Proof.Machine.execPerstRise s
  | .powerFail => Sys2Proof.Machine.execPowerFail s
  | .pfRise => Sys2Proof.Machine.execPfRise s
  | .railLoss => Sys2Proof.Machine.execRailLoss s
  | .idleEntry => Sys2Proof.Machine.execIdleEntry s
  | .standbyEntry => Sys2Proof.Machine.execStandbyEntry s
  | .standbyWake => Sys2Proof.Machine.execStandbyWake s
  | .throttleStep t power => Sys2Proof.Machine.execThrottleStep t power s
  | .throttleApply cid => Sys2Proof.Machine.execThrottleApply cid s
  | .tripClear t => Sys2Proof.Machine.execTripClear t s
  | .ssWatchdog c => Sys2Proof.Machine.execSsWatchdog c s
  | .engineHang eng => Sys2Proof.Machine.execEngineHang eng s
  | .resetBudgetExpiry q => Sys2Proof.Machine.execResetBudgetExpiry q s
  | .tileFence tid => Sys2Proof.Machine.execTileFence tid s
  | .resetComplete q => Sys2Proof.Machine.execResetComplete q s
  | .hallTimeSetTimeout => Sys2Proof.Machine.execHallTimeSetTimeout s
  | .fwUpdateComplete flashFail => Sys2Proof.Machine.execFwUpdateComplete flashFail s
  | .clusterGating cid => Sys2Proof.Machine.execClusterGating cid s

end Sys2Proof.Machine
end

