-- ==== Sys2Proof/Safety.lean ====
section
/-!
DEFINITION. What counts as a safe step, and the terms in which the statements speak: when an instruction
issues, when a command is accepted, what a result leaves as it was, and the invariants. -/

namespace Sys2Proof

/-- A step that neither faults nor refuses. -/
def safeStep (s : Machine.State) : Bool :=
  match Machine.step s with
  | .next _ => true
  | .fault _ => false
  | .refused _ => false

namespace Machine

/-- An outcome is a next state of which `P` holds. -/
def Yields (o : Res) (P : State → Prop) : Prop := ∃ t, o = .next t ∧ P t

/-! ### Tile instructions -/

/-- The PC of the thread that issues. -/
def pcOf (s : State) (r : IssueRef) : W64 := (s.thread r.tid r.thr).pc

/-- An instruction issues (R83, R85 to R88, R90, R101 to R104): the thread has its slot and is not held, its
PC can be fetched from, the fetch passes the checks and finds its bank free of every request of higher
priority, and the word fetched is the legal word of the class, the operation and the fields. -/
structure Ready (s : State) (r : IssueRef) (cls op : Nat) (f : Fields) (c : CtxRef) : Prop where
  unit   : r.ok = true
  slot   : s.canIssue r = some c
  unheld : (s.thread r.tid r.thr).wait = .none
  pc     : pcOk (pcOf s r) = true
  access : s.checkAccess r.tid r.cyc (pcOf s r).toNat 8 false none = none
  bank   : s.bankFree r.tid r.cyc prioFetch (narrowMask (pcOf s r).toNat) = true
  word   : s.wordAt r.tid (pcOf s r).toNat = encodeWord cls op f
  legal  : legalWord (encodeWord cls op f) (fun d => partOfDie s.layout d = c.part) = true

/-- The state after the fetch: the issue slot has passed, the bank is granted, and the core's progress monitor
begins anew. -/
def Issued (s : State) (r : IssueRef) : State :=
  (s.passSlot r).setTile r.tid { ((s.passSlot r).tile r.tid).grant r.cyc prioFetch (narrowMask (pcOf s r).toNat) with pmAt := none }

/-- The banks and the priority of a core data access (R102). -/
def dataMask (wide : Bool) (a : Nat) : BitVec 12 := if wide then wideMask a else narrowMask a
def dataPrio (wide : Bool) : Nat := if wide then prioWide else prioNarrow

/-- A data access made in an issue slot passes the checks and finds its banks free in its tile cycle, in the
state `s` that the slot has reached (R102, R103, R140, R190, R202). -/
structure DataFree (s : State) (r : IssueRef) (wide wr : Bool) (a n : Nat) : Prop where
  access : s.checkAccess r.tid (r.cyc + 4) a n wr none = none
  bank   : s.bankFree r.tid (r.cyc + 4) (dataPrio wide) (dataMask wide a) = true

/-- The state after the grant of a data access. -/
def Granted (s : State) (r : IssueRef) (wide : Bool) (a : Nat) : State :=
  (s.setTile r.tid ((s.tile r.tid).grant (r.cyc + 4) (dataPrio wide) (dataMask wide a))).modThread r.tid r.thr (fun h => { h with wait := .none })

/-- The first data access of an issued instruction finds its banks free. -/
abbrev DataReady (s : State) (r : IssueRef) (wide wr : Bool) (a n : Nat) : Prop := DataFree (Issued s r) r wide wr a n

/-- The state after the fetch and the grant of the first data access. -/
def Staged (s : State) (r : IssueRef) (wide : Bool) (a : Nat) : State := Granted (Issued s r) r wide a

/-- A thread whose instruction holds it before its access `k` has its issue slot again and may make that
access (R98, R103, R131, R184, R210, R214). -/
structure HeldAt (s : State) (r : IssueRef) (op : DataOp) (f : Fields) (k : Nat) (got : List Byte) (c : CtxRef) : Prop where
  unit : r.ok = true
  slot : s.canIssue r = some c
  held : (s.thread r.tid r.thr).wait = .replay op f k got
  may  : s.mayReplay r op k = true

/-- Only one tile of the module differs. -/
structure OnlyTile (s t : State) (tid : Nat) : Prop where
  rest   : t = { s with tiles := t.tiles }
  others : ∀ k, k ≠ tid → t.tile k = s.tile k

/-- Only the thread differs, and in its tile the record of issue slots, bank grants and progress: every other
thread, every register of another thread, the tile's memory, flags, queues, handles, store and exchange unit,
every other tile and the rest of the module are as before. -/
structure OnlyThread (s t : State) (r : IssueRef) : Prop where
  tile    : OnlyTile s t r.tid
  inTile  : t.tile r.tid = { s.tile r.tid with thr := (t.tile r.tid).thr, grants := (t.tile r.tid).grants, issueAt := (t.tile r.tid).issueAt,
                                               pmAt := (t.tile r.tid).pmAt }
  threads : ∀ n, n ≠ r.thr → t.thread r.tid n = s.thread r.tid n

/-- The instruction has written `v` to sD and moved on: s0 keeps reading 0, every other register is as before. -/
structure Wrote (s t : State) (r : IssueRef) (d : BitVec 5) (v : W64) : Prop where
  frame  : OnlyThread s t r
  scalar : ∀ n, (t.thread r.tid r.thr).sr n = if n = d ∧ n ≠ 0 then v else (s.thread r.tid r.thr).sr n
  vector : ∀ n, (t.thread r.tid r.thr).vr n = (s.thread r.tid r.thr).vr n
  pc     : pcOf t r = pcOf s r + 8
  runs   : (t.thread r.tid r.thr).st = .runnable ∧ (t.thread r.tid r.thr).wait = .none

/-- The instruction has written `v` to vD and moved on. -/
structure WroteV (s t : State) (r : IssueRef) (d : BitVec 5) (v : W256) : Prop where
  frame  : OnlyThread s t r
  scalar : ∀ n, (t.thread r.tid r.thr).sr n = (s.thread r.tid r.thr).sr n
  vector : ∀ n, (t.thread r.tid r.thr).vr n = if n = d then v else (s.thread r.tid r.thr).vr n
  pc     : pcOf t r = pcOf s r + 8
  runs   : (t.thread r.tid r.thr).st = .runnable ∧ (t.thread r.tid r.thr).wait = .none

/-- The instruction has written no register and its thread goes on at `a`. -/
structure WentTo (s t : State) (r : IssueRef) (a : W64) : Prop where
  frame  : OnlyThread s t r
  scalar : ∀ n, (t.thread r.tid r.thr).sr n = (s.thread r.tid r.thr).sr n
  vector : ∀ n, (t.thread r.tid r.thr).vr n = (s.thread r.tid r.thr).vr n
  pc     : pcOf t r = a
  runs   : (t.thread r.tid r.thr).st = .runnable ∧ (t.thread r.tid r.thr).wait = .none

/-- The instruction has stored the bytes `bs` at `a` in its tile and moved on: every byte outside them, every
register, every other thread, the rest of the tile and of the module are as before. -/
structure StoredAt (s t : State) (r : IssueRef) (a : Nat) (bs : List Byte) : Prop where
  tile    : OnlyTile s t r.tid
  inTile  : t.tile r.tid = { s.tile r.tid with thr := (t.tile r.tid).thr, grants := (t.tile r.tid).grants, issueAt := (t.tile r.tid).issueAt,
                                               pmAt := (t.tile r.tid).pmAt, sram := (t.tile r.tid).sram }
  threads : ∀ n, n ≠ r.thr → t.thread r.tid n = s.thread r.tid n
  scalar  : ∀ n, (t.thread r.tid r.thr).sr n = (s.thread r.tid r.thr).sr n
  vector  : ∀ n, (t.thread r.tid r.thr).vr n = (s.thread r.tid r.thr).vr n
  pc      : pcOf t r = pcOf s r + 8
  runs    : (t.thread r.tid r.thr).st = .runnable ∧ (t.thread r.tid r.thr).wait = .none
  inside  : ∀ i (h : i < bs.length), t.sramByte r.tid (a + i) = bs[i]
  outside : ∀ b, b < a ∨ a + bs.length ≤ b → t.sramByte r.tid b = s.sramByte r.tid b

/-- Only the thread differs, and it waits at its instruction. -/
structure WaitsAt (s t : State) (r : IssueRef) (w : Wait) : Prop where
  frame  : OnlyThread s t r
  scalar : ∀ n, (t.thread r.tid r.thr).sr n = (s.thread r.tid r.thr).sr n
  vector : ∀ n, (t.thread r.tid r.thr).vr n = (s.thread r.tid r.thr).vr n
  pc     : pcOf t r = pcOf s r
  waits  : (t.thread r.tid r.thr).st = .blocked ∧ (t.thread r.tid r.thr).wait = w

/-! ### Host commands -/

/-- A host command is taken in its ring's turn and passes checks 1 to 6 of R322. -/
structure Accepted (s : State) (r : RingRef) (w : CmdWords) (k : CmdSpec) : Prop where
  unit  : r.ok = true
  takes : s.canTake r = true
  op    : bits w.w0.toNat 7 0 = k.op
  turn  : s.atTurn r = true
  wait  : s.resourceWait r.pf w = false
  pass  : (s.take r w).precheck r.pf w k = none

/-- A host command is taken and passes checks 1 to 7 of R322: it names the context slot `c`. -/
structure AcceptedCtx (s : State) (r : RingRef) (w : CmdWords) (k : CmdSpec) (c : CtxRef) : Prop where
  base : Accepted s r w { k with cxh := true }
  ctx  : (s.take r w).checkCxh r.pf (BitVec.ofNat 16 (bits w.w0.toNat 31 16)) = some c

/-! ### Invariants -/

/-- Every memory is in its canonical form: HBM, host memory and the SRAM of every tile. -/
structure MemoryOk (s : State) : Prop where
  hbm  : Memory.wf s.hbm = true
  host : Memory.wf s.hostMem = true
  sram : ∀ k, Memory.wf (s.tile k).sram = true

/-- The clusters of the contexts (R34, R35, R37, R39): a free slot has none; a context's are enabled and lie
in its partition, which exists; no two contexts share one. -/
structure OwnersOk (s : State) : Prop where
  free   : ∀ c : CtxRef, c.ok = true → (s.ctx c).st = .free → (s.ctx c).clusters = 0
  inside : ∀ (c : CtxRef) (i : Nat), c.ok = true → (s.ctx c).clusters.getLsbD i = true →
    partOfDie s.layout (dieOfCid i) = c.part ∧ s.partExists c.part = true ∧ s.enabled i = true
  apart  : ∀ (c d : CtxRef) (i : Nat), c.ok = true → d.ok = true → (s.ctx c).clusters.getLsbD i = true →
    (s.ctx d).clusters.getLsbD i = true → c = d

end Machine

end Sys2Proof
end

