-- ==== Sys2Proof/Certificates/Slice0/Obligations.lean ====
section
/-!
DEFINITION. The statements for the provers. A statement joins clauses that are defined first, each over the
rules that its docstring names. -/

namespace Sys2Proof.Claims

open Sys2Proof.Machine

/-! ### Steps -/

/-- A step runs the command at the front of the queue on the state with the rest of the queue. -/
def StepRunsFrontCommand : Prop :=
  ∀ (c : Instr) (cs : List Instr) (s : State), s.pending = c :: cs → step s = exec c { s with pending := cs }

/-- On an empty queue a powered module idles for one nanosecond of hall time, and an unpowered one does
nothing (the model's choice, log entry 1): where no event waits on a land (log entry 55) and no miss of the
nanosecond waits for its end (R60), no memory, thread, context, fuse or log record changes, and of a tile
nothing but the time from which its progress monitor counts (R365). -/
def EmptyQueueIdles : Prop :=
  ∀ s : State, s.pending = [] →
    (s.plat.powered = false → step s = .next s) ∧
    (s.plat.powered = true → ∃ t, step s = .next t ∧ t.ht.now = s.ht.now + 1 ∧ t.pending = [] ∧ t.fuses = s.fuses ∧ t.layout = s.layout ∧
      t.parts = s.parts ∧ t.cfg = s.cfg ∧ t.resets = s.resets) ∧
    (s.plat.powered = true → s.pins = [] → (∀ c ∈ allCtx, (s.ctx c).run.instant = []) → Yields (step s) (fun t =>
      (∀ k, t.tile k = { s.tile k with pmAt := (t.tile k).pmAt }) ∧ t.ctxs = s.ctxs ∧ t.hbm = s.hbm ∧ t.hostMem = s.hostMem ∧ t.log = s.log))

/-- R60: the conditions that a Strict context has met in a nanosecond with MISS_ACT = 1 act as it ends, also
where the context has faulted otherwise in it: each die that met one records one miss with all its causes and
the largest of its overruns, and the context is FAULTED, with the causes of all dies in its fault records. -/
def InstantMissesFault : Prop :=
  ∀ (s : State) (c : CtxRef), c.ok = true → s.plat.powered = true → s.pending = [] → s.pins = [] →
    ((s.ctx c).st = .running ∨ (s.ctx c).st = .faulted) → (s.ctx c).run.instant ≠ [] → (∀ x ∈ allCtx, x ≠ c → (s.ctx x).run.instant = []) →
    let of_ := fun d => (s.ctx c).run.instant.filter (fun x => x.1 = d)
    (∀ x ∈ (s.ctx c).run.instant, x.1 ∈ (s.ctx c).dies) → (∀ d ∈ (s.ctx c).dies, d ∈ diesOf s.layout c.part) →
    Yields (step s) (fun t =>
      (t.ctx c).st = .faulted ∧ (t.ctx c).run.instant = [] ∧
      ∀ d ∈ (s.ctx c).dies,
        (of_ d = [] → (t.ss d c.slot).nmiss = (s.ss d c.slot).nmiss ∧ (t.ss d c.slot).missInfo = (s.ss d c.slot).missInfo) ∧
        (of_ d ≠ [] → (t.ss d c.slot).nmiss = satAdd (s.ss d c.slot).nmiss 1 ∧
          ((s.ss d c.slot).missInfo.getLsbD 31 = false →
            (t.ss d c.slot).missInfo = BitVec.ofNat 32 (2 ^ 31 + instantBits (of_ d)) ∧ (t.ss d c.slot).missSsn = (s.ctx c).run.ssn ∧
            (t.ss d c.slot).missOver.toNat = min (instantOver (of_ d)) (2 ^ 32 - 1))) ∧
        sget 0 (t.die d).rst.missBits c.slot = BitVec.ofNat 4 (instantBits (s.ctx c).run.instant))

/-- The opcode table gives no row any bits: no word spells a command, and placing one changes nothing. -/
def NoWordSpellsCommand : Prop :=
  ∀ (s : State) (nbits w : Nat), decodeTableWord nbits w = none ∧ s.withFetchWord nbits w = s

/-- Every command that names units the module has answers a next state in every state; every other one faults
with `noSuchUnit` (the model's choice, log 11). -/
def WellFormedCommandsComplete : Prop :=
  ∀ (c : Instr) (s : State),
    (c.wellFormed = true → ∃ t, exec c s = .next t) ∧ (c.wellFormed = false → exec c s = .fault .noSuchUnit)

/-! ### Tile instructions -/

/-- The rational number that a finite value stands for. -/
def rat (x : FVal) : ℚ :=
  match x with
  | .nan => 0
  | .inf _ => 0
  | .fin neg m e => (if neg then -1 else 1) * (m : ℚ) * (2 : ℚ) ^ e

/-- Exponent bits, mantissa bits and bias of the formats (R149, R150), and their largest finite magnitudes. -/
def layouts : List (Nat × Nat × Nat) := [(8, 23, 127), (8, 7, 127), (5, 10, 15), (4, 3, 7), (5, 2, 15), (2, 3, 1), (3, 2, 3)]
def largest : List ℚ := [(2 ^ 24 - 1) * 2 ^ 104, (2 ^ 8 - 1) * 2 ^ 120, 65504, 448, 57344, 15 / 2, 28]

/-- R149, R150, R152, R154: what an encoding stands for, and one rounding of a magnitude x = m × 2^e to a
format's mantissa: to nearest it lies within half of its last place, an even one of two as near; with random
bits b it is x in last places plus b × 2^−32, truncated. A result is normal unless its last place is the
subnormals'. -/
def NumbersAreRounded : Prop :=
  (∀ c v : Nat, c < 7 → v < 2 ^ fmtWidth c → (fDecode c v).finite = true →
    let l := layouts.getD c (0, 0, 0)
    let x := v / 2 ^ l.2.1 % 2 ^ l.1
    let m := v % 2 ^ l.2.1 + (if x = 0 then 0 else 2 ^ l.2.1)
    rat (fDecode c v) = (if v.testBit (l.1 + l.2.1) then -1 else 1) * (m : ℚ) * (2 : ℚ) ^ ((max x 1 : Nat) - (l.2.2 : Int) - (l.2.1 : Int))) ∧
  ∀ (mb m : Nat) (emin e : Int), 0 < m →
    let r := roundMag none mb emin m e
    let x : ℚ := (m : ℚ) * (2 : ℚ) ^ e
    let y : ℚ := (r.1 : ℚ) * (2 : ℚ) ^ r.2
    emin ≤ r.2 ∧ r.1 ≤ 2 ^ (mb + 1) ∧ (r.2 = emin ∨ 2 ^ mb ≤ r.1) ∧ |y - x| ≤ (2 : ℚ) ^ (r.2 - 1) ∧ (|y - x| = (2 : ℚ) ^ (r.2 - 1) → r.1 % 2 = 0) ∧
    ∀ b : Nat, b < 2 ^ 32 → (roundMag (some b) mb emin m e).2 = r.2 ∧
      ((roundMag (some b) mb emin m e).1 : Int) = ⌊x / (2 : ℚ) ^ r.2 + (b : ℚ) / 2 ^ 32⌋

/-- R150, R152, R153: a finite value converted to a format: beyond the largest magnitude FP32, BF16 and FP16 give the
infinity of its sign, the others their largest value, and saturate; a subnormal result of E4M3 or E5M2 is flushed
to the zero of its sign; any other is the rounded value, with its sign, also of zero. NaN gives the format's canonical
NaN, or +0 in FP6; an infinity gives the infinity, in E4M3 NaN, in FP6 the largest value. -/
def ConversionsMeetTheirLimits : Prop :=
  (∀ (c m : Nat) (rnd : Option Nat) (neg : Bool) (e : Int), c < 7 →
    let l := layouts.getD c (0, 0, 0)
    let r := roundMag rnd l.2.1 (1 - (l.2.2 : Int) - (l.2.1 : Int)) m e
    let v : ℚ := (r.1 : ℚ) * (2 : ℚ) ^ r.2
    let big := largest.getD c 0
    let y := fConvert c rnd (.fin neg m e)
    let z := fDecode c y.1
    let sign : ℚ := if neg then -1 else 1
    let flushed := (c = 3 ∨ c = 4) ∧ r.1 < 2 ^ l.2.1
    y.1 < 2 ^ fmtWidth c ∧
    (big < v → c < 3 → y.2 = false ∧ z = .inf neg) ∧ (big < v → 3 ≤ c → y.2 = true ∧ z.finite = true ∧ rat z = sign * big) ∧
    (v ≤ big → flushed → y = ((if neg then 2 ^ (fmtWidth c - 1) else 0), false)) ∧
    (v ≤ big → ¬flushed → y.2 = false ∧ z.finite = true ∧ rat z = sign * v ∧ z.isNeg = neg)) ∧
  (∀ (c : Nat) (rnd : Option Nat), c < 7 → fConvert c rnd .nan = ([0x7FC00000, 0x7FC0, 0x7E00, 0x7F, 0x7E, 0, 0].getD c 0, false)) ∧
  (∀ (c : Nat) (rnd : Option Nat) (neg : Bool), c < 7 →
    let y := fConvert c rnd (.inf neg)
    y.2 = false ∧ (c < 3 ∨ c = 4 → fDecode c y.1 = .inf neg) ∧ (c = 3 → y.1 = 0x7F) ∧
    (c = 5 ∨ c = 6 → (fDecode c y.1).finite = true ∧ rat (fDecode c y.1) = (if neg then -1 else 1) * largest.getD c 0))

/-- R92, R151, R152, R156: sums and products of finite values are exact, a zero sum being +0 but for two zeros
that are both negative; infinities and NaN combine as in IEEE 754; the binary32 operations round the exact
result once to nearest, VFMA once for both of its operations; VCVT converts eight elements and packs them from
lane 0 up. -/
def ArithmeticIsExactThenRounded : Prop :=
  (∀ a b : FVal, a.finite = true → b.finite = true →
    (a.add b).finite = true ∧ rat (a.add b) = rat a + rat b ∧ (a.mul b).finite = true ∧ rat (a.mul b) = rat a * rat b ∧
    (a.mul b).isNeg = (a.isNeg != b.isNeg) ∧ (rat a + rat b = 0 → (a.add b).isNeg = (a.isZero && b.isZero && a.isNeg && b.isNeg)) ∧
    rat a.neg = -rat a ∧ (a.isZero = true ↔ rat a = 0)) ∧
  (∀ a : FVal, FVal.nan.add a = .nan ∧ a.add .nan = .nan ∧ FVal.nan.mul a = .nan ∧ a.mul .nan = .nan) ∧
  (∀ (p q : Bool) (a : FVal), a.finite = true →
    (FVal.inf p).add (.inf q) = (if p = q then .inf p else .nan) ∧ (FVal.inf p).add a = .inf p ∧ a.add (.inf p) = .inf p ∧
    (FVal.inf p).mul (.inf q) = .inf (p != q) ∧ (FVal.inf p).mul a = (if a.isZero then .nan else .inf (p != a.isNeg)) ∧
    a.mul (.inf p) = (if a.isZero then .nan else .inf (a.isNeg != p))) ∧
  (∀ (x : FVal) (a b c : W32), (toF32 x).toNat = (fConvert 0 none x).1 ∧ addF a b = toF32 ((f32 a).add (f32 b)) ∧
    subF a b = toF32 ((f32 a).add (f32 b).neg) ∧ mulF a b = toF32 ((f32 a).mul (f32 b)) ∧
    fmaF a b c = toF32 (((f32 a).mul (f32 b)).add (f32 c))) ∧
  (∀ (src dst : Nat) (v : W256), src < 7 → dst < 7 →
    let n := fmtWidth src
    let k := fmtWidth dst
    (vcvt src dst v).toNat < 2 ^ (8 * k) ∧ ∀ i, i < 8 →
      bits (vcvt src dst v).toNat (k * i + k - 1) (k * i) = (fConvert dst none (fDecode src (bits v.toNat (n * i + n - 1) (n * i)))).1)

/-- R89: what the 27 scalar instructions write to sD. Every other register, thread, tile and part of the
module is as before, and the PC moves by 8. -/
def ScalarInstructionsWrite : Prop :=
  ∀ (s : State) (r : IssueRef) (f : Fields) (c : CtxRef),
    let h := s.thread r.tid r.thr
    let a := h.sr f.a
    let b := h.sr f.b
    let y := if f.mod.getLsbD 0 then f.imm.signExtend 64 else b
    let W := fun (i : IssueRef → Fields → Instr) (op : Nat) (v : W64) =>
      Ready s r 0 op f c → Yields (exec (i r f) s) (fun t => Wrote s t r f.d v)
    W .add 0x00 (a + y) ∧ W .sub 0x01 (a - y) ∧ W .and 0x02 (a &&& y) ∧ W .or 0x03 (a ||| y) ∧ W .xor 0x04 (a ^^^ y) ∧
    W .shl 0x05 (a <<< (y.toNat % 64)) ∧ W .shr 0x06 (a >>> (y.toNat % 64)) ∧ W .sra 0x07 (a.sshiftRight (y.toNat % 64)) ∧
    W .mul 0x08 (a * y) ∧
    W .mulhu 0x09 (BitVec.ofNat 64 (a.toNat * b.toNat / 2 ^ 64)) ∧ W .mulhs 0x0A (BitVec.ofInt 64 (a.toInt * b.toInt / 2 ^ 64)) ∧
    W .min 0x0B (if a.slt y then a else y) ∧ W .max 0x0C (if a.slt y then y else a) ∧
    W .minu 0x0D (if a.ult y then a else y) ∧ W .maxu 0x0E (if a.ult y then y else a) ∧
    W .slt 0x0F (if a.slt y then 1 else 0) ∧ W .sltu 0x10 (if a.ult y then 1 else 0) ∧ W .seq 0x11 (if a = y then 1 else 0) ∧
    W .sel 0x12 (if a = 0 then h.sr f.d else b) ∧
    W .clz 0x13 (BitVec.ofNat 64 (clzN a.toNat 64)) ∧ W .popc 0x14 (BitVec.ofNat 64 (popN a.toNat 64)) ∧
    W .movi 0x15 (f.imm.signExtend 64) ∧ W .movhi 0x16 (f.imm ++ (h.sr f.d).extractLsb 31 0) ∧
    W .rdtid 0x18 (BitVec.ofNat 64 r.tid) ∧ W .rdthr 0x19 (BitVec.ofNat 64 r.thr) ∧
    W .rdssn 0x1A ((s.ctx c).run.ssn.zeroExtend 64) ∧ W .rdht 0x1B s.ht.now

/-- What the counts of leading zeros and of ones are: the meaning of CLZ and POPC (R89) over every word. -/
def BitCountsAreRight : Prop :=
  ∀ x : W64,
    (x = 0 → clzN x.toNat 64 = 64) ∧
    (x ≠ 0 → clzN x.toNat 64 < 64 ∧ x.getLsbD (63 - clzN x.toNat 64) = true ∧ ∀ i, 63 - clzN x.toNat 64 < i → x.getLsbD i = false) ∧
    popN x.toNat 64 = ((List.range 64).filter (fun i => x.getLsbD i)).length

/-- R90: where a branch goes, JAL's link, and JR, whose misaligned target traps at the JR itself. -/
def BranchesGo : Prop :=
  ∀ (s : State) (r : IssueRef) (f : Fields) (c : CtxRef),
    let h := s.thread r.tid r.thr
    let a := h.sr f.a
    let b := h.sr f.b
    let here := pcOf s r
    let target := here + f.imm.signExtend 64 * 8
    let B := fun (i : IssueRef → Fields → Instr) (op : Nat) (p : Prop) =>
      Ready s r 1 op f c →
        (p → Yields (exec (i r f) s) (fun t => WentTo s t r target)) ∧ (¬p → Yields (exec (i r f) s) (fun t => WentTo s t r (here + 8)))
    B .beq 0x00 (a = b) ∧ B .bne 0x01 (a ≠ b) ∧ B .blt 0x02 (a.toInt < b.toInt) ∧ B .bge 0x03 (b.toInt ≤ a.toInt) ∧
    B .bltu 0x04 (a.toNat < b.toNat) ∧ B .bgeu 0x05 (b.toNat ≤ a.toNat) ∧
    (Ready s r 1 0x08 f c → Yields (exec (.j r f) s) (fun t => WentTo s t r target)) ∧
    (Ready s r 1 0x09 f c → Yields (exec (.jal r f) s) (fun t => OnlyThread s t r ∧ pcOf t r = target ∧
      (∀ n, (t.thread r.tid r.thr).sr n = if n = f.d ∧ n ≠ 0 then here + 8 else h.sr n) ∧
      (∀ n, (t.thread r.tid r.thr).vr n = h.vr n))) ∧
    (Ready s r 1 0x0A f c →
      (a.toNat % 8 = 0 → Yields (exec (.jr r f) s) (fun t => WentTo s t r a)) ∧
      (a.toNat % 8 ≠ 0 → exec (.jr r f) s =
        .next ((Issued s r).trap c r.tid r.thr evSramAccess (a.toNat % 2 ^ 18) 0 0)))

/-- R91: a load reads `n` bytes at sA + IMM, zero- or sign-extended into sD; nothing else changes. -/
def LoadsRead : Prop :=
  ∀ (s : State) (r : IssueRef) (f : Fields) (c : CtxRef),
    let a := ((s.thread r.tid r.thr).sr f.a + f.imm.signExtend 64).toNat
    let v := fun n => leNat (s.sramRead r.tid a n)
    let L := fun (i : IssueRef → Fields → Instr) (op n : Nat) (w : W64) =>
      Ready s r 2 op f c → a % n = 0 → a + n ≤ 0x30000 → DataReady s r false false a n →
        Yields (exec (i r f) s) (fun t => Wrote s t r f.d w)
    L .ld8 0x00 1 (BitVec.ofNat 64 (v 1)) ∧ L .ld16 0x01 2 (BitVec.ofNat 64 (v 2)) ∧ L .ld32 0x02 4 (BitVec.ofNat 64 (v 4)) ∧
    L .ld64 0x03 8 (BitVec.ofNat 64 (v 8)) ∧ L .lds8 0x04 1 ((BitVec.ofNat 8 (v 1)).signExtend 64) ∧
    L .lds16 0x05 2 ((BitVec.ofNat 16 (v 2)).signExtend 64) ∧ L .lds32 0x06 4 ((BitVec.ofNat 32 (v 4)).signExtend 64)

/-- R91: a store writes the low `n` bytes of sB at sA + IMM; every other byte, register, thread and tile is as
before. -/
def StoresWrite : Prop :=
  ∀ (s : State) (r : IssueRef) (f : Fields) (c : CtxRef), Memory.wf (s.tile r.tid).sram = true →
    let a := ((s.thread r.tid r.thr).sr f.a + f.imm.signExtend 64).toNat
    let S := fun (i : IssueRef → Fields → Instr) (op n : Nat) =>
      Ready s r 2 op f c → a % n = 0 → a + n ≤ 0x30000 → DataReady s r false true a n →
        Yields (exec (i r f) s) (fun t => StoredAt s t r a (toLE n ((s.thread r.tid r.thr).sr f.b).toNat))
    S .st8 0x08 1 ∧ S .st16 0x09 2 ∧ S .st32 0x0A 4 ∧ S .st64 0x0B 8

/-- R92: VLD reads 32 bytes into vD and VST writes the 32 bytes of vB, at sA + IMM. -/
def VectorMemory : Prop :=
  ∀ (s : State) (r : IssueRef) (f : Fields) (c : CtxRef), Memory.wf (s.tile r.tid).sram = true →
    let a := ((s.thread r.tid r.thr).sr f.a + f.imm.signExtend 64).toNat
    (Ready s r 3 0x00 f c → a % 32 = 0 → a + 32 ≤ 0x30000 → DataReady s r true false a 32 →
      Yields (exec (.vld r f) s) (fun t => WroteV s t r f.d (BitVec.ofNat 256 (leNat (s.sramRead r.tid a 32))))) ∧
    (Ready s r 3 0x01 f c → a % 32 = 0 → a + 32 ≤ 0x30000 → DataReady s r true true a 32 →
      Yields (exec (.vst r f) s) (fun t => StoredAt s t r a (toLE 32 ((s.thread r.tid r.thr).vr f.b).toNat)))

/-- R88, R91, R92, R112, R190, R202: where an issued load or store of `n` bytes at sA + IMM stops instead. A
misaligned address, or one outside SRAM, traps SRAM_ACCESS. An access that meets a region of an earlier Clover
job traps CLV_REGION_CONFLICT, one that meets a slot whose state forbids it SLOT_NOT_READY, and a read of a
bank group without power BANK_OFF, each with the PC, the address and what it met. A trap moves no byte and no
register (`TrapsStopTheThread`). A write to a group without power is discarded with BANK_OFF, and its thread
goes on. -/
def LoadsAndStoresTrap : Prop :=
  (∀ (s : State) (r : IssueRef) (f : Fields) (c : CtxRef),
    let t := Issued s r
    let a := ((s.thread r.tid r.thr).sr f.a + f.imm.signExtend 64).toNat
    let T := fun (i : IssueRef → Fields → Instr) (cls op n : Nat) (wr : Bool) => Ready s r cls op f c →
      (¬(a % n = 0 ∧ a + n ≤ 0x30000) → exec (i r f) s = .next (t.trap c r.tid r.thr evSramAccess (a % 2 ^ 18) 0 0)) ∧
      (a % n = 0 → a + n ≤ 0x30000 → ∀ e, t.checkAccess r.tid (r.cyc + 4) a n wr none = some e →
        (e ≠ .off ∨ wr = false → exec (i r f) s = .next (t.accTrap c r.tid r.thr a e)) ∧
        (e = .off → wr = true → Yields (exec (i r f) s) (fun u => ∃ v, WentTo s v r (pcOf s r + 8) ∧ u = v.bankOff c r.tid a 0)))
    T .ld8 2 0x00 1 false ∧ T .ld16 2 0x01 2 false ∧ T .ld32 2 0x02 4 false ∧ T .ld64 2 0x03 8 false ∧ T .lds8 2 0x04 1 false ∧
    T .lds16 2 0x05 2 false ∧ T .lds32 2 0x06 4 false ∧ T .st8 2 0x08 1 true ∧ T .st16 2 0x09 2 true ∧ T .st32 2 0x0A 4 true ∧
    T .st64 2 0x0B 8 true ∧ T .vld 3 0x00 32 false ∧ T .vst 3 0x01 32 true) ∧
  (∀ (s : State) (c : CtxRef) (tid n a : Nat),
    let d := trapDetail (s.thread tid n).pc a
    (∀ j q, s.accTrap c tid n a (.region j q) =
      (s.clvErr (cidOfTile tid) 4 0 j q.toNat (tid % 256) n false a).trapNamed c tid n evRegionConflict (d 0 0) [q.toNat + 2 ^ 8 * (j % 2 ^ 2) + 2 ^ 10]) ∧
    (∀ h k st, s.accTrap c tid n a (.slot h k st) = s.trapNamed c tid n evSlotNotReady (d h k) [st.code]) ∧
    s.accTrap c tid n a .off = s.trapNamed c tid n evBankOff (d 0 0) [])

/-- R140, R190, R201, R202: an access passes the checks where it meets no entry of a job posted before its tile
cycle that is still guarded in it (a read meets written regions, a write all), no slot of another's open handle
that a write finds not EMPTY or a read not FULL, and a bank group that has its power; otherwise the error names
what it met. -/
def AccessesAreChecked : Prop :=
  ∀ (s : State) (tid cyc a n : Nat) (wr : Bool) (own : Option Nat),
    let meets := fun (j : Nat × Job) => j ∈ (s.cluster (cidOfTile tid)).jobsAll ∧ j.2.postAt < cyc ∧
      ∃ e ∈ (s.cluster (cidOfTile tid)).entriesAt j.2 cyc, (wr = true ∨ e.out = true) ∧ 0 < n ∧ 0 < e.len ∧ a < e.lo + e.len ∧ e.lo < a + n
    let barred := fun (e : SlotOld) => e ∈ (s.tile tid).slotsAt cyc ∧ own ≠ some e.h ∧ 0 < n ∧ 0 < e.len ∧ a < e.lo + e.len ∧ e.lo < a + n ∧
      ∃ st, e.st = some st ∧ st ≠ (if wr then .empty else .full)
    let off := (s.bank (cidOfTile tid) (groupOf a)).st = .off ∨ (s.bank (cidOfTile tid) (groupOf a)).st = .goingOn
    (s.checkAccess tid cyc a n wr own = none ↔ (∀ j, ¬meets j) ∧ (∀ e, ¬barred e) ∧ ¬off) ∧
    (∀ j q, s.checkAccess tid cyc a n wr own = some (.region j q) → ∃ k : Job, k.seq = q ∧ meets (j, k)) ∧
    (∀ h k st, s.checkAccess tid cyc a n wr own = some (.slot h k st) →
      (∀ j, ¬meets j) ∧ ∃ e, barred e ∧ e.h = h ∧ e.k = k ∧ e.st = some st) ∧
    (s.checkAccess tid cyc a n wr own = some .off → off ∧ (∀ j, ¬meets j) ∧ ∀ e, ¬barred e)

/-- The operations of classes 0x0 to 0x3 with the bits of MOD and IMM that each uses (R88 to R92). -/
def computeOps : List (Nat × Nat × Nat × Nat × (IssueRef → Fields → Instr)) :=
  let any := 2 ^ 32 - 1
  [(0, 0x00, 1, any, .add), (0, 0x01, 1, any, .sub), (0, 0x02, 1, any, .and), (0, 0x03, 1, any, .or), (0, 0x04, 1, any, .xor),
   (0, 0x05, 1, any, .shl), (0, 0x06, 1, any, .shr), (0, 0x07, 1, any, .sra), (0, 0x08, 1, any, .mul), (0, 0x09, 0, 0, .mulhu),
   (0, 0x0A, 0, 0, .mulhs), (0, 0x0B, 1, any, .min), (0, 0x0C, 1, any, .max), (0, 0x0D, 1, any, .minu), (0, 0x0E, 1, any, .maxu),
   (0, 0x0F, 1, any, .slt), (0, 0x10, 1, any, .sltu), (0, 0x11, 1, any, .seq), (0, 0x12, 0, 0, .sel), (0, 0x13, 0, 0, .clz),
   (0, 0x14, 0, 0, .popc), (0, 0x15, 0, any, .movi), (0, 0x16, 0, any, .movhi), (0, 0x18, 0, 0, .rdtid), (0, 0x19, 0, 0, .rdthr),
   (0, 0x1A, 0, 0, .rdssn), (0, 0x1B, 0, 0, .rdht)] ++
  [(1, 0x00, 0, any, .beq), (1, 0x01, 0, any, .bne), (1, 0x02, 0, any, .blt), (1, 0x03, 0, any, .bge), (1, 0x04, 0, any, .bltu),
   (1, 0x05, 0, any, .bgeu), (1, 0x08, 0, any, .j), (1, 0x09, 0, any, .jal), (1, 0x0A, 0, 0, .jr)] ++
  [(2, 0x00, 0, any, .ld8), (2, 0x01, 0, any, .ld16), (2, 0x02, 0, any, .ld32), (2, 0x03, 0, any, .ld64), (2, 0x04, 0, any, .lds8),
   (2, 0x05, 0, any, .lds16), (2, 0x06, 0, any, .lds32), (2, 0x08, 0, any, .st8), (2, 0x09, 0, any, .st16), (2, 0x0A, 0, any, .st32),
   (2, 0x0B, 0, any, .st64)] ++
  [(3, 0x00, 0, any, .vld), (3, 0x01, 0, any, .vst), (3, 0x02, 0, 0, .vfma), (3, 0x03, 0, 0, .vadd), (3, 0x04, 0, 0, .vsub),
   (3, 0x05, 0, 0, .vmul), (3, 0x06, 0, 0, .vmax), (3, 0x07, 0, 0, .vmin), (3, 0x08, 0, 0, .vbcast), (3, 0x09, 0x7E, 0, .vcvt),
   (3, 0x0A, 0, 0, .vreds), (3, 0x0B, 0, 0, .vredm), (3, 0x0C, 0, 7, .vext)]

/-- The operations of classes 0x4 to 0xA, in the same way (R94 to R99). -/
def systemOps : List (Nat × Nat × Nat × Nat × (IssueRef → Fields → Instr)) :=
  let any := 2 ^ 32 - 1
  [(4, 0x00, 0x7, 0x1FFF, .qput), (4, 0x01, 0, 0, .qget), (4, 0x02, 0, 0, .qwait), (5, 0x00, 0x18, 0xFFFF, .send), (5, 0x01, 0x1E, any, .sendw),
   (5, 0x02, 0x06, any, .recv), (5, 0x03, 0, 0xFFFF, .poll), (6, 0x00, 1, 0x3FFF, .fset), (6, 0x01, 1, 0x3FFF, .fclr),
   (6, 0x02, 7, 0xFFFF3FFF, .fwait), (6, 0x03, 7, 0xFFFF3FFF, .fwaitc), (6, 0x04, 0, 0, .fence), (7, 0x00, 3, 0, .cjob),
   (8, 0x00, 0, 0xF, .sopen), (8, 0x01, 1, 0xF0F, .swait), (8, 0x02, 1, 0xF0F, .srelease), (9, 0x00, 1, 0, .updSplit),
   (0xA, 0x00, 0, 0xFF, .sync), (0xA, 0x01, 0, 0, .halt), (0xA, 0x02, 0, 0, .nop)]

/-- R85, R87, R88, R90, R103, R112: where an issue of any tile instruction stops at its fetch. A PC that is not
a multiple of 8 or lies beyond SRAM traps SRAM_ACCESS, a fetch that fails the checks traps as a read, a fetch
refused by its bank is counted and comes again, and an illegal word traps ILLEGAL_INSTR; the row of another
instruction than the word's does nothing (log entry 2). A word is legal only where a class table lists its
class and operation and it sets no bit of MOD and IMM that the entry does not use. -/
def FetchesTrap : Prop :=
  (∀ x ∈ computeOps ++ systemOps, ∀ (s : State) (r : IssueRef) (f : Fields) (c : CtxRef),
    r.ok = true → s.canIssue r = some c → (s.thread r.tid r.thr).wait = .none →
    let pc := (pcOf s r).toNat
    let w := s.wordAt r.tid pc
    let legal := legalWord w (fun d => partOfDie s.layout d = c.part)
    let i := x.2.2.2.2
    (¬(pc % 8 = 0 ∧ pc < 0x30000) → exec (i r f) s = .next ((s.passSlot r).trap c r.tid r.thr evSramAccess (pc % 2 ^ 18) 0 0)) ∧
    (pc % 8 = 0 → pc < 0x30000 →
      (∀ e, s.checkAccess r.tid r.cyc pc 8 false none = some e → exec (i r f) s = .next ((s.passSlot r).accTrap c r.tid r.thr pc e)) ∧
      (s.checkAccess r.tid r.cyc pc 8 false none = none →
        (s.bankFree r.tid r.cyc prioFetch (narrowMask pc) = false →
          exec (i r f) s = .next (let t := s.passSlot r
            let d := t.die (dieOfTile r.tid)
            t.setDie (dieOfTile r.tid) { d with replay := satAdd d.replay 1 })) ∧
        (s.bankFree r.tid r.cyc prioFetch (narrowMask pc) = true →
          (legal = false → exec (i r f) s = .next ((Issued s r).trap c r.tid r.thr evIllegalInstr 0 0 0)) ∧
          (legal = true → w ≠ encodeWord x.1 x.2.1 f → exec (i r f) s = .next s))))) ∧
  (∀ (w : W64) (p : Nat → Bool), legalWord w p = true →
    ∃ x ∈ computeOps ++ systemOps, clsOf w = x.1 ∧ opOf w = x.2.1 ∧ (fieldsOf w).mod.toNat &&& x.2.2.1 = (fieldsOf w).mod.toNat ∧
      (fieldsOf w).imm.toNat &&& x.2.2.2.1 = (fieldsOf w).imm.toNat ∧
      (x.1 = 0 → x.2.2.1 = 1 → (fieldsOf w).mod = 0 → (fieldsOf w).imm = 0) ∧
      (x.1 = 3 → (x.2.1 ∉ [0x01, 0x0A, 0x0B, 0x0C] → (fieldsOf w).d < 16) ∧ (x.2.1 ∉ [0x00, 0x01, 0x08] → (fieldsOf w).a < 16) ∧
        (1 ≤ x.2.1 → x.2.1 ≤ 7 → (fieldsOf w).b < 16)))

/-- R92: the vector instructions, lane by lane over eight FP32 lanes; VREDS, VREDM and VEXT write sD. -/
def VectorArithmetic : Prop :=
  ∀ (s : State) (r : IssueRef) (f : Fields) (c : CtxRef),
    let h := s.thread r.tid r.thr
    let la := fun i => lane (h.vr f.a) i
    let lb := fun i => lane (h.vr f.b) i
    let V := fun (i : IssueRef → Fields → Instr) (op : Nat) (g : Nat → W32) =>
      Ready s r 3 op f c → Yields (exec (i r f) s) (fun t => ∃ v, WroteV s t r f.d v ∧ ∀ k, k < 8 → lane v k = g k)
    let S := fun (i : IssueRef → Fields → Instr) (op : Nat) (x : W32) =>
      Ready s r 3 op f c → Yields (exec (i r f) s) (fun t => Wrote s t r f.d (x.zeroExtend 64))
    V .vfma 0x02 (fun k => fmaF (la k) (lb k) (lane (h.vr f.d) k)) ∧ V .vadd 0x03 (fun k => addF (la k) (lb k)) ∧
    V .vsub 0x04 (fun k => subF (la k) (lb k)) ∧ V .vmul 0x05 (fun k => mulF (la k) (lb k)) ∧
    V .vmax 0x06 (fun k => maxF (la k) (lb k)) ∧ V .vmin 0x07 (fun k => minF (la k) (lb k)) ∧
    V .vbcast 0x08 (fun _ => (h.sr f.a).truncate 32) ∧
    (Ready s r 3 0x09 f c → Yields (exec (.vcvt r f) s)
      (fun t => WroteV s t r f.d (vcvt (bits f.mod.toNat 3 1) (bits f.mod.toNat 6 4) (h.vr f.a)))) ∧
    S .vreds 0x0A (addF (addF (addF (la 0) (la 1)) (addF (la 2) (la 3))) (addF (addF (la 4) (la 5)) (addF (la 6) (la 7)))) ∧
    S .vredm 0x0B (maxF (maxF (maxF (la 0) (la 1)) (maxF (la 2) (la 3))) (maxF (maxF (la 4) (la 5)) (maxF (la 6) (la 7)))) ∧
    S .vext 0x0C (la (bits f.imm.toNat 2 0))

/-! ### Queues, streams and messages of a tile -/

/-- R93, R106, R107, R110, R111: QPUT enqueues a valid request behind at most 15 others, gives it the sequence
number ISSUE and writes its token; an invalid request and a full queue trap QUEUE_MISUSE and enqueue nothing. -/
def QputEnqueuesOrTraps : Prop :=
  ∀ (s : State) (r : IssueRef) (f : Fields) (c : CtxRef), Ready s r 4 0x00 f c →
    let h := s.thread r.tid r.thr
    let sram := (h.sr f.a).toNat
    let va := (h.sr f.b).toNat
    let q := f.mod.toNat % 8
    let len := f.imm.toNat % 2 ^ 13
    let x := (Issued s r).tile r.tid
    let y := x.queue q
    let good := 8 ≤ len ∧ len ≤ 4096 ∧ len % 8 = 0 ∧ sram % 8 = 0 ∧ sram + len - 1 ≤ 0x2FFFF ∧ va % 8 = 0 ∧ va < 2 ^ 48 ∧ y.reqs.length < 16
    let z : Req := { seq := y.issue, thr := r.thr, sram := sram, va := va, len := len, moved := 0, stop := .run, born := s.ht.now.toNat }
    (good → exec (.qput r f) s =
      .next (((Issued s r).setTile r.tid { x with queues := sput x.queues q { y with issue := y.issue + 1, reqs := y.reqs ++ [z] } }).modThread
        r.tid r.thr (fun h => { h.setSr f.d (BitVec.ofNat 64 (y.issue.toNat + 256 * q + 2048)) with pc := h.pc + 8 }))) ∧
    (¬good → exec (.qput r f) s = .next ((Issued s r).trap c r.tid r.thr evQueueMisuse (sram % 2 ^ 18) q 0))

/-- R110: what QGET writes and what QWAIT does for a token, by its SEQ against ISSUE and DONE of its queue: a
null token and a SEQ before DONE are complete; a SEQ at or after ISSUE, and a bit of [63:12], trap; the rest
is pending, or suspended where the request has stopped. -/
def TokensAnswerBySequence : Prop :=
  ∀ (s : State) (r : IssueRef) (f : Fields) (c : CtxRef),
    let tok := (s.thread r.tid r.thr).sr f.a
    let y := (s.tile r.tid).queue (tok.toNat / 256 % 8)
    let seq : BitVec 8 := tok.truncate 8
    let stopped := ∃ z ∈ y.reqs, z.seq = seq ∧ z.stop ≠ .run ∧ z.stop ≠ .dead
    let misuse := tok.toNat / 4096 ≠ 0 ∨ (tok.getLsbD 11 = true ∧ 0 ≤ (seq - y.issue).toInt)
    let complete := tok.toNat / 4096 = 0 ∧ (tok.getLsbD 11 = false ∨ ((seq - y.issue).toInt < 0 ∧ (seq - y.done).toInt < 0))
    let waiting := tok.toNat / 4096 = 0 ∧ tok.getLsbD 11 = true ∧ (seq - y.issue).toInt < 0 ∧ 0 ≤ (seq - y.done).toInt
    (Ready s r 4 0x01 f c →
      (misuse → exec (.qget r f) s = .next ((Issued s r).trap c r.tid r.thr evQueueMisuse 0 (tok.toNat / 256 % 8) 0)) ∧
      (complete → Yields (exec (.qget r f) s) (fun t => Wrote s t r f.d 1)) ∧
      (waiting → ¬stopped → Yields (exec (.qget r f) s) (fun t => Wrote s t r f.d 0)) ∧
      (waiting → stopped → Yields (exec (.qget r f) s) (fun t => Wrote s t r f.d 2))) ∧
    (Ready s r 4 0x02 f c →
      (misuse → exec (.qwait r f) s = .next ((Issued s r).trap c r.tid r.thr evQueueMisuse 0 (tok.toNat / 256 % 8) 0)) ∧
      (complete → Yields (exec (.qwait r f) s) (fun t => WentTo s t r (pcOf s r + 8))) ∧
      (waiting → Yields (exec (.qwait r f) s) (fun t => WaitsAt s t r (.queue tok))))

/-- R44, R85, R108, R110, R226: a completed request is the oldest of its queue with its last byte moved; it
leaves the queue, DONE moves by 1 (not for a request of a run before the last START, log entry 16), and of the
tile's threads only those move on, from the next tile cycle, that wait for a token now complete, or in FENCE
with no store left. In STANDBY none completes. -/
def QueueRequestCompletes : Prop :=
  ∀ (s : State) (tid q : Nat) (z : Req) (zs : List Req), tid < 8192 → q < 8 →
    ((s.tile tid).queue q).reqs = z :: zs →
    ((z.moved ≠ z.len ∨ z.stop ≠ .run ∨ s.plat.pstate = .standby) → exec (.queueRequestComplete tid q) s = .next s) ∧
    (z.moved = z.len → z.stop = .run → s.plat.pstate ≠ .standby → Yields (exec (.queueRequestComplete tid q) s) (fun t =>
      t = { s with tiles := t.tiles } ∧ (∀ k, k ≠ tid → t.tile k = s.tile k) ∧
      (t.tile tid) = { s.tile tid with thr := (t.tile tid).thr, queues := (t.tile tid).queues } ∧
      (t.tile tid).queue q = { (s.tile tid).queue q with done := ((s.tile tid).queue q).done + (if z.seq = ((s.tile tid).queue q).done then 1 else 0), reqs := zs } ∧
      (∀ k, k ≠ q → (t.tile tid).queue k = (s.tile tid).queue k) ∧
      ∀ n, n < 6 → t.thread tid n = s.thread tid n ∨
        (t.thread tid n = { s.thread tid n with
            st := .runnable, wait := .none, from_ := (s.cluster (tid / 256)).tileCyc + 1, pc := (s.thread tid n).pc + 8 } ∧
          ((∃ tok, (s.thread tid n).wait = .queue tok ∧ (t.tile tid).tokSt tok = .complete) ∨
            ((s.thread tid n).wait = .fence ∧ (t.tile tid).storesDone n = true)))))

/-- R97, R184: SOPEN reads its descriptor in wide accesses, one in each of its issue slots: the header's two,
then one for each block entry. After the last one a CLOSED handle and a valid descriptor open the handle with
every slot EMPTY; a handle that is OPEN, or a descriptor that is not valid, traps STR_MISUSE. A read out of
range traps SRAM_ACCESS in its turn. -/
def SopenOpensOrTraps : Prop :=
  ∀ (s : State) (r : IssueRef) (f : Fields) (c : CtxRef),
    let a := ((s.thread r.tid r.thr).sr f.a).toNat
    let h := f.imm.toNat % 16
    a % 32 = 0 → a + 64 ≤ 0x30000 →
      (Ready s r 8 0x00 f c → DataReady s r true false a 32 →
        exec (.sopen r f) s = .next ((Staged s r true a).hold r .sopen f 1 (s.sramRead r.tid a 32))) ∧
      (∀ k got, HeldAt s r .sopen f k got c →
        let b := a + 32 * k
        let g := Granted (s.passSlot r) r true b
        let all := got ++ s.sramRead r.tid b 32
        let last := fld ((bytesWords all).getD 0 0) 8 5 + 2
        let desc := g.readDesc r.tid c (bytesWords all)
        (0x30000 < b + 32 → exec (.coreDataReplay r) s = .next ((s.passSlot r).trap c r.tid r.thr evSramAccess (b % 2 ^ 18) h 0)) ∧
        (b + 32 ≤ 0x30000 → DataFree (s.passSlot r) r true false b 32 →
          (k < last → exec (.coreDataReplay r) s = .next (g.hold r .sopen f (k + 1) all)) ∧
          (last ≤ k →
            (∀ y, ((s.tile r.tid).handle h).isNone = true → desc = some y →
              exec (.coreDataReplay r) s =
                .next ((g.setTile r.tid ((g.tile r.tid).turnHandle (r.cyc + 4) h (some y))).modThread r.tid r.thr
                  (fun k => { k with pc := k.pc + 8 })) ∧
              y.slots.all (fun k => k = .empty) = true ∧ 2 ≤ y.slots.length ∧ y.blk = 0 ∧ y.released = 0 ∧ y.stop = .run ∧
              y.base + y.slots.length * y.size ≤ 0x30000 ∧ y.base % 32 = 0 ∧ y.size % 32 = 0) ∧
            (((s.tile r.tid).handle h).isSome = true ∨ desc = none →
              exec (.coreDataReplay r) s = .next (g.trap c r.tid r.thr evStrMisuse 0 h 0)))))

/-- R97, R191: SWAIT goes on when the slot is in the state it names, blocks while a remaining block can bring
it there, and else traps. -/
def SwaitBySlotState : Prop :=
  ∀ (s : State) (r : IssueRef) (f : Fields) (c : CtxRef), Ready s r 8 0x01 f c →
    let h := f.imm.toNat % 16
    let k := f.imm.toNat / 256 % 16
    let full := !f.mod.getLsbD 0
    let st := (s.tile r.tid).swaitSt h k full
    (st = .ready → Yields (exec (.swait r f) s) (fun t => WentTo s t r (pcOf s r + 8))) ∧
    (st = .block → Yields (exec (.swait r f) s) (fun t => WaitsAt s t r (.slot h k full s.ht.now.toNat false))) ∧
    (st = .misuse → exec (.swait r f) s = .next ((Issued s r).trap c r.tid r.thr evStrMisuse 0 h k)) ∧
    ((s.tile r.tid).handle h = none → st = if full then .misuse else .ready) ∧
    (∀ y, (s.tile r.tid).handle h = some y →
      (y.slots.length ≤ k → st = .misuse) ∧
      (k < y.slots.length → y.slotSt k = (if full then .full else .empty) → st = .ready) ∧
      (k < y.slots.length → y.slotSt k ≠ (if full then .full else .empty) → (full = false ∨ y.willFill k = true) → st = .block) ∧
      (k < y.slots.length → full = true → y.slotSt k ≠ .full → y.willFill k = false → st = .misuse))

/-- R97, R189, R191, R192, R195: SRELEASE of a FULL slot that the consumer releases next empties it, counts
it, counts the link's consumer and closes the handle at the stream's last block; of an EMPTY slot that the
producer fills next, it fills it; any other traps. -/
def SreleaseMovesSlot : Prop :=
  ∀ (s : State) (r : IssueRef) (f : Fields) (c : CtxRef), Ready s r 8 0x02 f c →
    let h := f.imm.toNat % 16
    let k := f.imm.toNat / 256 % 16
    let prod := f.mod.getLsbD 0
    let g := Issued s r
    let x := g.tile r.tid
    let pass := fun (t : State) => t.modThread r.tid r.thr (fun k => { k with pc := k.pc + 8 })
    ((s.tile r.tid).handle h = none → exec (.srelease r f) s = .next (g.trap c r.tid r.thr evStrMisuse 0 h k)) ∧
    (∀ y, (s.tile r.tid).handle h = some y →
      let turn := y.outbound = prod ∧ y.released < y.total ∧ k = y.slotOf y.released ∧ y.slotSt k = (if prod then .empty else .full)
      (¬turn → exec (.srelease r f) s = .next (g.trap c r.tid r.thr evStrMisuse 0 h k)) ∧
      (turn → prod = true → exec (.srelease r f) s =
        .next ((pass (g.setTile r.tid (x.turnHandle r.cyc h (some { y with slots := y.slots.set k .full, released := y.released + 1 })))).afterSlots r.tid)) ∧
      (turn → prod = false →
        let z := { y with slots := y.slots.set k .empty, released := y.released + 1 }
        let t := g.setTile r.tid (x.turnHandle r.cyc h (if y.released + 1 = y.total then none else some z))
        exec (.srelease r f) s = .next ((pass (match y.link with
          | none => t
          | some l => t.setLink (dieOfTile r.tid) l { t.link (dieOfTile r.tid) l with
              ccount := (t.link (dieOfTile r.tid) l).ccount + 1 })).afterSlots r.tid)))

/-- R190: a handle turns: it is set, or closed; an access of the tile cycle of the change, or of an earlier one,
is checked against its slots as they stood before, one of a later cycle against them as they are. A slot that
stood in the state that forbids the access, and only such a slot, is hit. -/
def SlotsTurnAtCycles : Prop :=
  ∀ (x : Tile) (cyc h k a n : Nat) (wr : Bool) (own : Option Nat) (y : Option Handle),
    x.slotOld = [] → x.handles.Pairwise (fun p q => p.1 < q.1) →
    let z := x.turnHandle cyc h y
    let hit := fun (t : Tile) => t.handles.any (fun e => own ≠ some e.1 && (List.range e.2.slots.length).any (fun i =>
      overlaps a n (e.2.base + i * e.2.size) e.2.size && e.2.slotSt i != (if wr then SlotSt.empty else SlotSt.full)))
    z = { x with handles := z.handles, slotOld := z.slotOld } ∧
    z.handle h = y ∧ (∀ i, i ≠ h → z.handle i = x.handle i) ∧
    (x.slotHit k a n wr own).isSome = hit x ∧
    (k ≤ cyc → (z.slotHit k a n wr own).isSome = hit x) ∧ (cyc < k → (z.slotHit k a n wr own).isSome = hit z)

/-- R94, R210, R212, R218: SEND and SENDW read their 64 to 256 bytes in wide accesses, one in each of their
issue slots; with the last one the message departs with the sender's CXH: SEND's thread goes on to no other
instruction and shows RUNNABLE, SENDW's blocks; a destination outside the partition, or fused off, or a
non-zero sA[63:13], is answered BAD_DEST at the sender's router, which counts it. -/
def SendDeparts : Prop :=
  ∀ (s : State) (r : IssueRef) (f : Fields) (c : CtxRef),
    let h := s.thread r.tid r.thr
    let a := (h.sr f.b).toNat
    let dst := h.sr f.a
    let len := 64 * (f.mod.toNat / 8 % 4 + 1)
    let bad := 2 ^ 13 ≤ dst.toNat ∨ partOfDie s.layout (dst.toNat / 2048 % 4) ≠ c.part ∨ s.fuses.dis.getLsbD (dst.toNat / 256 % 32) = true
    let S := fun (i : IssueRef → Fields → Instr) (op : Nat) (dop : DataOp) (retry : Bool) =>
      a % 32 = 0 → a + len ≤ 0x30000 →
      (Ready s r 5 op f c → DataReady s r true false a 32 →
        exec (i r f) s = .next ((Staged s r true a).hold r dop f 1 (s.sramRead r.tid a 32))) ∧
      (∀ k got, HeldAt s r dop f k got c → 32 * k < len → DataFree (s.passSlot r) r true false (a + 32 * k) 32 →
        let g := Granted (s.passSlot r) r true (a + 32 * k)
        let all := got ++ s.sramRead r.tid (a + 32 * k) 32
        let m : Msg := { dst := dst, tag := f.imm.truncate 16, data := all, cxh := s.cxh c }
        let w := fun (x : SendSt) => g.modThread r.tid r.thr (fun k => { k with
          st := if retry then .blocked else .runnable,
          wait := .send f.d m retry 1 s.ht.now.toNat (if retry then tmoNs f else 0) x })
        (32 * (k + 1) < len → exec (.coreDataReplay r) s = .next (g.hold r dop f (k + 1) all)) ∧
        (len ≤ 32 * (k + 1) →
          (bad → exec (.coreDataReplay r) s = .next ((w (.replied msgBadDest)).countMsg (dieOfTile r.tid) msgBadDest)) ∧
          (¬bad → exec (.coreDataReplay r) s = .next (w .travelling))))
    S .send 0x00 .send false ∧ S .sendw 0x01 .sendw true

/-- R94, R214, R216: RECV takes the oldest message held complete from an earlier tile cycle that matches its
tag under its mask and that no other RECV has taken, and makes the first write of its copy; with none it waits
until its time has passed, and takes in the next tile cycle one that came whole in this one. A message that
does not fit below 0x0003_0000 traps at the take and stays held. The copy goes on with one write in each issue
slot; with the last one the message's entries are freed, from the next exchange cycle on, and sD names its
tag, length and sender. -/
def RecvTakesOldestMatch : Prop :=
  ∀ (s : State) (r : IssueRef) (f : Fields) (c : CtxRef),
    let h := s.thread r.tid r.thr
    let a := (h.sr f.a).toNat
    let tag : BitVec 16 := f.imm.truncate 16
    let mask : BitVec 16 := (h.sr f.b).truncate 16
    let hit := fun (m : Held) => m.whole = true ∧ m.cyc < r.cyc ∧ m.taker = none ∧ m.tag &&& mask = tag &&& mask
    (Ready s r 5 0x02 f c → a % 32 = 0 →
      ((∀ m ∈ (s.tile r.tid).store, ¬hit m) → exec (.recv r f) s =
        .next ((((Issued s r).setTile r.tid { (Issued s r).tile r.tid with order := (s.tile r.tid).order + 1 }).modThread r.tid r.thr
          (fun k => { k with st := .blocked, wait := .recv f (h.sr f.a) tag mask (s.ht.now.toNat + tmoNs f) (s.tile r.tid).order })).pairUp r.tid)) ∧
      (∀ (old : List Held) (m : Held) (later : List Held), (s.tile r.tid).store = old ++ m :: later → (∀ x ∈ old, ¬hit x) → hit m →
        (∀ x ∈ old, x.taker ≠ some r.thr) →
        let g := (Issued s r).setTile r.tid { (Issued s r).tile r.tid with store := old ++ { m with taker := some r.thr } :: later }
        (0x30000 < a + m.data.length → exec (.recv r f) s =
          .next (((Issued s r).trap c r.tid r.thr evSramAccess (a % 2 ^ 18) 0 0).pairUp r.tid)) ∧
        (a + m.data.length ≤ 0x30000 → 32 < m.data.length → DataFree g r true true a 32 →
          exec (.recv r f) s = .next (((Granted g r true a).sramWrite r.tid a (m.data.take 32)).hold r .recv f 1 [])))) ∧
    (∀ k m, HeldAt s r .recv f k [] c → (s.tile r.tid).takenBy r.thr = some m → a + m.data.length ≤ 0x30000 → 32 * k < m.data.length →
      DataFree (s.passSlot r) r true true (a + 32 * k) 32 →
      let w := (Granted (s.passSlot r) r true (a + 32 * k)).sramWrite r.tid (a + 32 * k) ((m.data.drop (32 * k)).take 32)
      let x := w.tile r.tid
      let v := m.tag.toNat + 2 ^ 16 * m.data.length + 2 ^ 25 * m.tid + 2 ^ 38 * m.thr
      (32 * (k + 1) < m.data.length → exec (.coreDataReplay r) s = .next (w.hold r .recv f (k + 1) [])) ∧
      (m.data.length ≤ 32 * (k + 1) → exec (.coreDataReplay r) s =
        .next ((w.setTile r.tid { x with
            store := x.store.filter (fun y => y.taker ≠ some r.thr)
            freedAt := s.ht.now.toNat
            freed := (if x.freedAt = s.ht.now.toNat then x.freed else 0) + m.data.length / 64 }).modThread r.tid r.thr
          (fun k => { k.setSr f.d (BitVec.ofNat 64 v) with pc := k.pc + 8 }))))

/-- R214, R216: of the threads of a tile that wait in RECV and for which a message is held that no RECV has
taken, the one that issued first takes the oldest such message, and copies it in its issue slots of later tile
cycles; nothing else changes, and without such a thread nothing does. -/
def ReceiversArePaired : Prop :=
  (∀ (s : State) (t : Nat),
    let x := s.tile t
    let takers := (List.range 6).filterMap x.recvOf
    (takers = [] → s.pairUp t = s) ∧
    ∀ (c : CtxRef) (n : Nat) (f : Fields) (dst : W64) (tag mask : BitVec 16) (limit o : Nat) (old : List Held) (m : Held) (later : List Held),
      s.ctxOfTile t = some c → (s.ctx c).st = .running → firstRecv takers = some n → (s.thread t n).wait = .recv f dst tag mask limit o →
      let hit := fun (m : Held) => m.whole = true ∧ m.taker = none ∧ m.tag &&& mask = tag &&& mask
      x.store = old ++ m :: later → (∀ y ∈ old, ¬hit y) → hit m →
      s.pairUp t = (s.setTile t { x with store := old ++ { m with taker := some n } :: later }).modThread t n
        (fun h => { h with st := .runnable, wait := .replay .recv f 0 [] })) ∧
  (∀ (x : Tile) (n o k : Nat), x.recvOf n = some (o, k) ↔ k = n ∧ ∃ f dst tag mask limit, (x.thread n).wait = .recv f dst tag mask limit o ∧
    ∃ m ∈ x.store, m.whole = true ∧ m.taker = none ∧ m.tag &&& mask = tag &&& mask) ∧
  (∀ (xs : List (Nat × Nat)) (o n k : Nat), (o, n) ∈ xs → firstRecv xs = some k → ∃ o', (o', k) ∈ xs ∧ o' ≤ o) ∧
  (∀ xs : List (Nat × Nat), firstRecv xs = none → xs = [])

/-- R94, R215, R216: POLL counts the messages held complete from an earlier tile cycle that match and that no
RECV has taken (log entry 23), and takes none. -/
def PollCounts : Prop :=
  ∀ (s : State) (r : IssueRef) (f : Fields) (c : CtxRef), Ready s r 5 0x03 f c →
    let h := s.thread r.tid r.thr
    let hits := (s.tile r.tid).store.filter (fun m => m.whole = true ∧ m.cyc < r.cyc ∧ m.taker = none ∧
      m.tag &&& (h.sr f.b).truncate 16 = (f.imm.truncate 16 : BitVec 16) &&& (h.sr f.b).truncate 16)
    Yields (exec (.poll r f) s) (fun t => Wrote s t r f.d (BitVec.ofNat 64 hits.length))

/-- R95, R222, R223, R225: a flag instruction on a flag of the context posts its request in its tile cycle (a
global flag's travels); FSET and FCLR go on, FWAIT and FWAITC block with their limit; a flag of another
context traps FLAG_ACCESS. -/
def FlagInstructionsPost : Prop :=
  ∀ (s : State) (r : IssueRef) (f : Fields) (c : CtxRef),
    let glob := f.mod.getLsbD 0
    let n := f.imm.toNat
    let g : FlagRef := if glob then .glob (n / 4096 % 4) (n % 4096) else .tile r.tid (n % 64)
    let own := (glob = false ∨ (partOfDie s.layout (n / 4096 % 4) = c.part ∧ s.gfOwner (n / 4096 % 4) (n % 4096) = c.slot + 1))
    let F := fun (i : IssueRef → Fields → Instr) (op : Nat) (k : FlagKind) (after : Thread → Thread) =>
      Ready s r 6 op f c →
      let q : FlagReq := { g := g, kind := k, src := .thread, tid := r.tid, thr := r.thr, cxh := s.cxh c, arrived := !glob,
                           order := if glob then 0 else r.cyc }
      (own → exec (i r f) s = .next ({ Issued s r with freqs := s.freqs ++ [q] }.modThread r.tid r.thr after)) ∧
      (¬own → exec (i r f) s = .next ((Issued s r).trapWith c r.tid r.thr evFlagAccess (flagDetail g)))
    F .fset 0x00 .set (fun h => { h with pc := h.pc + 8 }) ∧ F .fclr 0x01 .clear (fun h => { h with pc := h.pc + 8 }) ∧
    F .fwait 0x02 .wait (fun h => { h with st := .blocked, wait := .flag g false (s.ht.now.toNat + tmoNs f) }) ∧
    F .fwaitc 0x03 .claim (fun h => { h with st := .blocked, wait := .flag g true (s.ht.now.toNat + tmoNs f) })

/-- R226: FENCE goes on once no store-queue request of its thread is incomplete; until then it holds the
thread, which shows RUNNABLE. -/
def FenceWaitsForStores : Prop :=
  ∀ (s : State) (r : IssueRef) (f : Fields) (c : CtxRef), Ready s r 6 0x04 f c →
    let left := ∃ q ∈ [6, 7], ∃ z ∈ ((s.tile r.tid).queue q).reqs, z.thr = r.thr
    (¬left → Yields (exec (.fence r f) s) (fun t => WentTo s t r (pcOf s r + 8))) ∧
    (left → exec (.fence r f) s = .next ((Issued s r).modThread r.tid r.thr (fun h => { h with wait := .fence })))

/-- R94: the wait time of a message or flag instruction in ns: 100 ms by default, TMO µs, or TMO ms up to
4,000; a TMO of 0 counts as 1. -/
def WaitTimes : Prop :=
  ∀ f : Fields,
    let u := f.mod.toNat / 2 % 4
    let tmo := f.imm.toNat / 2 ^ 16
    (u = 0 → tmoNs f = 100000000) ∧
    (u = 1 → tmo = 0 → tmoNs f = 1000) ∧ (u = 1 → tmo ≠ 0 → tmoNs f = 1000 * tmo) ∧
    (u = 2 → tmo = 0 → tmoNs f = 1000000) ∧ (u = 2 → tmo ≠ 0 → tmo ≤ 4000 → tmoNs f = 1000000 * tmo) ∧
    (u = 2 → 4000 < tmo → tmoNs f = 4000000000)

/-- R99: NOP does nothing for one issue slot; HALT halts its thread, and the context is DONE with the last
one; SYNC ends the thread's compute phase, which waits for the boundary, and offers its budget index, of which
the lowest tile and thread of the superstep is kept (R57). -/
def ControlInstructions : Prop :=
  ∀ (s : State) (r : IssueRef) (f : Fields) (c : CtxRef),
    let b : BitVec 8 := f.imm.truncate 8
    let mine := fun (o : Option (Nat × Nat × BitVec 8)) => match o with
      | some (t, n, k) => if t < r.tid ∨ (t = r.tid ∧ n ≤ r.thr) then (t, n, k) else (r.tid, r.thr, b)
      | none => (r.tid, r.thr, b)
    (Ready s r 10 0x02 f c → Yields (exec (.nop r f) s) (fun t => WentTo s t r (pcOf s r + 8))) ∧
    (Ready s r 10 0x01 f c →
      exec (.halt r f) s = .next (((Issued s r).modThread r.tid r.thr (fun h => { h with st := .halted, pc := h.pc + 8 })).doneIf c)) ∧
    (Ready s r 10 0x00 f c →
      exec (.sync r f) s = .next (((Issued s r).setCtx c { s.ctx c with run := { (s.ctx c).run with
        cand := some (mine (s.ctx c).run.cand) } }).modThread r.tid r.thr (fun h => { h with st := .blocked, wait := .sync })))

/-- R96, R131 to R134, R140, R202: CJOB reads its descriptor in two wide accesses, in two issue slots; with
the second one a descriptor that passes the checks of R132, finds room and no barred slot or unserved bank
posts the job with the engine's next sequence number and writes the ticket; each failing check traps as named,
the first of them alone, and a failed check leaves its record in CLV_ERR. The order of the slots' check before
the bank groups', and the posting in the slot of the second read, are the model's choice (log entry 17). -/
def CjobPostsOrTraps : Prop :=
  ∀ (s : State) (r : IssueRef) (f : Fields) (c : CtxRef),
    let a := ((s.thread r.tid r.thr).sr f.a).toNat
    let cid := r.tid / 256
    let e := f.mod.toNat % 4
    let seq := (s.engine cid e).nextSeq
    let lane := r.tid % 256
    a % 64 = 0 → a + 64 ≤ 0x30000 →
    (Ready s r 7 0x00 f c → DataReady s r true false a 32 →
      exec (.cjob r f) s = .next ((Staged s r true a).hold r .cjob f 1 (s.sramRead r.tid a 32))) ∧
    (∀ got, HeldAt s r .cjob f 1 got c → DataFree (s.passSlot r) r true false (a + 32) 32 →
      let g := Granted (s.passSlot r) r true (a + 32)
      let w := bytesWords (got ++ s.sramRead r.tid (a + 32) 32)
      let go := fun t => exec (.coreDataReplay r) s = .next t
      (∀ k, g.jobCheck c (r.tid / 2048) e w = some k →
        go ((g.clvErr cid 1 k e 0 lane r.thr false a).trap c r.tid r.thr evDescInvalid a 0 0)) ∧
      (g.jobCheck c (r.tid / 2048) e w = none →
        (∀ k, (g.cluster cid).postCause e (r.cyc + 4) w = some k →
          go ((g.clvErr cid k 0 e 0 lane r.thr false a).trap c r.tid r.thr evQueueFull a 0 0)) ∧
        ((g.cluster cid).postCause e (r.cyc + 4) w = none →
          (∀ lo h k, g.jobSlot cid (r.cyc + 4) w = some (lo, h, k) → go (g.trap c r.tid r.thr evSlotNotReady lo h k)) ∧
          (g.jobSlot cid (r.cyc + 4) w = none →
            (∀ lo, g.jobOff cid w = some lo → go (g.trap c r.tid r.thr evBankOff lo 0 0)) ∧
            (g.jobOff cid w = none →
              go (((g.postJob cid e (r.cyc + 4) (256 * (r.cyc + 4) + lane + 1) w).demand cid).modThread r.tid r.thr
                (fun h => { h.setSr f.d (BitVec.ofNat 64 (seq.toNat + 256 * e + 1024)) with pc := h.pc + 8 })))))))

/-- R133: a posting finds its queue full with sixteen jobs that are incomplete as its tile cycle begins, and
the scoreboard full where its regions do not fit beside the entries that then stand; a queue that is full is
the cause named first. Jobs that lower lanes post in the same tile cycle count (log entry 17). -/
def PostingsFindRoom : Prop :=
  ∀ (x : Cluster) (e cyc : Nat) (w : List W64),
    let used := (x.jobsAll.map (fun j => (x.entriesAt j.2 cyc).length)).sum
    (16 ≤ x.depthAt e cyc → x.postCause e cyc w = some 2) ∧
    (x.depthAt e cyc < 16 → 64 < used + (jobRegions w).length → x.postCause e cyc w = some 3) ∧
    (x.depthAt e cyc < 16 → used + (jobRegions w).length ≤ 64 → x.postCause e cyc w = none)

/-- R98, R166 to R168: UPD.SPLIT makes one wide access in each of its issue slots: two reads of its record;
then, where the record and its planes pass the checks, group by group, the reads of the planes' bytes and the
writes of the values formed from them. With the last write of the last group the thread goes on. A record that
fails traps UPD_INVALID, a plane that is misaligned or out of range SRAM_ACCESS, before any write. -/
def UpdSplitUpdatesPlanes : Prop :=
  ∀ (s : State) (r : IssueRef) (f : Fields) (c : CtxRef),
    let a := ((s.thread r.tid r.thr).sr f.a).toNat
    let sgd := f.mod.getLsbD 0
    let go := fun t => exec (.coreDataReplay r) s = .next t
    a % 64 = 0 → a + 64 ≤ 0x30000 →
    (Ready s r 9 0x00 f c → DataReady s r true false a 32 →
      exec (.updSplit r f) s = .next ((Staged s r true a).hold r .upd f 1 (s.sramRead r.tid a 32))) ∧
    (∀ got, HeldAt s r .upd f 1 got c → DataFree (s.passSlot r) r true false (a + 32) 32 →
      let g := Granted (s.passSlot r) r true (a + 32)
      let all := got ++ s.sramRead r.tid (a + 32) 32
      let u := readUpd (bytesWords all)
      let invalid := u.rsv = true ∨ 2 ≤ u.gfmt ∨ planesOverlap u.n (u.planes sgd) = true
      (invalid → go (g.trap c r.tid r.thr evUpdInvalid (a % 2 ^ 18) 0 0)) ∧
      (¬invalid → (∀ p, badPlane u.n (u.planes sgd) = some p → go (g.sramTrap r c (BitVec.ofNat 64 p) 0)) ∧
        (badPlane u.n (u.planes sgd) = none → go (g.hold r .upd f 2 all)))) ∧
    (∀ k got, HeldAt s r .upd f k got c → 2 ≤ k →
      let u := readUpd (bytesWords (got.take 64))
      let q := (k - 2) / u.slots sgd
      let i := (k - 2) % u.slots sgd
      let rs := groupReads u sgd q
      let ws := groupWrites u sgd q (updGroup u sgd (got.drop 64))
      (∀ b, rs[i]? = some b → b + 32 ≤ 0x30000 → DataFree (s.passSlot r) r true false b 32 →
        go ((Granted (s.passSlot r) r true b).hold r .upd f (k + 1) (got ++ s.sramRead r.tid b 32))) ∧
      (∀ b bs, rs[i]? = none → ws[i - rs.length]? = some (b, bs) → DataFree (s.passSlot r) r true true b 32 →
        let w := (Granted (s.passSlot r) r true b).sramWrite r.tid b bs
        (i + 1 < rs.length + ws.length → go (w.hold r .upd f (k + 1) got)) ∧
        (rs.length + ws.length ≤ i + 1 → q + 1 < u.n → go (w.hold r .upd f (k + 1) (got.take 64))) ∧
        (rs.length + ws.length ≤ i + 1 → u.n ≤ q + 1 → go (w.modThread r.tid r.thr (fun h => { h with pc := h.pc + 8 })))))

/-- R167 to R169: what one group of an update writes, over any memory: from the bytes that its reads find,
each of its sixteen elements' weight, first and (AdamW) second moment become the update of R169 of what the
planes held, and every byte outside the group's part of the written planes stays. -/
def UpdGroupsUpdateElements : Prop :=
  ∀ (m : List Host.Cell) (u : UpdRec) (sgd : Bool) (k : Nat), Memory.wf m = true → u.gfmt < 2 → k < u.n →
    planesOverlap u.n (u.planes sgd) = false → badPlane u.n (u.planes sgd) = none →
    let le := fun (m : List Host.Cell) (a n : Nat) => leNat (mread m a n)
    let old := fun (e : Nat) => updElem u sgd
      (BitVec.ofNat 32 (2 ^ 16 * le m (u.hi + 2 * e) 2 + le m (u.lo + 2 * e) 2))
      (if u.gfmt = 0 then BitVec.ofNat 32 (le m (u.g + 4 * e) 4) else BitVec.ofNat 32 (2 ^ 16 * le m (u.g + 2 * e) 2))
      (BitVec.ofNat 32 (le m (u.m + 4 * e) 4)) (if sgd then 0 else BitVec.ofNat 32 (le m (u.v + 4 * e) 4))
    let bs := (groupReads u sgd k).flatMap (fun a => mread m a 32)
    let t := (groupWrites u sgd k (updGroup u sgd bs)).foldl (fun m w => mwrite m w.1 w.2) m
    (∀ e, 16 * k ≤ e → e < 16 * k + 16 →
      le t (u.hi + 2 * e) 2 = (old e).1.toNat / 2 ^ 16 ∧ le t (u.lo + 2 * e) 2 = (old e).1.toNat % 2 ^ 16 ∧
      le t (u.m + 4 * e) 4 = (old e).2.1.toNat ∧ (sgd = false → le t (u.v + 4 * e) 4 = (old e).2.2.toNat)) ∧
    (∀ b, (b < u.hi + 32 * k ∨ u.hi + 32 * k + 32 ≤ b) → (b < u.lo + 32 * k ∨ u.lo + 32 * k + 32 ≤ b) →
      (b < u.m + 64 * k ∨ u.m + 64 * k + 64 ≤ b) → (sgd = true ∨ b < u.v + 64 * k ∨ u.v + 64 * k + 64 ≤ b) → mget t b = mget m b)

/-- R169: one element of an update, operation by operation. -/
def UpdateArithmetic : Prop :=
  ∀ (u : UpdRec) (w x m v : W32),
    let one : W32 := 0x3F800000
    let g := mulF x u.gs
    (let m' := fmaF u.b1 m (mulF (subF one u.b1) g)
     let v' := fmaF u.b2 v (mulF (subF one u.b2) (mulF g g))
     let d := divF (mulF m' u.c1) (addF (sqrtF (mulF v' u.c2)) u.eps)
     updElem u false w x m v = (subF w (mulF u.lr (fmaF u.wd w d)), m', v')) ∧
    (let m' := fmaF u.b1 m g
     (updElem u true w x m v).1 = subF w (mulF u.lr (fmaF u.wd w m')) ∧ (updElem u true w x m v).2.1 = m')

/-- R103: a data access refused by a bank of its group leaves the instruction held, counts the replay, and
repeats its memory stage at the thread's next issue slot, where a granted access completes as at first: shown
for the narrow loads and stores. -/
def DataReplayCompletes : Prop :=
  ∀ (s : State) (r : IssueRef) (f : Fields) (c : CtxRef) (n : Nat) (sx : Bool),
    let a := ((s.thread r.tid r.thr).sr f.a + f.imm.signExtend 64).toNat
    let g := s.passSlot r
    let refused := fun wr => g.checkAccess r.tid (r.cyc + 4) a n wr none = none ∧ g.bankFree r.tid (r.cyc + 4) prioNarrow (narrowMask a) = false
    let again := fun op => exec (.coreDataReplay r) s = .next ((g.countReplay (dieOfTile r.tid)).modThread r.tid r.thr
      (fun h => { h with wait := .replay op f 0 [] }))
    a % n = 0 → a + n ≤ 0x30000 →
    (HeldAt s r (.load n sx) f 0 [] c →
      (DataFree g r false false a n → exec (.coreDataReplay r) s =
        .next ((Granted g r false a).modThread r.tid r.thr (fun h =>
          { h.setSr f.d (if sx then BitVec.ofInt 64 (signed (leNat (s.sramRead r.tid a n)) (8 * n))
              else BitVec.ofNat 64 (leNat (s.sramRead r.tid a n))) with pc := h.pc + 8 }))) ∧
      (refused false → again (.load n sx))) ∧
    (HeldAt s r (.store n) f 0 [] c →
      (DataFree g r false true a n → exec (.coreDataReplay r) s =
        .next (((Granted g r false a).sramWrite r.tid a (toLE n ((s.thread r.tid r.thr).sr f.b).toNat)).modThread r.tid r.thr
          (fun h => { h with pc := h.pc + 8 }))) ∧
      (refused true → again (.store n)))

/-- R112, R362: a trap stops its thread in TRAPPED and changes no register and no byte of any SRAM; the tile
keeps its first trap's PC and thread, and a RUNNING context becomes FAULTED. -/
def TrapsStopTheThread : Prop :=
  ∀ (s : State) (c : CtxRef) (tid n src : Nat) (detail : W64) (names : List Nat), (s.ctx c).st = .running →
    let t := s.trapNamed c tid n src detail names
    t.thread tid n = { s.thread tid n with st := .trapped, wait := .none } ∧
    (∀ k m, ¬(k = tid ∧ m = n) → t.thread k m = s.thread k m) ∧
    (∀ k, (t.tile k).sram = (s.tile k).sram) ∧
    (t.ctx c).st = .faulted ∧
    ((s.tile tid).trapV = true → (t.tile tid).trapPc = (s.tile tid).trapPc ∧ (t.tile tid).trapThr = (s.tile tid).trapThr) ∧
    ((s.tile tid).trapV = false → (t.tile tid).trapV = true ∧ (t.tile tid).trapPc = (s.thread tid n).pc.truncate 18 ∧
      (t.tile tid).trapThr = BitVec.ofNat 3 n)

/-! ### Supersteps and barriers -/

/-- R51, R54: a tile whose six threads have each halted or executed SYNC, and whose cluster has no job left,
arrives unless it is fenced, and its exchange unit reads its list from the next tile cycle on (R249); with the
last tile the context arrives on the module: its arrival time is HT and its compute phase is over. -/
def TilesArrive : Prop :=
  ∀ (s : State) (tid : Nat) (c : CtxRef), tid < 8192 → s.ctxOfTile tid = some c → (s.ctx c).st = .running → (s.ctx c).run.phase = .compute →
    s.plat.pf = true → s.plat.pstate ≠ .standby →
    let ready := (∀ h ∈ (s.tile tid).thr, h.2.st = .halted ∨ h.2.wait = .sync) ∧ (s.cluster (tid / 256)).jobs = []
    let s' := s.setTile tid { s.tile tid with
      arrived := true, xch := { (s.tile tid).xch with readAt := some ((s.cluster (tid / 256)).tileCyc + 1) } }
    ((s.tile tid).fenced = true → exec (.tileArrival tid) s = .next s) ∧
    (¬ready → exec (.tileArrival tid) s = .next s) ∧
    (ready → (s.tile tid).fenced = false →
      ((∃ t ∈ (s.ctx c).tids, s'.tileIn t = false) → exec (.tileArrival tid) s = .next s') ∧
      ((∀ t ∈ (s.ctx c).tids, s'.tileIn t = true) → Yields (exec (.tileArrival tid) s) (fun t =>
        (t.ctx c).run.arrAt = some s.ht.now.toNat ∧ (t.ctx c).run.phase = .barrier ∧ (t.ctx c).run.ssn = (s.ctx c).run.ssn)))

/-- R55: the exchange phase begins at the first multiple of 256 ns at or after T_bc + 256 (a module-local
context) or T_bc + 2000 (a hall one). -/
def ExchangeStartOnGrid : Prop :=
  ∀ (tbc : Nat) (islocal : Bool),
    let t := tbc + (if islocal then 256 else 2000)
    xStartOf tbc islocal % 256 = 0 ∧ t ≤ xStartOf tbc islocal ∧ xStartOf tbc islocal < t + 256

/-- R58: with a non-zero budget the deadline is T_cs + budget; a module-local context at its barrier completes
at once, T_bc being HT; the root of a hall context completes when it and its children have arrived, and tells
every child port; no other module and no earlier time completes. -/
def BarrierCompletes : Prop :=
  ∀ (s : State) (c : CtxRef), c.ok = true →
    let x := s.ths c
    let at_barrier := (s.ctx c).st = .running ∧ (s.ctx c).run.phase = .barrier ∧ (s.ctx c).run.tbcV = false
    let due := (s.ctx c).run.islocal = true ∨
      (x.hall = true ∧ (x.root = true ∨ (x.rootTwin = true ∧ s.pair.lost = true)) ∧ x.self = true ∧ s.childrenIn x = true)
    (¬(at_barrier ∧ due) → exec (.barrierComplete c) s = .next s) ∧
    (at_barrier → (s.ctx c).run.islocal = true → exec (.barrierComplete c) s = .next (s.barrierDone c s.ht.now)) ∧
    (at_barrier → (s.ctx c).run.islocal = false → due → exec (.barrierComplete c) s =
      .next (forAll x.children (fun s p => s.sendThs p (completeWord x (s.ctx c).run.ssn s.ht.now)) (s.barrierDone c s.ht.now))) ∧
    (∀ tbc : W64, ((s.barrierDone c tbc).ctx c).run.tbc = tbc ∧ ((s.barrierDone c tbc).ctx c).run.tbcV = true ∧
      ((s.barrierDone c tbc).ctx c).run.xstart = BitVec.ofNat 64 (xStartOf tbc.toNat (s.ctx c).run.islocal) ∧
      ((s.pairOn = false ∨ (s.ctx c).run.inbox = []) → ((s.barrierDone c tbc).ctx c).st = (s.ctx c).st ∧
        ((s.barrierDone c tbc).ctx c).run.instant = (s.ctx c).run.instant ++ (if (s.ctx c).strict then
          ((s.ctx c).dies.filter (fun d => s.barrierLate c tbc.toNat d ≠ 0 ∧ (s.ss d c.slot).missAct = true)).map
            (fun d => (d, 2, s.barrierLate c tbc.toNat d)) else [])))

/-- R241, R242, R261, R264: at a port that is UP each copy of an ARRIVE that fails its check is counted in
SYMERR. An ARRIVE of a hall context from one of its child ports counts for its superstep, is kept for the next
one, and is counted and dropped when it is stale (R263 defines no order of two numbers 2^31 apart); one from
another port or of no hall context changes nothing more (log 28); two bad copies raise THS_SYMBOL_LOST and
fault the context that the HBID of the first names, if any (log 28). R262: a module whose own ARRIVE and whose
children's have come sends its ARRIVE once to its parents, two copies on each that is up, unless it is the root. -/
def ArrivesAreTaken : Prop :=
  ∀ (s : State) (p : Nat) (a b : W64), p < 16 →
    let s' := s.countCopies p a b
    let go := fun t => exec (.thsArriveReceive p a b) s = .next t
    ((s.port p).isUp = false → go s) ∧
    ((s.port p).isUp = true → s' = (s.countCopy p a).countCopy p b) ∧
    ((s.port p).isUp = true → goodCopy tyArrive a b = none →
      (s.hallCtx (bits (symBody a) 15 0) = none → go (s'.raise (p / 4) evThsSymbolLost noInfo)) ∧
      (∀ c, s.hallCtx (bits (symBody a) 15 0) = some c →
        go ((s'.raise (p / 4) evThsSymbolLost (s'.infoCtx c 0)).faultEvent c evThsSymbolLost))) ∧
    (∀ (t : State) (c : CtxRef), c.part < 4 → c.slot < 8 →
      let x := t.ths c
      let root := x.root = true ∨ (x.rootTwin = true ∧ t.pair.lost = true)
      let here := ∀ q ∈ x.children, x.arr.getLsbD q = true ∨ (x.pair.getLsbD (16 + q) = true ∧ (t.port q).isUp = false)
      let sends := x.hall = true ∧ x.sent = false ∧ x.self = true ∧ here ∧ (t.ctx c).st = .running ∧ ¬root
      let up := if x.rootTwin then [14] else x.parent :: (if t.pair.on ∧ x.altV ∧ x.altPar ≠ x.parent then [x.altPar] else [])
      let w : W64 := symWord 0x10 (x.hbid + 2 ^ 16 * (t.ctx c).run.ssn.toNat)
      (¬sends → t.thsTry c = t) ∧
      (sends → t.thsTry c = up.foldl (fun u q => if (u.port q).isUp then (u.sendSym q w).sendSym q w else u) (t.setThs c { x with sent := true }))) ∧
    ∀ w, (s.port p).isUp = true → goodCopy tyArrive a b = some w →
      (s.hallCtx (bits (symBody w) 15 0) = none → go s') ∧
      ∀ c, s.hallCtx (bits (symBody w) 15 0) = some c →
        let x := s.ths c
        let here := (s.ctx c).run.ssn
        let ssn : W32 := BitVec.ofNat 32 (bits (symBody w) 47 16)
        (x.child.getLsbD p = false → go s') ∧
        (x.child.getLsbD p = true → (ssn - here).toInt < 0 → -2147483648 < (ssn - here).toInt →
          go (s'.setThs c { x with stale := satAdd x.stale 1 })) ∧
        (x.child.getLsbD p = true → ssn = here → go ((s'.setThs c { x with arr := putBit x.arr p true }).thsTry c)) ∧
        (x.child.getLsbD p = true → ssn = here + 1 → x.early.getLsbD p = false →
          go (s'.setThs c { x with early := putBit x.early p true })) ∧
        (x.child.getLsbD p = true → 0 < (ssn - here).toInt → (ssn ≠ here + 1 ∨ x.early.getLsbD p = true) →
          go ((s'.raise (dieOfPort p) evThsSeq (s'.infoCtx c 0)).faultEvent c evThsSeq))

/-- R241, R242, R261, R279: each copy of a COMPLETE that fails its check is counted; a COMPLETE from a parent
port for the superstep at whose barrier the context waits is forwarded to the children and completes the
barrier at the T_bc nearest to HT; one that comes later than 64 ns before x_start faults the context; another
superstep's number faults it too; one of no hall context, from another port or of a context that is not at its
barrier is dropped (log 28). -/
def CompletesAreTaken : Prop :=
  ∀ (s : State) (p : Nat) (a b : W64), p < 16 →
    let s' := s.countCopies p a b
    let go := fun t => exec (.thsCompleteReceive p a b) s = .next t
    ((s.port p).isUp = false → go s) ∧
    ((s.port p).isUp = true → goodCopy tyComplete a b = none →
      (s.hallCtx (bits (symBody a) 15 0) = none → go (s'.raise (p / 4) evThsSymbolLost noInfo)) ∧
      (∀ c, s.hallCtx (bits (symBody a) 15 0) = some c →
        go ((s'.raise (p / 4) evThsSymbolLost (s'.infoCtx c 0)).faultEvent c evThsSymbolLost))) ∧
    ∀ w, (s.port p).isUp = true → goodCopy tyComplete a b = some w →
      (s.hallCtx (bits (symBody w) 15 0) = none → go s') ∧
      ∀ c, s.hallCtx (bits (symBody w) 15 0) = some c →
        let x := s.ths c
        let here := (s.ctx c).run.ssn
        let tbc : W64 := BitVec.ofNat 64 (nearest (bits (symBody w) 47 24) 24 s.ht.now.toNat)
        let t := (forAll x.children (fun s q => s.sendThs q (completeWord x here tbc)) s').barrierDone c tbc
        (p ∉ s.parents x → go s') ∧
        (p ∈ s.parents x → bits (symBody w) 23 16 ≠ here.toNat % 256 →
          go ((s'.raise (dieOfPort p) evThsSeq (s'.infoCtx c 0)).faultEvent c evThsSeq)) ∧
        (p ∈ s.parents x → bits (symBody w) 23 16 = here.toNat % 256 → s.atBarrier c = false → go s') ∧
        (p ∈ s.parents x → bits (symBody w) 23 16 = here.toNat % 256 → s.atBarrier c = true →
          (s.ht.now.toNat + 64 ≤ xStartOf tbc.toNat (s.ctx c).run.islocal → go t) ∧
          (xStartOf tbc.toNat (s.ctx c).run.islocal < s.ht.now.toNat + 64 →
            go ((t.raise (dieOfPort p) evThsCompleteLate (t.infoCtx c 0)).faultEvent c evThsCompleteLate)))

/-- R261: a time completed from its low n bits has those bits and lies within half of 2^n of the reference time. -/
def NearestTime : Prop :=
  ∀ (low n now : Nat), 0 < n → low < 2 ^ n → 2 ^ n ≤ now →
    nearest low n now % 2 ^ n = low ∧ nearest low n now ≤ now + 2 ^ n / 2 ∧ now ≤ nearest low n now + 2 ^ n / 2

/-- R58, R60: a Strict context that has not arrived by its deadline meets COMPUTE_OVERRUN with an overrun of 1
ns on each of its dies with MISS_ACT whose deadline has passed, which faults it as the nanosecond ends; a
context that is Elastic, has arrived, or has no passed deadline on a die with MISS_ACT, goes on. -/
def ComputeOverrunFaults : Prop :=
  ∀ (s : State) (c : CtxRef), c.ok = true →
    let late := fun d => s.budget c d ≠ 0 ∧ s.deadline c d < s.ht.now.toNat ∧ (s.ss d c.slot).missAct = true
    let open_ := (s.ctx c).st = .running ∧ (s.ctx c).run.phase = .compute ∧ (s.ctx c).run.arrAt = none
    (¬open_ ∨ (s.ctx c).strict = false ∨ (∀ d ∈ (s.ctx c).dies, ¬late d) → exec (.computeOverrun c) s = .next s) ∧
    (open_ → (s.ctx c).strict = true → (∃ d ∈ (s.ctx c).dies, late d) → exec (.computeOverrun c) s =
      .next (s.setCtx c { s.ctx c with run := { (s.ctx c).run with
        instant := (s.ctx c).run.instant ++ ((s.ctx c).dies.filter (fun d => late d)).map (fun d => (d, causeComputeOverrun, 1)) } }))

/-- R55, R250, R267, R278: at x_start, with every tile's list read, the phase becomes the exchange phase and
the lists are checked; if the context still runs, its ports' channels arm and the digest leaves. Nothing
happens before x_start or before T_bc is known. -/
def ExchangePhaseStarts : Prop :=
  ∀ (s : State) (c : CtxRef), c.ok = true →
    let run := (s.ctx c).run
    let ready := (s.ctx c).st = .running ∧ run.phase = .barrier ∧ run.tbcV = true ∧ run.xstart.toNat ≤ s.ht.now.toNat ∧
      ∀ t ∈ (s.ctx c).tids, (s.tile t).xch.next = none ∨ (s.tile t).xch.read = true ∨ (s.tile t).fenced = true
    let t := (s.setCtx c { s.ctx c with run := { run with phase := .exchange } }).checkLists c
    (¬ready → exec (.exchangePhaseStart c) s = .next s) ∧
    (ready → (t.ctx c).st ≠ .running → exec (.exchangePhaseStart c) s = .next t) ∧
    (ready → (t.ctx c).st = .running → exec (.exchangePhaseStart c) s =
      .next ((forAll (t.portsOf c) (fun s p => s.setXch p (s.port p).xch.armAll) t).sendDigest c))

/-- R53, R56, R57, R278: when the exchange is done, a context that no miss faults begins its next compute phase,
unless a HALT waits: SSN + 1, T_cs = HT, the budget index that its SYNCs chose, every thread that waits in SYNC
runnable at its next instruction, and no tile arrived; in Pair mode a digest that no copy has brought counts in
SKIPPED while a twin port is UP. -/
def NextSuperstepBegins : Prop :=
  ∀ (s : State) (c : CtxRef), c.ok = true → s.exchanging c = true →
    (s.phaseDone c = false → exec (.exchangePhaseEnd c) s = .next s) ∧
    ((s.ctx c).st ≠ .running → exec (.exchangePhaseEnd c) s = .next s) ∧
    (s.phaseDone c = true → (s.ctx c).st = .running →
      ((s.ctx c).strict = false ∨ ∀ d ∈ (s.ctx c).dies, s.missCauses c d = 0 ∨ (s.ss d c.slot).missAct = false) → Yields (exec (.exchangePhaseEnd c) s) (fun t =>
      (t.ctx c).run.ssn = (s.ctx c).run.ssn + 1 ∧ (t.ctx c).run.tcs = s.ht.now.toNat ∧ (t.ctx c).st = .running ∧
      (t.ctx c).run.phase = (if (s.ctx c).run.haltBy = [] then .compute else .boundary) ∧
      (t.ctx c).run.budIdx = (match (s.ctx c).run.cand with | some a => a.2.2 | none => (s.ctx c).run.budIdx) ∧
      (t.ctx c).run.arrAt = none ∧ (t.ctx c).run.tbcV = false ∧
      t.pair.skipped = (if s.pairOn = true ∧ (s.ctx c).run.digest.length = 4 ∧ (s.ctx c).run.compared = false ∧
        ((s.port 14).isUp = true ∨ (s.port 15).isUp = true) then satAdd s.pair.skipped 1 else s.pair.skipped) ∧
      ∀ k ∈ (s.ctx c).tids, (t.tile k).arrived = false ∧ (t.tile k).sram = (s.tile k).sram ∧
        ∀ n, t.thread k n = if (s.thread k n).wait = .sync
          then { s.thread k n with
            st := .runnable, wait := .none, from_ := (s.cluster (k / 256)).tileCyc + 1, pc := (s.thread k n).pc + 8 } else s.thread k n))

/-- R58 to R61, R63: what each die of a context finds late in a superstep, as it settles at the end of the
exchange: the arrival after D, T_bc after D + SYNCALLOW of an arrival by D, a late consumer, a slot overrun.
With a cause an Elastic context, and a Strict one with MISS_ACT 0, adds the compute part of its lateness and
the exchange's excess to STRETCH and counts in NSTRETCH; a Strict one counts in NMISS, raises DEADLINE_MISS,
once with all its causes, and records the causes, the SSN and the largest overrun (0 of a late consumer alone)
unless a record is held; with MISS_ACT 1 on a die with a cause the context faults, with the causes of all dies
in its fault records, and begins no superstep. -/
def LatenessIsSettled : Prop :=
  (∀ (s : State) (c : CtxRef) (d : Nat),
    let r := (s.ctx c).run
    let budget := s.budget c d
    let due := r.tcs + budget
    let allow := (s.ss d c.slot).allow.toNat
    let k := s.missCauses c d
    k < 16 ∧ (k.testBit 0 = true ↔ budget ≠ 0 ∧ ∃ a, r.arrAt = some a ∧ due < a) ∧
    (k.testBit 1 = true ↔ budget ≠ 0 ∧ (∃ a, r.arrAt = some a ∧ a ≤ due) ∧ due + allow < r.tbc.toNat) ∧
    (k.testBit 2 = true ↔ r.late.getLsbD d = true) ∧ (k.testBit 3 = true ↔ r.slotOver.getLsbD d = true) ∧
    (budget = 0 → s.computeLate c d = 0) ∧
    (∀ a, budget ≠ 0 → r.arrAt = some a → s.computeLate c d = max (a - due) (r.tbc.toNat - (due + allow)))) ∧
  (∀ (s : State) (c : CtxRef), c.ok = true → s.exchanging c = true → s.phaseDone c = true → (s.ctx c).st = .running →
    let x := s.ctx c
    let exc := s.ht.now.toNat - (x.run.xstart.toNat + s.refLen c)
    let fatal := x.strict = true ∧ ∃ d ∈ x.dies, s.missCauses c d ≠ 0 ∧ (s.ss d c.slot).missAct = true
    let most := fun (d : Nat) => if s.missCauses c d = 4 then 0 else max (s.computeLate c d) exc
    Yields (exec (.exchangePhaseEnd c) s) (fun t =>
      (fatal → (t.ctx c).st = .faulted ∧ (t.ctx c).run.ssn = x.run.ssn ∧
        ∀ d ∈ diesOf s.layout c.part, sget 0 (t.die d).rst.missBits c.slot = BitVec.ofNat 4 (x.dies.foldl (fun b d => b ||| s.missCauses c d) 0)) ∧
      (¬fatal → (t.ctx c).st = .running ∧ (t.ctx c).run.ssn = x.run.ssn + 1) ∧
      ∀ d ∈ x.dies, let a := s.ss d c.slot
        let b := t.ss d c.slot
        let k := s.missCauses c d
        b.missAct = a.missAct ∧ b.allow = a.allow ∧ (k = 0 → b = a) ∧
        (k ≠ 0 → x.strict = false ∨ a.missAct = false → b.stretch = satAdd a.stretch (s.computeLate c d + exc) ∧ b.nstretch = satAdd a.nstretch 1) ∧
        (x.strict = true → a.missAct = true → b.stretch = a.stretch ∧ b.nstretch = a.nstretch) ∧
        (x.strict = false → b.nmiss = a.nmiss ∧ b.missInfo = a.missInfo ∧ b.missSsn = a.missSsn ∧ b.missOver = a.missOver) ∧
        (k ≠ 0 → x.strict = true → b.nmiss = satAdd a.nmiss 1 ∧ (t.die d).evc.pend.getLsbD evDeadlineMiss = true ∧
          (a.missInfo.getLsbD 31 = false → b.missInfo = BitVec.ofNat 32 (2 ^ 31 + k) ∧ b.missSsn = x.run.ssn ∧ b.missOver.toNat = min (most d) (2 ^ 32 - 1)) ∧
          (a.missInfo.getLsbD 31 = true → b.missInfo = a.missInfo ∧ b.missSsn = a.missSsn ∧ b.missOver = a.missOver))))

/-- R75: a HALT takes effect at the boundary: the context is HALTED, its waiting commands are answered, and
nothing else moves. -/
def HaltTakesEffect : Prop :=
  ∀ (s : State) (c : CtxRef), c.ok = true →
    let x := s.ctx c
    (¬(x.st = .running ∧ x.run.phase = .boundary) → exec (.haltTakesEffect c) s = .next s) ∧
    (x.st = .running → x.run.phase = .boundary → exec (.haltTakesEffect c) s =
      .next (forAll x.run.haltBy (fun s r => s.replyCode r codeOk) (s.setCtx c { x with
        st := .halted, run := { x.run with phase := .compute, haltBy := [] } })))

/-! ### On-module exchange -/

/-- R249: once its tile has arrived an exchange unit reads its list, one entry in each tile cycle from the one
after the arrival on, up to END, the 64th entry or the end of the SRAM, before the exchange phase; a tile that
stands at the barrier with no cycle of arrival begins in the cycle in progress at its first read, if its banks are
free then (log 27); each read takes its banks ahead of every other request of that cycle. -/
def ExchangeListsAreRead : Prop :=
  ∀ (s : State) (tid cyc : Nat) (c : CtxRef) (a : Nat), tid < 8192 → s.ctxOfTile tid = some c → (s.tile tid).xch.next = some a →
    let u := (s.tile tid).xch
    let b := a + 16 * u.list.length
    let e := s.xEntryAt tid b
    let reads := (s.ctx c).st = .running ∧ (s.ctx c).run.phase ≠ .exchange ∧ s.tileIn tid = true ∧ (s.tile tid).fenced = false ∧ u.read = false ∧
      (u.readAt = some cyc ∨ (u.readAt = none ∧ cyc = (s.cluster (tid / 256)).tileCyc ∧ s.bankTaken tid cyc prioExchange (wideMask b) = false))
    (¬reads → exec (.exchangeListRead tid cyc) s = .next s) ∧
    (reads → Yields (exec (.exchangeListRead tid cyc) s) (fun t =>
      t = { s with tiles := t.tiles, free := s.free + 1 } ∧ (∀ k, k ≠ tid → t.tile k = s.tile k) ∧
      t.tile tid = { s.tile tid with
        grants := ((s.tile tid).grant cyc prioExchange (wideMask b)).grants
        xch := if 0x30000 < b + 16 then { u with read := true }
          else { u with list := u.list ++ [e], readAt := some (cyc + 1), read := e.isEnd || decide (64 ≤ u.list.length + 1) } }))

/-- R250, R252: in its cycle unit k of a send entry leaves the tile with the 32 bytes at ADDR + 32 k, once; a
fenced tile sends nothing. -/
def ExchangeUnitsLeave : Prop :=
  ∀ (s : State) (tid i k : Nat) (c : CtxRef) (e : XEntry), tid < 8192 → i < 64 → s.ctxOfTile tid = some c → (s.tile tid).xch.list[i]? = some e →
    let now_ := s.unitRuns c tid ((s.ctx c).run.xstart.toNat + (e.start + k)) = true ∧ e.isSend = true ∧ k < e.count ∧ (i, k) ∉ (s.tile tid).xch.sent ∧ (s.tile tid).fenced = false ∧
      (s.ctx c).run.xstart.toNat + e.start + k ≤ s.ht.now.toNat
    let f : Flight :=
      { id := s.freshUnit, ctx := c, cxh := s.cxh c, src := tid, dest := if e.kind = 3 then .port e.port (e.pbuf + k) else .tile e.peer,
        data := unitOf ((List.range 32).map (fun j => s.feedByte tid (e.addr + 32 * k + j))), lane := e.lane, yx := e.yx,
        rr := (routerOf tid).1, rc := (routerOf tid).2, cycle := (s.ctx c).run.xstart.toNat + (e.start + k), arrived := false }
    (¬now_ → exec (.exchangeUnitSend tid i k) s = .next s) ∧
    (now_ → Yields (exec (.exchangeUnitSend tid i k) s) (fun t =>
      t = { s with flights := s.flights ++ [f], tiles := t.tiles } ∧ (∀ m, m ≠ tid → t.tile m = s.tile m) ∧
      t.tile tid = { s.tile tid with
        grants := (t.tile tid).grants
        xch := { (s.tile tid).xch with sent := (i, k) :: (s.tile tid).xch.sent } }))

/-- R24, R244 to R246, R250, R251: at its cycle a unit goes on by X then Y (or Y then X) to the next router, or
into its tile, by the one lane of that tile's port, or into its port; on a lane that another unit uses in that
cycle both are dropped, the collision is recorded on the router's die, with the cycle at which the lane was
used twice (the arrival for a tile, log 27), and their contexts fault; XCH_ERR keeps the first record. -/
def ExchangeUnitsHop : Prop :=
  ∀ (s : State) (u : Nat) (f : Flight), s.flights.find? (fun f => f.id = u) = some f →
    let r := (f.rr, f.rc)
    let o := outOf r (destRouter f.dest) f.yx (match f.dest with | .tile _ => outTile | .port _ _ => outPort)
    let lane := if o = outTile then 0 else f.lane
    let cyc := if o = outTile then f.cycle + 2 else f.cycle
    let chan := match f.dest with | .tile t => if o = outTile then 16384 + t else chanOf r o | .port _ _ => chanOf r o
    let free := ∀ l ∈ s.lanes, ¬(l.cycle = cyc ∧ l.chan = chan ∧ l.lane = lane)
    let goes := s.plat.pstate ≠ .standby ∧ s.plat.pf = true
    ((f.arrived = true ∨ s.ht.now.toNat < f.cycle ∨ ¬goes) → exec (.exchangeUnitHop u) s = .next s) ∧
    (goes → f.arrived = false → f.cycle ≤ s.ht.now.toNat → s.fencedDest f o = true →
      exec (.exchangeUnitHop u) s = .next { s with flights := s.flights.filter (fun g => g.id ≠ f.id) }) ∧
    (goes → f.arrived = false → f.cycle ≤ s.ht.now.toNat → s.fencedDest f o = false → free → Yields (exec (.exchangeUnitHop u) s) (fun t =>
      t = { s with flights := t.flights, lanes := t.lanes } ∧
      t.flights = s.flights.map (fun g => if g.id = f.id then { f with
        rr := (stepOut r o).1, rc := (stepOut r o).2, arrived := (o = outTile ∨ o = outPort),
        cycle := f.cycle + 2 + (if routerDie (stepOut r o) ≠ routerDie r ∨ o = outPort then 4 else 0) } else g))) ∧
    (goes → f.arrived = false → f.cycle ≤ s.ht.now.toNat → s.fencedDest f o = false →
      ∀ l, s.lanes.find? (fun l => l.cycle = cyc && l.chan = chan && l.lane = lane) = some l →
        let d := routerDie r
        let w0 := (cyc - (s.ctx f.ctx).run.xstart.toNat) % 2 ^ 24 + 2 ^ 24 * f.rr + 2 ^ 29 * f.rc + 2 ^ 35 * o + 2 ^ 38 * lane + 2 ^ 43 * f.cxh.toNat
        let w1 := l.src + 2 ^ 16 * f.src + 2 ^ 32 * (s.ctx f.ctx).run.ssn.toNat
        let dropped : State := { s with flights := s.flights.filter (fun g => g.id ≠ f.id && g.id ≠ l.unit) }
        let t := dropped.xchRecord d w0 w1
        exec (.exchangeUnitHop u) s = .next (((t.raise d evXchCollide (t.infoCtx f.ctx 0)).faultEvent f.ctx evXchCollide).faultEvent l.ctx evXchCollide) ∧
        t = { dropped with dies := t.dies } ∧ (∀ k, k < 4 → k ≠ d → t.die k = s.die k) ∧
        ((s.die d).xerr0.getLsbD 63 = true → (t.die d).xerr0 = (s.die d).xerr0 ∧ (t.die d).xerr1 = (s.die d).xerr1) ∧
        ((s.die d).xerr0.getLsbD 63 = false → d < 4 → (t.die d).xerr0 = BitVec.ofNat 64 (w0 + 2 ^ 63) ∧ (t.die d).xerr1 = BitVec.ofNat 64 w1))

/-- R245: from every router of the module a route of either order reaches its destination's router, one row or
column at a time. -/
def RoutesReachTheirEnd : Prop :=
  ∀ (r d : Nat × Nat) (yx : Bool), r.1 < 32 → r.2 < 64 → d.1 < 32 → d.2 < 64 →
    (route d yx 96 r).getLast? = some d ∧ (route d yx 96 r).head? = some r ∧
    ∀ x ∈ route d yx 96 r, x.1 < 32 ∧ x.2 < 64

/-- R250, R251, R252, R42: a unit that a RECV entry expects in its cycle from that tile is written at the
entry's address; one that no entry expects in its cycle, or from another tile, is an arrival error of cause 5;
one of a stale epoch, for a unit that its context's stop has reached, or for a fenced tile is dropped; one for
a port that no other context holds goes into its buffer. -/
def ExchangeUnitsLand : Prop :=
  ∀ (s : State) (u : Nat) (f : Flight), s.flights.find? (fun f => f.id = u) = some f →
    let s' := { s with flights := s.flights.filter (fun g => g.id ≠ u) }
    ((f.arrived = false ∨ s.ht.now.toNat < f.cycle ∨ s.plat.pstate = .standby ∨ s.plat.pf = false) → exec (.exchangeUnitArrival u) s = .next s) ∧
    (f.arrived = true → f.cycle ≤ s.ht.now.toNat → s.plat.pstate ≠ .standby → s.plat.pf = true →
      (∀ t, f.dest = .tile t → ((s.tile t).fenced = true ∨ s.cxh f.ctx ≠ f.cxh ∨ s.unitRuns f.ctx t f.cycle = false) →
        exec (.exchangeUnitArrival u) s = .next s') ∧
      (∀ t, f.dest = .tile t → (s.tile t).fenced = false → s.cxh f.ctx = f.cxh → s.unitRuns f.ctx t f.cycle = true → s.ctxOfTile t = some f.ctx →
        let n := f.cycle - (s.ctx f.ctx).run.xstart.toNat
        (∀ e, recvAt (s.tile t).xch.list n = e → (∀ i x, e = some (i, x) → x.peer ≠ f.src) →
          exec (.exchangeUnitArrival u) s = .next ((s'.listError f.ctx (t / 2048) t 5 n).faultEvent f.ctx evXchListError))) ∧
      (∀ t i e, f.dest = .tile t → (s.tile t).fenced = false → s.cxh f.ctx = f.cxh → s.unitRuns f.ctx t f.cycle = true → s.ctxOfTile t = some f.ctx →
        let n := f.cycle - (s.ctx f.ctx).run.xstart.toNat
        let a := e.addr + 32 * (n - e.start)
        recvAt (s.tile t).xch.list n = some (i, e) → e.peer = f.src → (s.bank (t / 256) (groupOf a)).serves = true → Yields (exec (.exchangeUnitArrival u) s) (fun w =>
          w = { s' with tiles := w.tiles } ∧ (∀ k, k ≠ t → w.tile k = s.tile k) ∧
          w.tile t = { s.tile t with
            sram := mwrite (s.tile t).sram a (toLE 32 f.data.toNat)
            grants := (w.tile t).grants
            xch := { (s.tile t).xch with got := (i, n - e.start) :: (s.tile t).xch.got } })) ∧
      (∀ p k, f.dest = .port p k → (s.cxh f.ctx ≠ f.cxh ∨ ∃ o, (s.port p).xch.owner = some o ∧ o ≠ f.ctx) →
        exec (.exchangeUnitArrival u) s = .next s') ∧
      (∀ p k, f.dest = .port p k → s.cxh f.ctx = f.cxh → ((s.port p).xch.owner = none ∨ (s.port p).xch.owner = some f.ctx) →
        exec (.exchangeUnitArrival u) s = .next (s'.setXch p { (s.port p).xch with
          buf := sput (s.port p).xch.buf k f.data, red := (s.port p).xch.red.filter (fun i => i ≠ k) })))

/-- R250, R265: a cycle of a RECV entry that has passed without its unit is an arrival error of cause 6:
recorded once, and the context faults. -/
def MissingUnitsFault : Prop :=
  ∀ (s : State) (tid i k : Nat) (c : CtxRef) (e : XEntry), tid < 8192 → i < 64 → s.ctxOfTile tid = some c → (s.tile tid).xch.list[i]? = some e →
    let miss := s.unitRuns c tid ((s.ctx c).run.xstart.toNat + (e.start + k)) = true ∧ e.isRecv = true ∧ k < e.count ∧ (i, k) ∉ (s.tile tid).xch.got ∧
      (s.ctx c).run.xstart.toNat + (e.start + k) < s.ht.now.toNat
    (¬miss → exec (.exchangeUnitMissing tid i k) s = .next s) ∧
    (miss → exec (.exchangeUnitMissing tid i k) s = .next (((s.setTile tid { s.tile tid with
      xch := { (s.tile tid).xch with got := (i, k) :: (s.tile tid).xch.got } }).listError c (tid / 2048) tid 6 (e.start + k)).faultEvent c evXchListError))

/-- R173, R174: a watch slot whose countdown has reached 0 closes its step: the zero streak counts a step with
elements and no non-zero one up to 0xFFFF, and restarts at a non-zero one; where it reaches ZTHR (and ZTHR is
not 0) the slot's alarm bit is set and NUM_ZERO_STREAK is raised, once; STEP counts, the countdown restarts at
PERIOD, and the next step may raise NUM_NONFINITE. In STANDBY (R44) none closes. -/
def WatchStepsClose : Prop :=
  ∀ (s : State) (d n : Nat) (c : CtxRef), d < 4 → n < 256 →
    let x := s.die d
    let k := sget {} x.watch n
    let any := k.stat.getLsbD 16
    let nz := k.stat.getLsbD 17
    let old := k.stat.toNat % 65536
    let streak := if nz then 0 else if any then min (old + 1) 65535 else old
    let zthr := k.cfg.toNat / 65536
    let alarm := any = true ∧ nz = false ∧ zthr ≠ 0 ∧ streak = zthr ∧ old ≠ streak
    let info := s.infoCtx c (BitVec.ofNat 64 (n + 2 ^ 32 * k.step.toNat))
    k.owner = some c → (s.ctx c).live = true →
    (k.count ≠ 0 ∨ s.plat.pstate = .standby → exec (.watchStepClose d n) s = .next s) ∧
    (k.count = 0 → s.plat.pstate ≠ .standby → ∃ k' : Watch,
      k' = { k with step := k.step + 1, count := k.cfg.toNat % 65536 + 1, told := false, stat := k'.stat } ∧
      k'.stat.toNat % 65536 = streak ∧ k'.stat.getLsbD 16 = false ∧ k'.stat.getLsbD 17 = false ∧ k'.stat.getLsbD 18 = false ∧
      (k'.stat.getLsbD 24 = true ↔ alarm ∨ k.stat.getLsbD 24 = true) ∧
      (∀ b, 18 < b → b ≠ 24 → k'.stat.getLsbD b = k.stat.getLsbD b) ∧
      (let t := s.setDie d { x with watch := sput x.watch n k' }
       (alarm → exec (.watchStepClose d n) s = .next ((t.hwSet (bar0Bit d (0x70028 + 0x40 * n) 56)).raise d evNumZeroStreak info)) ∧
       (¬alarm → exec (.watchStepClose d n) s = .next t)))

/-! ### Clover -/

/-- R44, R46, R357, R361, R384: a cluster's clocks that wait to start run, unless the module has tripped,
loses power or is in STANDBY; running clocks without demand begin to stop; clocks that are stopping stop, or
start again for a demand that came meanwhile. The row CLUSTER_GATING stands for both ends of a stop (log 22).
Nothing else changes. -/
def ClusterClocks : Prop :=
  ∀ (s : State) (cid : Nat), cid < 32 →
    let x := s.cluster cid
    let now := s.ht.now.toNat
    let barred := s.plat.trip = true ∨ s.plat.pf = false ∨ s.plat.pstate = .standby
    (x.clk = .starting → ¬barred → exec (.clusterClockStart cid) s = .next (s.setCluster cid { x with clk := .running, since := now })) ∧
    (x.clk ≠ .starting ∨ barred → exec (.clusterClockStart cid) s = .next s) ∧
    (x.clk = .running → s.hasDemand cid = false →
      exec (.clusterGating cid) s = .next (s.setCluster cid { x with clk := .gating, since := now })) ∧
    (x.clk = .running → s.hasDemand cid = true → exec (.clusterGating cid) s = .next s) ∧
    (x.clk = .gating → x.want = false →
      exec (.clusterGating cid) s = .next (s.setCluster cid { x with clk := .stopped, want := false, since := now })) ∧
    (x.clk = .gating → x.want = true → ¬barred →
      exec (.clusterGating cid) s = .next (s.setCluster cid { x with clk := .starting, want := false, since := now })) ∧
    (x.clk = .gating → x.want = true → barred →
      exec (.clusterGating cid) s = .next (s.setCluster cid { x with clk := .stopped, want := true, since := now })) ∧
    (x.clk = .starting ∨ x.clk = .stopped → exec (.clusterGating cid) s = .next s)

/-- R124, R360: in 1 ns a running cluster's clocks pass K / 16 of 1.6 and 1.0 cycles in Full and of 1.4 and
0.8 in Envelope, without loss of a fraction; stopped clocks pass none. -/
def ClockRates : Prop :=
  ∀ x : Cluster, x.tilePh < 80 → x.cloverPh < 80 →
    let y := x.tick
    (x.clk = .running → x.envelope = false →
      80 * y.tileCyc + y.tilePh = 80 * x.tileCyc + x.tilePh + 8 * x.k ∧ 80 * y.cyc + y.cloverPh = 80 * x.cyc + x.cloverPh + 5 * x.k) ∧
    (x.clk = .running → x.envelope = true →
      80 * y.tileCyc + y.tilePh = 80 * x.tileCyc + x.tilePh + 7 * x.k ∧ 80 * y.cyc + y.cloverPh = 80 * x.cyc + x.cloverPh + 4 * x.k) ∧
    (x.clk ≠ .running → y = x) ∧ y.tilePh < 80 ∧ y.cloverPh < 80

/-- R124, R262, R359, R360: a cluster takes a mode that is ordered for it at a feed-window boundary, at once
where its clocks do not run, and with it a step K that is not below the mode's floor of 10 or 12; until then
it keeps its mode and its step. A change of mode puts an edge of both clocks there, from which they align at
the mode's own ratio. That a running cluster turns at its next feed-window boundary, with K raised, and that
the cycles in progress begin anew, are the model's choices (log 22; R359 has the mode begin at a compute
phase). -/
def ModesTurnAtBoundaries : Prop :=
  ∀ (x : Cluster) (env : Bool),
    let free := x.clk ≠ .running ∨ x.cyc % 16 = 0
    let y : Cluster := { x with toMode := some env }
    (free → y.turn.envelope = env ∧ y.turn.toMode = none ∧ y.turn.k = max x.k (if env then 12 else 10) ∧ y.turn.cyc = x.cyc ∧ y.turn.tileCyc = x.tileCyc ∧
      (env ≠ x.envelope → y.turn.cloverPh = 0 ∧ y.turn.tilePh = 0) ∧ (env = x.envelope → y.turn.cloverPh = x.cloverPh ∧ y.turn.tilePh = x.tilePh)) ∧
    (¬free → y.turn = y) ∧
    (x.toMode = none → x.turn = x) ∧
    (∀ (s : State) (cid : Nat), s.cluster cid = x → ∃ z : Cluster, s.orderMode cid env = s.setCluster cid z ∧
      (free → z = { x with
        envelope := env
        k := max x.k (if env then 12 else 10)
        toMode := none
        cloverPh := if env = x.envelope then x.cloverPh else 0
        tilePh := if env = x.envelope then x.tilePh else 0 }) ∧ (¬free → z = y))

/-- R117: Kc, the Clover cycles of the K steps of an output tile: 3K for FP32, K for 16-bit formats, K / 2 for
8- and 6-bit formats. -/
def KStepCycles : Prop :=
  ∀ w : List W64,
    (jobFmtA w % 8 = 0 → jobKc w = 3 * jobK w) ∧
    (jobFmtA w % 8 = 1 ∨ jobFmtA w % 8 = 2 → jobKc w = jobK w) ∧
    (3 ≤ jobFmtA w % 8 → jobKc w = jobK w / 2)

/-- R119, R121, R161, R164: a job begins its first output tile at s_0 once the jobs before it have fed their
last, and the later ones at s_0 + n P with P the larger of Kc and 256; each start reads the tile's scale
entry, before an update of its cycle and after those of earlier ones. -/
def CloverTilesStart : Prop :=
  ∀ (s : State) (cid e : Nat) (c : CtxRef) (before : List Job) (j : Job) (after : List Job), cid < 32 → e < 3 →
    s.ctxOfCid cid = some c → (s.ctx c).live = true → (s.cluster cid).clk = .running →
    let y := s.engine cid e
    let cyc := (s.cluster cid).cyc
    let x := scaleExp (sget 0 (s.cluster cid).scale (jobScaleBase j.words + j.started))
    let j' := { j with started := j.started + 1, exps := j.exps ++ [if jobDscale j.words then x else 0] }
    let t := s.setEngine cid e { y with q := before ++ j' :: after }
    y.q = before ++ j :: after →
    (j.started = 0 → (∀ k ∈ before, k.started = jobTiles k.words ∧ k.started ≠ 0) →
      (j.s0 ≤ cyc → (s.cluster cid).mayStart j 0 = true → exec (.cloverJobStart cid e) s = .next t) ∧
      (cyc < j.s0 ∨ (s.cluster cid).mayStart j 0 = false → Yields (exec (.cloverJobStart cid e) s) (fun u => u.engine cid e = y))) ∧
    (0 < j.started → j.started < jobTiles j.words → (∀ k ∈ before, jobTiles k.words ≤ k.started) →
      (j.s0 + j.started * max (jobKc j.words) 256 ≤ cyc → (s.cluster cid).mayStart j j.started = true → exec (.cloverOutputTileStart cid e) s = .next t) ∧
      (cyc < j.s0 + j.started * max (jobKc j.words) 256 ∨ (s.cluster cid).mayStart j j.started = false →
        Yields (exec (.cloverOutputTileStart cid e) s) (fun u => u.engine cid e = y)))

/-- R125, R127: at the first tile cycle of a feed window the port of a lane reads the lines that are due,
which its engines hold from then on, and changes nothing else; in each tile cycle of the window the banks of
the access that is due are free to no other requester. -/
def FeedWindowReadsLines : Prop :=
  ∀ (s : State) (cid lane win cyc : Nat) (c : CtxRef), cid < 32 → lane < 256 → s.cloverCtx cid = some c →
    let x := s.cluster cid
    let t0 := 256 * cid + lane
    (16 * win ≤ x.cyc → cyc = x.tileAt (16 * win) → Yields (exec (.cloverFeedWindow cid lane win cyc) s) (fun t =>
      t = { s with tiles := t.tiles, free := s.free + 1 } ∧ (∀ k, k ≠ t0 → t.tile k = s.tile k) ∧
      t.tile t0 = { s.tile t0 with feed := (t.tile t0).feed } ∧
      (∀ a ∈ x.due lane win, a.writes = false → ∃ l ∈ (t.tile t0).feed, l.of a = true ∧
        ((∀ i, i < 32 → (s.bank cid (groupOf (a.addr + i))).serves = true) → l.data = s.sramRead t0 a.addr 32)) ∧
      ∀ l ∈ (s.tile t0).feed, (∀ a ∈ x.due lane win, a.writes = false → l.of a = false) → l ∈ (t.tile t0).feed)) ∧
    (x.cyc < 16 * win ∨ cyc ≠ x.tileAt (16 * win) → exec (.cloverFeedWindow cid lane win cyc) s = .next s) ∧
    (∀ i a prio m, (x.due lane win)[i]? = some a → x.cloverAt (x.tileAt (16 * win) + i) / 16 = win → wideMask a.addr &&& m ≠ 0 →
      s.bankFree t0 (x.tileAt (16 * win) + i) prio m = false)

/-- R118, R119, R139, R147: at w_n = s_n + Kc + 510 the accumulators of the output tile hold their sums and
drain from then on; CLV_STEPS has counted each unmasked cell's K steps as they were performed, rows × columns
× Kc of an output tile by its wavefront. -/
def WavefrontsComplete : Prop :=
  ∀ (s : State) (cid e : Nat) (c : CtxRef) (before : List Job) (j : Job) (after : List Job), cid < 32 → e < 3 → s.cloverCtx cid = some c →
    let x := s.cluster cid
    let y := s.engine cid e
    let n := j.waves
    let w := j.words
    let w_n := j.s0 + n * max (jobKc w) 256 + jobKc w + 510
    y.q = before ++ j :: after → (∀ k ∈ before, jobTiles k.words ≤ k.waves) → n < j.started → n < jobTiles w →
    (w_n ≤ x.cyc → Yields (exec (.cloverWavefrontComplete cid e) s) (fun t =>
      t = { s with clusters := t.clusters, free := s.free + 1 } ∧ (∀ k, k ≠ cid → t.cluster k = s.cluster k) ∧
      t.cluster cid = { x with eng := (t.cluster cid).eng } ∧ (∀ k, k ≠ e → t.engine cid k = s.engine cid k) ∧
      t.engine cid e = { y with
        q := before ++ { j with waves := n + 1 } :: after
        acc := s.tileAcc cid e j n
        accOf := some (j.order, n)
        pmAt := none
        steps := satAdd y.steps (x.partialSteps y - y.base)
        base := (t.engine cid e).base })) ∧
    (x.cyc < w_n → Yields (exec (.cloverWavefrontComplete cid e) s) (fun t => t = s)) ∧
    (s.tileAcc cid e j n).length = jobRows w n * jobCols w n ∧
    (∀ cyc, w_n ≤ cyc → tileSteps j n cyc = jobRows w n * jobCols w n * jobKc w) ∧
    (∀ cyc, cyc ≤ j.sAt n → tileSteps j n cyc = 0)

/-- R118, R151, R156, R157: one cell's sum of exact products, each added with one rounding in K order from +0.
Operands decode by their format; an FP32 cell makes three passes, low A by high B, high A by low B, high A by
high B, where high is the truncation to BF16 and low the rest, rounded to BF16, but of an operand that is not
finite high is the operand and low is 0. -/
def CellsAccumulateInOrder : Prop :=
  (∀ xs ys : List FVal, dotF xs ys = (xs.zip ys).foldl (fun (a : W32) p => toF32 ((f32 a).add (p.1.mul p.2))) 0) ∧
  (∀ a : W32, ((f32 a).finite = true → hiF a = a &&& 0xFFFF0000 ∧ loF a = fDecode 1 (fConvert 1 none ((f32 a).add (f32 (hiF a)).neg)).1) ∧
    ((f32 a).finite = false → hiF a = a ∧ loF a = .fin false 0 0)) ∧
  (∀ (s : State) (cid e : Nat) (j : Job) (n lane : Nat) (b : Bool),
    let w := j.words
    let code := fmtCode (if b then jobFmtB w else jobFmtA w)
    let base := if b then jobBBase w + jobNb w n * jobBStride w else jobABase w + jobMb w n * jobAStride w
    let v := fun (p i : Nat) => s.fedElem (256 * cid + lane)
      { eng := e, kind := if b then 1 else 0, job := j.order, n := n, pass := p, addr := 0 } base (fmtWidth code) i
    let hi := fun (p : Nat) => (List.range (jobK w)).map (fun i => f32 (hiF (BitVec.ofNat 32 (v p i))))
    let lo := fun (p : Nat) => (List.range (jobK w)).map (fun i => loF (BitVec.ofNat 32 (v p i)))
    (jobMx w = false → fmtCode (jobFmtA w) = 0 → code = 0 →
      s.laneVals cid e j n lane b = (if b then hi 0 ++ lo 1 ++ hi 2 else lo 0 ++ hi 1 ++ hi 2)) ∧
    (jobMx w = false → fmtCode (jobFmtA w) ≠ 0 → code ≠ 0 →
      s.laneVals cid e j n lane b = (List.range (jobK w)).map (fun i => fDecode code (v 0 i))))

/-- R120, R125, R127, R142, R171, R174, R202: the next unit of a row, in the feed window after the one in which its
last value was delivered, is written where OUT_BASE and OUT_STRIDE place it: the stored bytes are the drain
function's values converted, every other byte of the tile and every other tile's memory stay, and the row's count
of units moves on. With WATCH_EN the job's slot counts its values, its zeros, those that saturated and those that are
not finite, and the step's first of these raises NUM_NONFINITE; no other slot changes. In a bank group without power
nothing is written and the context faults. -/
def DrainUnitsAreWritten : Prop :=
  ∀ (s : State) (cid e row unit : Nat) (c : CtxRef), cid < 32 → e < 3 → row < 256 → unit < 32 →
    s.cloverCtx cid = some c → Memory.wf (s.tile (256 * cid + row)).sram = true →
    let y := s.engine cid e
    let t := 256 * cid + row
    (y.rowTile row = none → exec (.cloverDrainWrite cid e row unit) s = .next s) ∧
    ∀ (j : Job) (n : Nat), y.rowTile row = some (j, n) →
    let w := j.words
    let lo := (unitCols w n unit).1
    let m := (unitCols w n unit).2
    let xs := ((List.range m).map (fun i => lo + i)).map (fun k => convertOut w (j.exps.getD n 0) (256 * jobMb w n + row) (256 * jobNb w n + k)
      (drainFn w (s.drainAcc cid e j n row k) (s.priorAt t e j n k) (s.auxAt t e j n k)).c)
    let code := fmtCode (jobFmtOut w)
    let bs := xs.flatMap (fun x => toLE (fmtWidth code / 8) x.bits)
    let zeros := (xs.filter (fun x => x.bits % 2 ^ (fmtWidth code - 1) = 0)).length
    let sats := (xs.filter (fun x => x.sat)).length
    let bad := (xs.filter (fun x => !(fDecode code x.bits).finite)).length
    let die := s.die (cid / 8)
    let slot := sget ({} : Watch) die.watch (jobWatch w)
    let due := sget 0 j.rows (256 * n + row) = unit ∧ 16 * ((j.sAt n + jobKc w + 255 + row + (lo + m - 1)) / 16 + 1) ≤ (s.cluster cid).cyc
    (n < j.started ∧ row < jobRows w n ∧ sget 0 j.rows (256 * n + row) < rowUnits w n) ∧
    (¬due → exec (.cloverDrainWrite cid e row unit) s = .next s) ∧
    (due → (s.bank cid (groupOf (outAddr w n lo))).serves = false → Yields (exec (.cloverDrainWrite cid e row unit) s) (fun u =>
      (∀ k, u.tile k = s.tile k) ∧ (u.die (cid / 8)).evc.pend.getLsbD evBankOff = true ∧ (∀ k, (u.die k).watch = (s.die k).watch) ∧
      ((s.ctx c).st = .running → (u.ctx c).st = .faulted))) ∧
    (due → (s.bank cid (groupOf (outAddr w n lo))).serves = true →
      Yields (exec (.cloverDrainWrite cid e row unit) s) (fun u =>
        (∀ k, k ≠ t → u.tile k = s.tile k) ∧ u.tile t = { s.tile t with sram := (u.tile t).sram } ∧
        (∀ i (h : i < bs.length), u.sramByte t (outAddr w n lo + i) = bs[i]) ∧
        (∀ b, b < outAddr w n lo ∨ outAddr w n lo + bs.length ≤ b → u.sramByte t b = s.sramByte t b) ∧
        (jobWatchEn w = false → u.dies = s.dies) ∧
        (jobWatchEn w = true → (∀ k, k < 4 → k ≠ cid / 8 → u.die k = s.die k) ∧
          (∀ k, k ≠ jobWatch w → sget ({} : Watch) (u.die (cid / 8)).watch k = sget ({} : Watch) die.watch k) ∧
          sget ({} : Watch) (u.die (cid / 8)).watch (jobWatch w) = slot.add s.ht.now.toNat xs.length zeros sats bad ∧
          (bad ≠ 0 ∧ slot.told = false → (u.die (cid / 8)).evc.pend.getLsbD evNumNonfinite = true) ∧
          (bad = 0 ∨ slot.told = true → (u.die (cid / 8)).evc = die.evc)) ∧
        (∀ b, b ≠ e → u.engine cid b = s.engine cid b) ∧ (u.engine cid e).acc = y.acc ∧
        (u.engine cid e).q.map Job.rows = y.q.map (fun k => if k.order = j.order then sput k.rows (256 * n + row) (unit + 1) else k.rows)))

/-- R125, R127: a job with ZOUT_EN writes the values before its activation, in ZOUT's own units of sixteen
16-bit values (the row's units 32 to 47 stand for them, log 18), each in the feed window after the one in
which its last value was delivered, where ZOUT_BASE and ZOUT_STRIDE place them; nothing else of the tiles
changes. -/
def ZoutUnitsAreWritten : Prop :=
  ∀ (s : State) (cid e row z : Nat) (c : CtxRef), cid < 32 → e < 3 → row < 256 → z < 16 →
    s.cloverCtx cid = some c → Memory.wf (s.tile (256 * cid + row)).sram = true →
    let y := s.engine cid e
    let t := 256 * cid + row
    let run := exec (.cloverDrainWrite cid e row (32 + z)) s
    (y.zrowTile row = none → run = .next s) ∧
    ∀ (j : Job) (n : Nat), y.zrowTile row = some (j, n) →
    let w := j.words
    let m := min 16 (jobCols w n - 16 * z)
    let a := jobZoutBase w + jobMb w n * jobZoutStride w + 2 * (256 * jobNb w n + 16 * z)
    let bs := ((List.range m).map (fun i => 16 * z + i)).flatMap (fun k => toLE 2
      (drainFn w (s.drainAcc cid e j n row k) (s.priorAt t e j n k) (s.auxAt t e j n k)).z)
    let due := sget 0 j.zrows (256 * n + row) = z ∧ 16 * ((j.sAt n + jobKc w + 255 + row + (16 * z + m - 1)) / 16 + 1) ≤ (s.cluster cid).cyc
    (jobZoutEn w = true ∧ n < j.started ∧ row < jobRows w n ∧ 16 * sget 0 j.zrows (256 * n + row) < jobCols w n) ∧
    (¬due → run = .next s) ∧
    (due → (s.bank cid (groupOf a)).serves = true → Yields run (fun u =>
      (∀ k, k ≠ t → u.tile k = s.tile k) ∧ u.tile t = { s.tile t with sram := (u.tile t).sram } ∧ u.dies = s.dies ∧
      (∀ i (h : i < bs.length), u.sramByte t (a + i) = bs[i]) ∧ (∀ b, b < a ∨ a + bs.length ≤ b → u.sramByte t b = s.sramByte t b) ∧
      (u.engine cid e).acc = y.acc ∧ (u.engine cid e).q.map Job.rows = y.q.map Job.rows ∧
      (u.engine cid e).q.map Job.zrows = y.q.map (fun k => if k.order = j.order then sput k.zrows (256 * n + row) (z + 1) else k.zrows)))

/-- R171, R172, R174, R176: what the values of one write add to a watch slot: the counts, which stay at all ones and
then set their SAT bit; the step's flags ANY, NZ (a value that is no zero) and BAD; and, with the step's first value
that is not finite, NFALARM, and WFIRSTBAD where it was 0. STREAK, ZALARM and STEP stay. -/
def WatchSlotsCount : Prop :=
  ∀ (k : Watch) (now n ze sa nf : Nat), ze ≤ n →
    let t := k.add now n ze sa nf
    let top := fun (v : BitVec 48) (m : Nat) => min (v.toNat + m) (2 ^ 48 - 1)
    let full := fun (v : BitVec 48) (m : Nat) => decide (m ≠ 0 ∧ 2 ^ 48 - 1 ≤ v.toNat + m)
    t.elems.toNat = top k.elems n ∧ t.zeros.toNat = top k.zeros ze ∧ t.sats.toNat = top k.sats sa ∧ t.nonfin.toNat = top k.nonfin nf ∧
    t.stat.getLsbD 20 = (k.stat.getLsbD 20 || full k.elems n) ∧ t.stat.getLsbD 21 = (k.stat.getLsbD 21 || full k.zeros ze) ∧
    t.stat.getLsbD 22 = (k.stat.getLsbD 22 || full k.sats sa) ∧ t.stat.getLsbD 23 = (k.stat.getLsbD 23 || full k.nonfin nf) ∧
    t.stat.getLsbD 16 = (k.stat.getLsbD 16 || decide (n ≠ 0)) ∧ t.stat.getLsbD 17 = (k.stat.getLsbD 17 || decide (ze < n)) ∧
    t.stat.getLsbD 18 = (k.stat.getLsbD 18 || decide (nf ≠ 0)) ∧
    t.stat.getLsbD 25 = (k.stat.getLsbD 25 || (decide (nf ≠ 0) && !k.told)) ∧ t.stat.getLsbD 24 = k.stat.getLsbD 24 ∧
    t.stat.setWidth 16 = k.stat.setWidth 16 ∧ t.step = k.step ∧ t.cfg = k.cfg ∧ t.own = k.own ∧ t.told = (k.told || decide (nf ≠ 0)) ∧
    t.firstBad = (if nf ≠ 0 ∧ k.told = false ∧ k.stat.getLsbD 25 = false then k.step else k.firstBad)

/-- R142, R153: the drain functions on one accumulator: the prior value is added first where ACCUM is set,
then AUX as a bias, then the activation; engine G1's derivative form multiplies by the activation's derivative
at AUX. ZOUT takes the value before the activation. -/
def DrainFunctions : Prop :=
  ∀ (w : List W64) (acc prior : W32) (aux : Nat),
    let ax := toF32 (fDecode (fmtCode (jobFmtAux w)) aux)
    let a := if jobAccum w then addF prior acc else acc
    (jobDrain w = 0 → (drainFn w acc prior aux).c = a) ∧
    (jobDrain w = 1 → (drainFn w acc prior aux).c = addF a ax) ∧
    (jobDrain w = 2 → (drainFn w acc prior aux).c = actF (jobAct w) a) ∧
    (jobDrain w = 3 → (drainFn w acc prior aux).c = actF (jobAct w) (addF a ax)) ∧
    (jobDrain w = 4 → (drainFn w acc prior aux).c = mulF a (actD (jobAct w) ax)) ∧
    (drainFn w acc prior aux).z = (fConvert (jobZoutFmt w) none (f32 (if jobDrain w = 1 ∨ jobDrain w = 3 then addF a ax else a))).1

/-- R120, R136, R163, R164: at w_n + 256 an output tile's drain is complete and its scale entry is updated
from all its values, after the updates of earlier cycles and, in its cycle, of the engines before it; at
w_(T−1) + 256 the job leaves its queue and sets its done flag in every tile of the cluster, in that tile
cycle. -/
def CloverTilesAndJobsEnd : Prop :=
  ∀ (s : State) (cid e : Nat) (c : CtxRef), cid < 32 → e < 3 → s.cloverCtx cid = some c →
    let x := s.cluster cid
    let y := s.engine cid e
    let at_ := fun (j : Job) (k : Nat) => j.s0 + k * max (jobKc j.words) 256 + jobKc j.words + 510 + 256
    (∀ (before : List Job) (j : Job) (after : List Job), y.q = before ++ j :: after → (∀ k ∈ before, jobTiles k.words ≤ k.drained) →
      j.drained < jobTiles j.words →
      let n := j.drained
      let due := n < j.waves ∧ at_ j n ≤ x.cyc ∧ x.mayUpdate e j n = true
      (¬due → exec (.cloverTileDrainComplete cid e) s = .next s) ∧
      (due → exec (.cloverTileDrainComplete cid e) s = .next
        (((s.scaleUpdate c cid j n (if jobDscale j.words then s.tileStat cid e j n else {})).setEngine cid e
          (y.modJob j.order (fun k => { k with drained := n + 1, stats := sdrop (fun i => i = n) k.stats }))).dropLines cid e j.order n))) ∧
    (∀ (j : Job) (js : List Job), y.q = j :: js →
      let t := s.setEngine cid e { y with q := js, last := some j }
      (j.drained ≠ jobTiles j.words ∨ x.cyc < at_ j (jobTiles j.words - 1) → exec (.cloverJobComplete cid e) s = .next s) ∧
      (j.drained = jobTiles j.words → at_ j (jobTiles j.words - 1) ≤ x.cyc →
        (jobDoneEn j.words = false → exec (.cloverJobComplete cid e) s = .next t) ∧
        (jobDoneEn j.words = true → Yields (exec (.cloverJobComplete cid e) s) (fun u =>
          ∃ more : List FlagReq, u = { t with freqs := s.freqs ++ more } ∧ more.length = 256 ∧
            ∀ (i : Nat) (q : FlagReq), more[i]? = some q → q.g = .tile (256 * cid + i) (jobDoneFlag j.words) ∧ q.kind = .set ∧
              q.src = .clover ∧ q.arrived = true ∧ q.order = x.tileOf (at_ j (jobTiles j.words - 1))))))

/-- R163: a scale entry after a step: a saturated step raises E by 1 up to 127 and clears CLEAN; a step that
is low counts CLEAN and, at CLEAN_THR, lowers E by 1 down to −127; any other step clears CLEAN. -/
def DelayedScaling : Prop :=
  ∀ (x ctl : W32) (code : Nat) (k : TileStat),
    let e := scaleExp x
    let clean := x.toNat / 256 % 65536
    let thr := ctl.toNat % 65536
    let low := k.sat = false ∧ k.nonf = false ∧
      magAbove (lowBound code (bits ctl.toNat 19 16)).1 (lowBound code (bits ctl.toNat 19 16)).2 k.m k.e = true
    let y := scaleNext x ctl code k
    (k.sat = true → scaleExp y = min (e + 1) 127 ∧ y.toNat / 256 % 65536 = 0) ∧
    (low → (thr = 0 ∨ min (clean + 1) 65535 < thr) → scaleExp y = e ∧ y.toNat / 256 % 65536 = min (clean + 1) 65535) ∧
    (low → thr ≠ 0 → thr ≤ min (clean + 1) 65535 → scaleExp y = max (e - 1) (-127) ∧ y.toNat / 256 % 65536 = 0) ∧
    (k.sat = false → ¬low → scaleExp y = e ∧ y.toNat / 256 % 65536 = 0)

/-! ### Streams, transfers and page faults -/

/-- R44, R186, R189, R192, R195: the next block of a stream starts when its slot (EMPTY inbound, FULL and released
outbound) and its link allow; it ends when its last byte has moved: the slot is FULL or EMPTY, the block
counted, an outbound link's PCOUNT with it, and the last block of an outbound stream closes the handle. -/
def StreamBlocksStartAndEnd : Prop :=
  ∀ (s : State) (tid h : Nat) (y : Handle), tid < 8192 → h < 16 → (s.tile tid).handle h = some y →
    let d := tid / 2048
    let k := y.slotOf y.blk
    let x := s.tile tid
    (∀ c, s.ctxOfTile tid = some c →
      let allowed := s.dmaRuns c = true ∧ y.active = false ∧ y.stop = .run ∧ y.blk < y.total ∧
        (if y.outbound then y.slotSt k = .full ∧ y.blk < y.released else y.slotSt k = .empty) ∧
        (∀ l, y.link = some l →
          if y.outbound then (BitVec.ofNat 32 y.blk - (s.link d l).ccount).toInt < bits (s.link d l).cfg.toNat 7 0 + 1
          else (BitVec.ofNat 32 y.blk - (s.link d l).pcount).toInt < 0)
      (allowed → exec (.streamBlockStart tid h) s =
        .next ((s.setTile tid { x with handles := sput x.handles h { y with active := true, inner := 0, born := s.ht.now.toNat } }).demand (tid / 256))) ∧
      (¬allowed → exec (.streamBlockStart tid h) s = .next s)) ∧
    (∀ b rep, y.blkOf y.blk = some (b, rep) →
      let z := { y with slots := y.slots.set k (if y.outbound then .empty else .full), blk := y.blk + 1, active := false, inner := 0 }
      let t := s.setTile tid (x.turnHandle (s.cluster (tid / 256)).tileCyc h (if y.outbound = true ∧ y.blk + 1 = y.total then none else some z))
      (y.active = false ∨ y.inner ≠ b.bytes ∨ s.plat.pstate = .standby → exec (.streamBlockComplete tid h) s = .next s) ∧
      (y.active = true → y.inner = b.bytes → s.plat.pstate ≠ .standby → exec (.streamBlockComplete tid h) s =
        .next ((match y.link with
          | none => t
          | some l => if y.outbound then t.setLink d l { t.link d l with pcount := (t.link d l).pcount + 1 } else t).afterSlots tid)))

/-- R103, R108, R109, R183, R186, R206: a transfer's next unit whose addresses translate, that passes the
checks and finds its banks free of every request of higher priority, moves its bytes, all at once, is folded
into the stream's check unit and moves the transfer's cursor by its length; refused by a bank it is held for
the next tile cycle, in which it is presented again, and in which its banks are free to no request of lower
priority; a held access whose transfer has gone on without it is dropped. It is presented when the exchange unit's
accesses of that cycle are known, and before the core's (log entry 12). An uncorrectable HBM read error moves no
byte: the transfer stops for good and its context faults with an event that names the tile, the stack and the PA. -/
def TransferUnitsMove : Prop :=
  ∀ (s : State) (tid u cyc : Nat) (c : CtxRef) (x : Unit32) (t : State) (ks : List Nat), tid < 8192 → u < 24 →
    s.ctxOfTile tid = some c → s.nextUnit tid u cyc = some x → s.dmaRuns c = true → (s.cluster (tid / 256)).clk = .running →
    let running := (s.ctx c).st = .running
    let phase := (s.ctx c).run.phase
    let list := (s.tile tid).xch
    let turn := (if running ∧ phase ≠ .compute then cyc < (s.cluster (tid / 256)).tileCyc else cyc ≤ (s.cluster (tid / 256)).tileCyc) ∧
      ¬(running ∧ phase ≠ .exchange ∧ (s.tile tid).fenced = false ∧ list.next ≠ none ∧ list.read = false ∧ ∃ k, list.readAt = some k ∧ k < cyc)
    let first := s.bankTaken tid cyc prioDma (wideMask x.a) = false ∧
      (s.bankFree tid cyc prioDma (wideMask x.a) = true ∨ (s.tile tid).issueAt ≤ cyc - 3)
    let n := max ks.length x.table.length
    let go := fun (t : State) =>
      ((t.setTile tid { (t.tile tid).grant cyc prioDma (wideMask x.a) with dmaAt := cyc + 1, dmaHeld := none }).placeEnd c tid u cyc x ks none).unitMoved
        c tid x ks (t.bornOf tid u)
    let held := fun (t : State) => t.setTile tid { t.tile tid with dmaAt := cyc + 1, dmaHeld := some (u, cyc + 1, x.a) }
    ((s.tile tid).dmaHeld = none → (s.tile tid).dmaAt ≤ cyc → turn → first → s.translateAll (tid / 2048) c (!x.toSram) x.vas = (t, .ok ks) →
      (t.checkAccess tid cyc x.a n x.toSram x.own = none →
        (t.bankFree tid cyc prioDma (wideMask x.a) = true → exec (.dmaUnitMove tid u cyc false) s = .next (go t)) ∧
        (t.bankFree tid cyc prioDma (wideMask x.a) = false → exec (.dmaUnitMove tid u cyc false) s = .next (held t))) ∧
      (x.toSram = true → x.vas ≠ [] → exec (.dmaUnitMove tid u cyc true) s = .next (((t.setStop tid u .dead).raise (tid / 2048) evHbmUncorrectable
        { t.infoCtx c 0 with
          tid := BitVec.ofNat 13 tid
          names := [ks.headD 0 / 2 ^ 37, t.paOfByte (tid / 2048) c (x.vas.headD 0) (ks.headD 0)] }).faultEvent c evHbmUncorrectable))) ∧
    (let s' := s.setTile tid { s.tile tid with dmaHeld := none }
     (s.tile tid).dmaHeld = some (u, cyc, x.a) → turn → s'.translateAll (tid / 2048) c (!x.toSram) x.vas = (t, .ok ks) →
      t.checkAccess tid cyc x.a n x.toSram x.own = none →
      (t.bankFree tid cyc prioDma (wideMask x.a) = true → exec (.dmaReplay tid u cyc) s = .next (go t)) ∧
      (t.bankFree tid cyc prioDma (wideMask x.a) = false → exec (.dmaReplay tid u cyc) s = .next (held t))) ∧
    (((s.tile tid).dmaHeld ≠ none ∨ cyc < (s.tile tid).dmaAt ∨ ¬turn ∨ ¬first) → exec (.dmaUnitMove tid u cyc false) s = .next s) ∧
    ((s.tile tid).dmaHeld = some (u, cyc, x.a) → ¬turn → exec (.dmaReplay tid u cyc) s = .next s) ∧
    (∀ a, (s.tile tid).dmaHeld = some (u, cyc, a) → a ≠ x.a → exec (.dmaReplay tid u cyc) s =
      .next (s.setTile tid { s.tile tid with dmaHeld := none })) ∧
    ((∀ a, (s.tile tid).dmaHeld ≠ some (u, cyc, a)) → exec (.dmaReplay tid u cyc) s = .next s)

/-- R183, R186, R189, R204, R206: what a transfer unit does to memory. A unit to SRAM copies the HBM bytes at
its places, or the bytes of a scale table, to consecutive SRAM addresses; a unit to HBM copies SRAM bytes, or
where its slot's bytes are lost the byte that stands for them, to its places; every other byte is as before,
in every tile and in HBM. The bytes are folded into the check unit of the stream, and the transfer's cursor
moves by their number; a stream's first unit of a block turns its slot FILLING, or DRAINING. The last unit of
a stream also has its check compared: a sum that differs, where the unit checks, sets its status and raises
CHK_MISMATCH, which faults the context where the unit says so. A unit that has moved to SRAM is in flight on its
tile's die with the time at which its transfer was issued, and what a unit reads or writes of HBM is a request at the
controller of its stack (R365, R375; log 49). -/
def TransferUnitsPlaceBytes : Prop :=
  (∀ (s : State) (tid u cyc : Nat) (x : Unit32) (ks : List Nat) (fill : Option Byte),
    Memory.wf (s.tile tid).sram = true → Memory.wf s.hbm = true → ks.Nodup → (x.toSram = false → x.table = []) →
    let n := max ks.length x.table.length
    let bs := if x.toSram then (if x.table = [] then ks.map (mget s.hbm) else x.table)
      else match fill with
        | none => mread (s.tile tid).sram x.a n
        | some b => List.replicate n b
    let t := s.place tid u cyc x ks fill
    (x.toSram = true → t.hbm = s.hbm ∧ (∀ i (h : i < bs.length), t.sramByte tid (x.a + i) = bs[i]) ∧
      ∀ a, a < x.a ∨ x.a + bs.length ≤ a → t.sramByte tid a = s.sramByte tid a) ∧
    (x.toSram = false → (t.tile tid).sram = (s.tile tid).sram ∧ (∀ i (h : i < ks.length), some (mget t.hbm ks[i]) = bs[i]?) ∧
      ∀ k, k ∉ ks → mget t.hbm k = mget s.hbm k) ∧
    (∀ k, k ≠ tid → t.tile k = s.tile k) ∧
    t = { s with tiles := t.tiles, hbm := t.hbm, dies := t.dies } ∧
    (∀ d h, t.chk d h = (if d = dieOfTile tid ∧ s.chkOf tid u = some h
      then { s.chk d h with acc := crc64 (s.chk d h).acc bs, bytes := satAdd (s.chk d h).bytes bs.length } else s.chk d h)) ∧
    (u < 8 → ∀ z zs, ((s.tile tid).queue u).reqs = z :: zs → ((t.tile tid).queue u).reqs = { z with moved := z.moved + n } :: zs) ∧
    (8 ≤ u → ∀ y, (s.tile tid).handle (u - 8) = some y → (t.tile tid).handle (u - 8) = some (if y.inner = 0
      then { y.setSlot (y.slotOf y.blk) (if y.outbound then .draining else .filling) with inner := n }
      else { y with inner := y.inner + n }))) ∧
  (∀ (s : State) (c : CtxRef) (tid u cyc : Nat) (x : Unit32) (ks : List Nat) (fill : Option Byte),
    let t := s.place tid u cyc x ks fill
    let d := dieOfTile tid
    let e := s.placeEnd c tid u cyc x ks fill
    (t.streamEnd tid u = none → e = t) ∧
    (∀ k, t.streamEnd tid u = some k →
      let y := t.chk d k
      let m := ((t.setChk d k { y with stat := y.stat ||| 2 }).hwSet (bar0Bit d (0x50000 + 0x20 * k) 33))
      let m := m.raise d evChkMismatch { m.infoCtx c 0 with tid := BitVec.ofNat 13 tid, names := [k, u - 8] }
      (y.ctl.toNat / 2 % 2 = 0 ∨ y.acc = y.exp → e = t) ∧
      (y.ctl.toNat / 2 % 2 = 1 → y.acc ≠ y.exp → e = if y.ctl.toNat / 4 % 2 = 1 then m.faultEvent c evChkMismatch else m)) ∧
    (∀ k, t.streamEnd tid u = some k ↔ 8 ≤ u ∧ ∃ y b rep, (t.tile tid).handle (u - 8) = some y ∧ y.blkOf y.blk = some (b, rep) ∧
      y.blk + 1 = y.total ∧ y.inner = b.bytes ∧ y.chk = some k)) ∧
  (∀ (s : State) (c : CtxRef) (tid : Nat) (x : Unit32) (ks : List Nat) (born : Nat), tid < 8192 → (∀ k ∈ ks, k < 20 * 2 ^ 37) →
    let t := s.unitMoved c tid x ks born
    t = { s with dies := t.dies } ∧
    ∀ d, d < 4 → t.die d = { s.die d with str := { (s.die d).str with
      pmAt := if d = tid / 2048 then none else (s.die d).str.pmAt
      fly := (s.die d).str.fly ++ (if d = tid / 2048 ∧ x.toSram = true then [⟨s.cxh c, born⟩] else [])
      hbmq := (s.die d).str.hbmq ++ (match ks.head? with
        | some k => if d = k / 2 ^ 37 / 5 then [⟨s.cxh c, k / 2 ^ 37, !x.toSram⟩] else []
        | none => []) } })

/-- R206: CRC-64 over bytes: one bit at a time, most significant first, by the polynomial 0x42F0E1EBA9EA3693;
the fold of a list is the fold of its parts in order. -/
def CheckUnitsFoldInOrder : Prop :=
  (∀ (a : W64) (xs ys : List Byte), crc64 a (xs ++ ys) = crc64 (crc64 a xs) ys) ∧
  (∀ (a : W64) (b : Byte), crc64 a [b] = crc64Bit 8 (a ^^^ (b.zeroExtend 64 <<< 56))) ∧
  (∀ (n : Nat) (a : W64), crc64Bit (n + 1) a = crc64Bit n ((a <<< 1) ^^^ (if a.msb then 0x42F0E1EBA9EA3693 else 0))) ∧
  crc64 0 [0x31, 0x32, 0x33, 0x34, 0x35, 0x36, 0x37, 0x38, 0x39] = 0x6C40DF5F0B497347

/-- R58, R60, R194: an SWAIT for FULL that is still blocked LATE_NS + 1 ns after it began marks LATE_CONSUMER
on its die once; a Strict context with MISS_ACT meets the miss with an overrun of 0, which faults it as the
nanosecond ends. -/
def LateConsumersAreMarked : Prop :=
  ∀ (s : State) (tid thr h k since : Nat) (c : CtxRef) (y : Handle), tid < 8192 → thr < 6 → s.ctxOfTile tid = some c →
    (s.thread tid thr).wait = .slot h k true since false → (s.tile tid).handle h = some y →
    let late := (s.ctx c).st = .running ∧ y.lateNs ≠ 0 ∧ since + y.lateNs + 1 ≤ s.ht.now.toNat
    let d := tid / 2048
    let t := s.modThread tid thr (fun t => { t with wait := .slot h k true since true })
    (¬late → exec (.lateConsumer tid thr) s = .next s) ∧
    (late → (s.ctx c).strict = true → (s.ss d c.slot).missAct = true → exec (.lateConsumer tid thr) s =
      .next (t.setCtx c { s.ctx c with run := { (s.ctx c).run with instant := (s.ctx c).run.instant ++ [(d, causeLateConsumer, 0)] } })) ∧
    (late → ((s.ctx c).strict = false ∨ (s.ss d c.slot).missAct = false) → exec (.lateConsumer tid thr) s =
      .next (t.setCtx c { s.ctx c with run := { (s.ctx c).run with late := putBit (s.ctx c).run.late d true } }))

/-- R49, R181, R199: a write of MMU_INVAL starts an invalidation unless one is busy, and its completion drops
the translations of the slot that it names, or of all; RESUME lets the transfer that holds a fault record go
on and frees the record, ABORT faults its context; in STANDBY (R44), for a function that does not see the die, and
of a record that is free, nothing changes. -/
def MmuRegisterWrites : Prop :=
  ∀ (s : State) (pf d f : Nat) (v : W32), pf < 4 → d < 4 → f < 32 →
    let x := s.die d
    let sees := s.sees pf d = true ∧ s.plat.pstate ≠ .standby
    (sees → x.str.inval = none → exec (.mmuInval pf d v) s = .next (s.setDie d { x with str := { x.str with inval := some v } })) ∧
    (¬sees ∨ x.str.inval ≠ none → exec (.mmuInval pf d v) s = .next s) ∧
    (x.str.inval = none → exec (.mmuInvalComplete d) s = .next s) ∧
    (∀ k, x.str.inval = some k → exec (.mmuInvalComplete d) s = .next (s.setDie d { x with str := { x.str with
      inval := none, tlb := x.str.tlb.filter (fun e => k.getLsbD 3 = false ∧ e.slot ≠ k.toNat % 8) } })) ∧
    (let busy := sees ∧ (s.frec d f).fva.getLsbD 63 = true
     (¬busy ∨ v.getLsbD 0 = false ∨ v.getLsbD 1 = true → exec (.mmuFaultResume pf d f v) s = .next s) ∧
     (busy → v.getLsbD 0 = true → v.getLsbD 1 = false →
       (s.recHolder d f = none → exec (.mmuFaultResume pf d f v) s = .next (s.freeFrec d f)) ∧
       (∀ t u, s.recHolder d f = some (t, u) → exec (.mmuFaultResume pf d f v) s = .next ((s.setStop t u .run).freeFrec d f))) ∧
     (¬busy ∨ v.getLsbD 1 = false → exec (.mmuFaultAbort pf d f v) s = .next s) ∧
     (busy → v.getLsbD 1 = true →
       (s.recHolder d f = none → exec (.mmuFaultAbort pf d f v) s = .next (s.freeFrec d f)) ∧
       (∀ t u c, s.recHolder d f = some (t, u) → ((s.setStop t u .dead).freeFrec d f).ctxOfTile t = some c → s.ctxOfTile t = some c →
         exec (.mmuFaultAbort pf d f v) s = .next (((s.setStop t u .dead).freeFrec d f).faultEvent c evMmuFault))))

/-- R177 to R180: where a physical address lies: a direct address in its stack, a die-striped and a
partition-striped one by 4 KiB over the stacks of the die, and over the dies and then the stacks of the
partition; an address beyond the populated bytes of its space has no place. -/
def PhysicalAddressesPlaced : Prop :=
  ∀ (l : Layout) (p off st d : Nat), st < 20 → d < 4 →
    let ds := diesOf l p
    let n := ds.length
    (off < 80000000000 → paStack l p (st * 2 ^ 37 + off) = some (st, off)) ∧
    (80000000000 ≤ off → off < 2 ^ 37 → paStack l p (st * 2 ^ 37 + off) = none) ∧
    (off < 400000000000 → paStack l p (2 ^ 45 + d * 2 ^ 43 + off) = some (5 * d + off / 4096 % 5, off / 4096 / 5 * 4096 + off % 4096)) ∧
    (400000000000 ≤ off → off < 2 ^ 43 → paStack l p (2 ^ 45 + d * 2 ^ 43 + off) = none) ∧
    (off < n * 400000000000 → paStack l p (2 ^ 46 + off) =
      some (5 * ds.getD (off / 4096 % n) 0 + off / 4096 / n % 5, off / 4096 / (5 * n) * 4096 + off % 4096)) ∧
    (n * 400000000000 ≤ off → off < 2 ^ 45 → paStack l p (2 ^ 46 + off) = none) ∧
    (∀ st' o, off < 2 ^ 45 → paStack l p (2 ^ 46 + off) = some (st', o) → partOfDie l (st' / 5) = p ∧ o < 80000000000)

/-! ### Messages and flags -/

/-- R212, R213, R216, R221: a header at its destination port, at most one in an exchange cycle, is answered in
the order BAD_DEST, RESET, FENCED, NO_READER, FULL, ACK; the code is counted on that die; an accepted message
has its entries reserved, another counts a drop. Entries freed in an exchange cycle are free from the next one
on. -/
def MessagesArrive : Prop :=
  ∀ (s : State) (tid thr : Nat) (d : BitVec 5) (m : Msg) (retry : Bool) (attempts t0 limit : Nat), tid < 8192 → thr < 6 →
    s.plat.pstate ≠ .standby → s.tailAt tid thr = none →
    let t := m.dst.toNat
    let now := s.ht.now.toNat
    let c := cxhSlot m.cxh
    let x := s.tile t
    let used := (x.store.map (fun k => k.data.length / 64)).sum + (if x.freedAt = now then x.freed else 0)
    let code :=
      if s.ctxOfTile t ≠ some c then msgBadDest
      else if s.cxh c ≠ m.cxh then msgReset
      else if x.fenced = true then msgFenced
      else if (s.ctx c).st = .faulted ∨ (∀ n ∈ List.range 6, (x.thread n).st = .halted ∨ (x.thread n).st = .trapped) then msgNoReader
      else if 32 < used + m.data.length / 64 then msgFull
      else msgAck
    let s' := (s.modThread tid thr (fun h => { h with wait := .send d m retry attempts t0 limit (.replied code) })).countMsg (t / 2048) code
    let y : Held := { tag := m.tag, data := m.data, tid := tid, thr := thr }
    (s.thread tid thr).wait = .send d m retry attempts t0 limit .travelling →
    (now < x.hdrAt → exec (.messageArrival tid thr) s = .next s) ∧
    (x.hdrAt ≤ now → code = msgAck → exec (.messageArrival tid thr) s =
      .next (s'.setTile t { s'.tile t with hdrAt := now + 1, store := (s'.tile t).store ++ [y] })) ∧
    (x.hdrAt ≤ now → code ≠ msgAck → exec (.messageArrival tid thr) s =
      .next (s'.setTile t { s'.tile t with hdrAt := now + 1, drops := satAdd (s'.tile t).drops 1 }))

/-- R213, R214, R216: the rest of an accepted message makes it held complete, in the tile cycle in progress, and
the RECV that waits for it longest takes it. -/
def MessagesAreHeld : Prop :=
  (∀ (s : State) (tid thr t : Nat) (m : Held), s.tiles.Pairwise (fun p q => p.1 < q.1) → tid < 8192 → thr < 6 → s.plat.pstate ≠ .standby → s.tailAt tid thr = some (t, m) →
    let x := s.tile t
    let m' := { m with whole := true, cyc := (s.cluster (t / 256)).tileCyc }
    ∃ (old later : List Held), x.store = old ++ m :: later ∧ m.whole = false ∧ m.tid = tid ∧ m.thr = thr ∧
      (∀ y ∈ old, y.whole = true ∨ y.tid ≠ tid ∨ y.thr ≠ thr) ∧
      exec (.messageArrival tid thr) s = .next ((s.setTile t { x with store := old ++ m' :: later }).pairUp t)) ∧
  (∀ (s : State) (tid thr : Nat), s.tailAt tid thr = none → ∀ e ∈ s.tiles, ∀ m ∈ e.2.store, m.whole = true ∨ m.tid ≠ tid ∨ m.thr ≠ thr)

/-- R210, R211, R218, R219: a reply in the sender's epoch writes the status and moves the thread on; FULL
sends SENDW into a back-off of 64 ns doubled per attempt, up to 4,096 ns, within its time limit, from which it
departs again; without an attempt left it traps at its limit. A reply waits for the tail of its message (log
23); a thread moved on may issue from the next tile cycle (R85). -/
def RepliesAndRetries : Prop :=
  ∀ (s : State) (tid thr : Nat) (d : BitVec 5) (m : Msg) (retry : Bool) (attempts t0 limit code due : Nat), tid < 8192 → thr < 6 →
    s.plat.pstate ≠ .standby →
    let c := cxhSlot m.cxh
    let here := s.cxh c = m.cxh ∧ (s.ctx c).st = .running
    let w := fun (x : SendSt) => s.modThread tid thr (fun h => { h with wait := .send d m retry attempts t0 limit x })
    let again := s.ht.now.toNat + min (64 * 2 ^ (attempts - 1)) 4096
    let detail : W64 := BitVec.ofNat 64 (m.dst.toNat % 8192 + 2 ^ 16 * m.tag.toNat + 2 ^ 32 * min attempts 255)
    ((s.thread tid thr).wait = .send d m retry attempts t0 limit (.replied code) → s.tailAt tid thr ≠ none → exec (.messageReplyArrival tid thr) s = .next s) ∧
    ((s.thread tid thr).wait = .send d m retry attempts t0 limit (.replied code) → s.tailAt tid thr = none →
      (¬here → exec (.messageReplyArrival tid thr) s = .next (w .spent)) ∧
      (here → (retry = false ∨ code ≠ msgFull) → exec (.messageReplyArrival tid thr) s =
        .next (s.modThread tid thr (fun h => { h.setSr d (BitVec.ofNat 64 (code + 256 * min attempts 255)) with
          st := .runnable, wait := .none, from_ := (s.cluster (tid / 256)).tileCyc + 1, pc := h.pc + 8 }))) ∧
      (here → retry = true → code = msgFull → again < t0 + limit → exec (.messageReplyArrival tid thr) s = .next (w (.backoff again))) ∧
      (here → retry = true → code = msgFull → t0 + limit ≤ again → s.ht.now.toNat < t0 + limit →
        exec (.messageReplyArrival tid thr) s = .next (w .spent)) ∧
      (here → retry = true → code = msgFull → t0 + limit ≤ s.ht.now.toNat →
        exec (.messageReplyArrival tid thr) s = .next (s.trapWith c tid thr evMsgRetryExhausted detail))) ∧
    ((s.thread tid thr).wait = .send d m true attempts t0 limit (.backoff due) →
      (here → due ≤ s.ht.now.toNat → exec (.sendwRetry tid thr) s = .next (s.depart c tid thr d m true (attempts + 1) t0 limit)) ∧
      (¬here ∨ s.ht.now.toNat < due → exec (.sendwRetry tid thr) s = .next s)) ∧
    ((s.thread tid thr).wait = .send d m true attempts t0 limit .spent →
      (here → t0 + limit ≤ s.ht.now.toNat → exec (.msgRetryExhausted tid thr) s = .next (s.trapWith c tid thr evMsgRetryExhausted detail)) ∧
      (¬here ∨ s.ht.now.toNat < t0 + limit → exec (.msgRetryExhausted tid thr) s = .next s))

/-- R220, R227: a RECV whose time has passed, once its tile's cycle of expiry is over, traps MSG_RECV_TIMEOUT with
its tag and mask. A flag waiter whose
time has passed, once its cycle of expiry is over, sees the evaluations of its flag up to that cycle; where
they do not release it, it traps FLAG_TIMEOUT, which names the flag and its die, and leaves the arbiter. -/
def WaitsTimeOut : Prop :=
  ∀ (s : State) (tid thr : Nat) (c : CtxRef) (f : Fields) (dst : W64) (tag mask : BitVec 16) (limit order : Nat) (g : FlagRef) (claim : Bool),
    tid < 8192 → thr < 6 → s.ctxOfTile tid = some c → s.plat.pstate ≠ .standby →
    ((s.thread tid thr).wait = .recv f dst tag mask limit order →
      let gone := s.tileCycAt (tid / 256) limit < (s.cluster (tid / 256)).tileCyc
      ((s.ctx c).st = .running → limit ≤ s.ht.now.toNat → gone → exec (.msgRecvTimeout tid thr) s =
        .next (s.trapWith c tid thr evMsgRecvTimeout (BitVec.ofNat 64 (tag.toNat + 2 ^ 16 * mask.toNat)))) ∧
      ((s.ctx c).st ≠ .running ∨ s.ht.now.toNat < limit ∨ ¬gone → exec (.msgRecvTimeout tid thr) s = .next s)) ∧
    ((s.thread tid thr).wait = .flag g claim limit →
      let gone := s.expiryCycle g limit < s.flagCycle g
      ((s.ctx c).st ≠ .running ∨ s.ht.now.toNat < limit ∨ ¬gone → exec (.flagTimeout tid thr) s = .next s) ∧
      ((s.ctx c).st = .running → limit ≤ s.ht.now.toNat → gone →
        let t := s.evalUpTo s.freqs.length g (s.expiryCycle g limit)
        ((t.thread tid thr).wait ≠ .flag g claim limit → exec (.flagTimeout tid thr) s = .next t) ∧
        ((t.thread tid thr).wait = .flag g claim limit → exec (.flagTimeout tid thr) s =
          .next (({ t with freqs := t.freqs.filter (fun q =>
            !(q.tid = tid && q.thr = thr && (q.kind = FlagKind.wait || q.kind = FlagKind.claim))) } : State).trapWith c tid thr
              evFlagTimeout (flagDetail g))))) ∧
    (∀ d n, s.expiryCycle (.glob d n) limit = limit - 1 ∧ s.flagCycle (.glob d n) = s.ht.now.toNat) ∧
    (∀ t n, t < 8192 → n < 64 → flagDetail (.tile t n) = BitVec.ofNat 64 (n + 2 ^ 13 * (t / 2048))) ∧
    (∀ d n, d < 4 → n < 4096 → flagDetail (.glob d n) = BitVec.ofNat 64 (n + 2 ^ 12 + 2 ^ 13 * d))

/-- R42, R223, R230: a travelling flag request reaches its arbiter in the flag cycle in progress, or is dropped if
its epoch is stale (one of a host's command is then answered BAD_PARAM, log 24); of a flag the next cycle in
which a request changes it or is served is evaluated once that flag cycle is over, each flag cycle once, with
the requests that have arrived by it and no later one. While the clocks of a tile flag's cluster stand, the host's
requests are served in the cycle that stands, a set before a clear (log 24). -/
def FlagArbiter : Prop :=
  (∀ (s : State) (n : Nat) (q : FlagReq), s.freqs[n]? = some q → s.plat.pstate ≠ .standby →
    (q.arrived = true → exec (.flagRequestArrival n) s = .next s) ∧
    (q.arrived = false → s.cxh (cxhSlot q.cxh) ≠ q.cxh → exec (.flagRequestArrival n) s =
      .next (({ s with freqs := s.freqs.eraseIdx n } : State).replyTo q.owner codeBadParam 0 0 0)) ∧
    (q.arrived = false → s.cxh (cxhSlot q.cxh) = q.cxh → exec (.flagRequestArrival n) s =
      .next { s with freqs := s.freqs.set n { q with arrived := true, order := s.flagCycle q.g } })) ∧
  (∀ (s : State) (n : Nat), s.freqs[n]? = none ∨ s.plat.pstate = .standby → exec (.flagRequestArrival n) s = .next s) ∧
  (∀ (s : State) (g : FlagRef), g.ok = true → s.plat.pstate ≠ .standby →
    let stands := (∃ t n, g = .tile t n ∧ (s.cluster (t / 256)).clk ≠ .running) ∧
      ∃ q ∈ s.freqs, q.g = g ∧ q.arrived = true ∧ q.src = .host ∧ (q.kind = .set ∨ q.kind = .clear)
    (s.dueCycle g = none → exec (.flagEvaluation g) s = .next s) ∧
    (∀ c, s.dueCycle g = some c → s.flagCycle g ≤ c → ¬stands → exec (.flagEvaluation g) s = .next s) ∧
    (∀ c, s.dueCycle g = some c → s.flagCycle g ≤ c → stands → s.flagAt g ≤ s.flagCycle g →
      exec (.flagEvaluation g) s = .next (s.evalAt g (s.flagCycle g))) ∧
    (∀ c, s.dueCycle g = some c → s.flagCycle g ≤ c → stands → s.flagCycle g < s.flagAt g → Yields (exec (.flagEvaluation g) s) (fun t =>
      t.flag g = decide (∃ q ∈ s.hostReqs g, q.kind = .set) ∧ (∀ g', g'.ok = true → g' ≠ g → t.flag g' = s.flag g') ∧
      t.freqs = s.freqs.filter (fun q => !(s.hostReqs g).contains q) ∧ (∀ k n, t.thread k n = s.thread k n))) ∧
    (∀ c, s.dueCycle g = some c → c < s.flagCycle g → exec (.flagEvaluation g) s = .next (s.evalAt g c)) ∧
    (∀ c, s.dueCycle g = some c → s.flagAt g ≤ c ∧
      ∀ q ∈ s.freqs, q.g = g → q.arrived = true → (q.kind = .set ∨ q.kind = .clear ∨ s.flag g = true) → c ≤ max q.order (s.flagAt g))) ∧
  (∀ (s : State) (g : FlagRef) (c : Nat), g.ok = true → (s.evalAt g c).flagAt g = c + 1)

/-- R224, R225, R228: what one flag cycle does. A set wins over a clear and over a claim; while the flag is 1
every wait and the first claim, by arrival cycle, TID and thread, are served: they leave the arbiter, their
threads may issue from the cycle after (R85), and the claim clears the flag. No other flag and no other thread
changes. Each set by a tile of a flag that is 1, or beyond the first, and each clear by a tile of a flag that
is 0, or beyond the first, counts one misuse; a job counts at most one. -/
def FlagCyclesServe : Prop :=
  (∀ (s : State) (g : FlagRef) (c : Nat), g.ok = true →
    let here := (s.reqsAt g).filter (fun q => q.order ≤ c)
    let t := s.evalAt g c
    let goes := fun (q : FlagReq) => ∀ b lim, (s.thread q.tid q.thr).wait = .flag g b lim → s.cxh (cxhSlot q.cxh) = q.cxh →
      (s.ctx (cxhSlot q.cxh)).st = .running →
        t.thread q.tid q.thr = { s.thread q.tid q.thr with
          st := .runnable, wait := .none, pc := (s.thread q.tid q.thr).pc + 8
          from_ := (if FlagRef.isGlob g then (s.cluster (q.tid / 256)).tileCyc else c) + 1 }
    (∀ q : FlagReq, q ∈ here ↔ q ∈ s.freqs ∧ q.g = g ∧ q.arrived = true ∧ q.order ≤ c) ∧
    ((∃ q ∈ here, q.kind = .set) → t.flag g = true) ∧
    ((∀ q ∈ here, q.kind ≠ .set) → ((∃ q ∈ here, q.kind = .clear) ∨ (s.flag g = true ∧ ∃ q ∈ here, q.kind = .claim)) → t.flag g = false) ∧
    ((∀ q ∈ here, q.kind = .wait ∨ (q.kind = .claim ∧ s.flag g = false)) → t.flag g = s.flag g) ∧
    (∀ g', g'.ok = true → g' ≠ g → t.flag g' = s.flag g') ∧
    (∀ q ∈ t.freqs, q.g = g → q.arrived = true → q.order ≤ c → q.kind ≠ .set ∧ q.kind ≠ .clear ∧ (s.flag g = true → q.kind ≠ .wait)) ∧
    (s.flag g = true → ∀ q ∈ here, q.kind = .wait → goes q) ∧
    (s.flag g = true → ∀ q, (here.filter (fun q => q.kind = .claim)).head? = some q → goes q ∧ q ∉ t.freqs) ∧
    (s.flag g = true → ∀ q p, (here.filter (fun q => q.kind = .claim)).head? = some q → p ∈ here → p.kind = .claim → q.before p = true) ∧
    (∀ k n, (∀ q ∈ here, ¬(q.tid = k ∧ q.thr = n)) → t.thread k n = s.thread k n) ∧
    ((∀ q ∈ here, q.src ≠ .clover) →
      let sets := (here.filter (fun q => q.kind = .set ∧ q.src = .thread)).length
      let clears := (here.filter (fun q => q.kind = .clear ∧ q.src = .thread)).length
      let n := if s.flag g then sets + (clears - 1) else (sets - 1) + clears
      (t.die (FlagRef.die g)).flg.misuse.toNat % 256 = min 255 ((s.die (FlagRef.die g)).flg.misuse.toNat % 256 + n))) ∧
  (∀ (s : State) (g : FlagRef) (q : FlagReq) (k : Nat), q.src = .clover →
    (q.job = 0 → s.misuseReq g q k = s) ∧ (q.job ≠ 0 → ∀ p ∈ (s.misuseReq g q k).freqs, p.job ≠ q.job))

/-! ### Cross-module slots and frames -/

/-- R254: after its context's arrival a TX slot from HBM takes its units from HBM once, or faults its context
where a translation fails; with PF# low or in STANDBY it takes none (R44, R384). -/
def SlotsArePrefetched : Prop :=
  ∀ (s t : State) (p i : Nat) (c : CtxRef) (sl : XSlot), p < 16 → i < 256 →
    (s.port p).xch.owner = some c → (s.port p).xch.slot i = some sl →
    let e := (s.port p).xch.ent i
    let due := (s.ctx c).st = .running ∧ (s.ctx c).run.phase ≠ .compute ∧ sl.tx = true ∧ e.src = true ∧ sl.pref = false ∧
      sl.st ≠ .done ∧ sl.st ≠ .dead ∧ s.plat.pf = true ∧ s.plat.pstate ≠ .standby
    (¬due → exec (.txPrefetch p i) s = .next s) ∧
    (∀ bs, due → s.vaRead (p / 4) c e.va e.bytes = (t, .ok bs) → exec (.txPrefetch p i) s = .next (t.setXch p ((t.port p).xch.setSlot
      { sl with pref := true, data := (List.range (e.bytes / 32)).map (fun k => BitVec.ofNat 256 (leNat ((bs.drop (32 * k)).take 32))) }))) ∧
    (∀ x, due → s.vaRead (p / 4) c e.va e.bytes = (t, .error x) → exec (.txPrefetch p i) s = .next (t.slotFault c p e.tag))

/-- R255 to R257, R291: at x_start + OFF a slot begins, or is dead where its port was not UP as its cycle OFF
began, is slow, or (a TX slot) has another partner than the entry names; 6 ns before a window ends a slot
with frames left is suspended and the die has an overrun (the row stands for an RX slot where the far end
suspended, log 29); after the last window the suspended slots send on. -/
def SlotsKeepTheirWindows : Prop :=
  ∀ (s : State) (p i : Nat) (c : CtxRef) (sl : XSlot), p < 16 → i < 256 →
    (s.port p).xch.owner = some c → s.exchanging c = true → (s.port p).xch.slot i = some sl →
    let x := s.port p
    let e := x.xch.ent i
    let start := (s.ctx c).run.xstart.toNat
    let now := s.ht.now.toNat
    let usable := x.link.st = .up ∧ x.link.since < start + e.off ∧ x.ht.slow = false ∧ (sl.tx = true → x.ht.known = true ∧ x.ht.phdid.toNat = s.pairHdid e.hdid)
    let left := sl.next < frames e.bytes ∨ ∃ f ∈ x.tx.buf, f.entry = sl.entry ∧ f.seq ∈ x.tx.nakq
    let late := (if sl.tx then (sl.st = .active ∨ sl.st = .sent) ∧ left else sl.st = .active ∧ sl.landed.length < frames e.bytes) ∧
      start + (e.off + e.w) ≤ now + 6
    (sl.st ≠ .idle ∨ now < start + e.off → exec (.slotStart p i) s = .next s) ∧
    (sl.st = .idle → start + e.off ≤ now → usable → exec (.slotStart p i) s = .next (s.setXch p (x.xch.setSlot { sl with st := .active }))) ∧
    (sl.st = .idle → start + e.off ≤ now → ¬usable → exec (.slotStart p i) s = .next (s.slotDead c p sl)) ∧
    (late → exec (.slotSuspend p i) s =
      .next ((s.setXch p (x.xch.setSlot { sl with st := .suspended })).slotOverrun c (p / 4))) ∧
    (¬late → exec (.slotSuspend p i) s = .next s) ∧
    (start + x.xch.lastWindow ≤ now → exec (.slotTail p) s = .next (s.setXch p { x.xch with
      slots := x.xch.slots.map (fun t => if t.tx = true ∧ t.st = .suspended then { t with st := .tail } else t) })) ∧
    (now < start + x.xch.lastWindow → exec (.slotTail p) s = .next s)

/-- R254, R271, R289, R293: the slot that sends takes its next frame of at most eight units, from its data or
the port buffer, with the next SEQ; the frame leaves and stays in the replay buffer; a full buffer, a replay
due or under way, a pending unit or the last frame sent hold it back. -/
def FramesLeave : Prop :=
  ∀ (s : State) (p : Nat) (c : CtxRef) (sl : XSlot), p < 16 → (s.port p).xch.owner = some c → s.exchanging c = true →
    s.txSlot c (s.port p).xch = some sl →
    let x := s.port p
    let e := x.xch.ent sl.entry
    let go := x.link.st = .up ∧ x.tx.buf.length < 1024 ∧ x.tx.busy ≤ s.ht.now.toNat ∧ s.replayNext p = none ∧ sl.next < frames e.bytes
    (¬go → exec (.frameTransmit p) s = .next s) ∧
    (x.xch.txData sl e = none → exec (.frameTransmit p) s = .next s) ∧
    (∀ kind us, go → x.xch.txData sl e = some (kind, us) →
      let f := mkFrame kind us.length e.tag x.tx.seq.toNat (s.cxh c) (us ++ List.replicate (8 - us.length) 0) sl.next
      let h : TxFrame := { seq := x.tx.seq, frame := f, entry := sl.entry, fidx := sl.next, cxh := s.cxh c }
      let sl' := { sl with next := sl.next + 1, lastSeq := some x.tx.seq,
                           st := if sl.next + 1 = frames e.bytes then .sent else sl.st }
      exec (.frameTransmit p) s = .next ((s.setPort p { x with
        tx := { x.tx with seq := x.tx.seq + 1, buf := x.tx.buf ++ [h] }, xch := x.xch.setSlot sl' }).emit (.frame p f)))

/-- R293 to R295: an ACK frees the frames up to its SEQ and ends the slots whose last frame it covers, and one
that frees a frame is progress; a NAK queues its frame for replay, and the sixteenth NAK of one SEQ takes the
port DOWN; a replay sends the first NAKed frame that may go now again with its SEQ, fills the transmitter for
200 ns and is counted; an ACK, repeated once a frame has arrived, gives the highest SEQ up to which every
frame has arrived. -/
def ReplayKeepsTheLink : Prop :=
  ∀ (s : State) (p : Nat) (a : W64), p < 16 →
    let x := s.port p
    let q : BitVec 12 := BitVec.ofNat 12 (bits (symBody a) 11 0)
    let later := fun (n : BitVec 12) => (q - n).msb
    let ack := x.link.st = .up ∧ symOk a = true ∧ symType a = 0x82
    let nak := x.link.st = .up ∧ symOk a = true ∧ symType a = 0x83
    (¬ack → exec (.ackReceive p a) s = .next s) ∧
    (ack → let buf := x.tx.buf.filter (fun f => later f.seq)
      exec (.ackReceive p a) s = .next (s.setPort p { x with
        tx := { x.tx with buf := buf, nakq := x.tx.nakq.filter later, pmAt := if buf.length = x.tx.buf.length then x.tx.pmAt else none },
        xch := { x.xch with slots := x.xch.slots.map (fun t =>
          if t.tx = true ∧ t.st = .sent ∧ (∀ f ∈ buf, f.entry ≠ t.entry) then { t with st := .done } else t) } })) ∧
    (¬nak → exec (.nakReceive p a) s = .next s) ∧
    (nak → x.tx.buf.find? (fun f => f.seq = q) = none → exec (.nakReceive p a) s = .next s) ∧
    (∀ f, nak → x.tx.buf.find? (fun f => f.seq = q) = some f →
      (16 ≤ f.naks + 1 → exec (.nakReceive p a) s = .next ((s.portDown p 3).portTry p false)) ∧
      (f.naks + 1 < 16 → exec (.nakReceive p a) s = .next (s.setPort p { x with tx := { x.tx with
        buf := x.tx.buf.map (fun g => if g.seq = q then { g with naks := g.naks + 1 } else g), nakq := x.tx.nakq ++ [q] } }))) ∧
    (x.link.st = .up → x.rx.waiting = true → exec (.ackSend p) s =
      .next ((s.setPort p { x with rx := { x.rx with ackAt := s.ht.now.toNat } }).emit (.word p (symWord 0x82 (x.rx.expect - 1).toNat)))) ∧
    (x.link.st ≠ .up ∨ x.rx.waiting = false → exec (.ackSend p) s = .next s) ∧
    (let may := fun n => ∃ f, x.tx.buf.find? (fun g => g.seq = n) = some f ∧ s.replayOk p f = true
     ((∀ n ∈ x.tx.nakq, ¬may n) → exec (.replayStart p) s = .next s) ∧
     (∀ before n after f, x.tx.nakq = before ++ n :: after → (∀ k ∈ before, ¬may k) → x.tx.buf.find? (fun g => g.seq = n) = some f →
       s.replayOk p f = true →
       let go := x.link.st = .up ∧ x.tx.busy ≤ s.ht.now.toNat
       (¬go → exec (.replayStart p) s = .next s) ∧
       (go → ∃ y : PortXch, y.owner = x.xch.owner ∧ y.buf = x.xch.buf ∧ (∀ k, k ≠ f.entry → y.slot k = x.xch.slot k) ∧
         exec (.replayStart p) s = .next ((s.setPort p { x with
           tx := { x.tx with nakq := x.tx.nakq.erase n, busy := s.ht.now.toNat + 200 }, xch := y,
           link := { x.link with retry := satAdd x.link.retry 1 } }).emit (.frame p f.frame)))))

/-- R42, R255, R291, R293, R294: a frame with a bad SOF vanishes; one whose CRC fails or whose codeword is
uncorrectable is NAKed, unless it is a digest; one received before is only acknowledged again; one of a
reserved kind, with another epoch than the port's context has, that no RX slot takes or whose FIDX lies beyond
its slot, is acknowledged, dropped and counted (log 32); else one that lands too early, before its slot's
begin plus the link's delay in whole ns (log 29), is NAKed (log 32); every other frame is acknowledged and
lands. -/
def FramesAreReceived : Prop :=
  ∀ (s : State) (p : Nat) (x : Frame) (unc : Bool), p < 16 →
    let q := Frame.seq x
    let r := exec (.frameReceive p x unc) s
    let t := s.touch.nakGap p q
    ((s.port p).link.st ≠ .up ∨ Frame.sofOk x = false → r = .next s) ∧
    ((s.port p).link.st = .up → Frame.sofOk x = true →
      (Frame.crcOk x = false ∨ unc = true →
        let s' := if Frame.crcOk x then s else s.setPort p { s.port p with
          link := { (s.port p).link with crcErr := satAdd (s.port p).link.crcErr 1 } }
        (Frame.kind x = 2 → r = .next s') ∧
        (Frame.kind x ≠ 2 → r = .next ((s'.nakGap p q).nak p q))) ∧
      (Frame.crcOk x = true → unc = false →
        (Frame.kind x = 2 → r = .next (s.digestIn p x)) ∧
        (Frame.kind x ≠ 2 → (t.port p).rx.seen q = true → r = .next (t.setPort p { t.port p with rx := { (t.port p).rx with waiting := true } })) ∧
        (Frame.kind x ≠ 2 → (t.port p).rx.seen q = false →
          (Frame.reserved x = true ∨ Frame.kind x = 3 → r = .next ((t.gotSeq p q).ulkDrop p)) ∧
          (Frame.reserved x = false → Frame.kind x ≠ 3 →
            (t.rxSlot p (Frame.tag x) = none ∨ t.portCtx p = none → r = .next ((t.gotSeq p q).ulkDrop p)) ∧
            (∀ c sl e, t.portCtx p = some c → t.rxSlot p (Frame.tag x) = some (sl, e) →
              let early := t.ht.now.toNat + 6 < (t.ctx c).run.xstart.toNat + (e.off + (t.port p).ht.delay.toNat / 16)
              let stale := bits (Frame.cxh x).toNat 7 0 ≠ (t.ctx c).epoch.toNat
              (stale → r = .next ((t.gotSeq p q).ulkDrop p)) ∧
              (¬stale → early → r = .next (t.nak p q)) ∧
              (¬stale → ¬early → frames e.bytes ≤ Frame.fidx x → r = .next ((t.gotSeq p q).ulkDrop p)) ∧
              (¬stale → ¬early → Frame.fidx x < frames e.bytes → r = .next (if e.dst
                then ((t.gotSeq p q).slotGot p sl e (Frame.fidx x)).landChannel c p e x
                else ((t.gotSeq p q).slotGot p sl e (Frame.fidx x)).landWindow c p e x)))))))

/-- R204, R277: a frame into a window is rejected whole when the window is not open, its HDID or remote handle
differs, the range or the access is not allowed or its handle is stale, in that order, or an address does not
translate: no byte of memory changes, REJECTS and ULK_DROP count, and WIN_REJECT names the window, the reason,
the sending HDID and the VA; else it lands whole. R205: the window of a frame is the one that stood as its
first word came: a copy kept where the window was closed since. -/
def WindowsGuardMemory : Prop :=
  ∀ (s : State) (c : CtxRef) (p : Nat) (e : PEnt) (x : Frame), p < 16 →
    let w := match (s.port p).rx.shut.find? (fun k => k.1 = e.win) with | some k => k.2 | none => s.win e.win
    let va := e.va + 256 * Frame.fidx x
    let bs := Frame.data x
    let from_ := (s.port p).ht.phdid
    let same := if s.pair.on then w.hdid.toNat / 2 = from_.toNat / 2 else w.hdid = from_
    let reason :=
      if w.open_ = false then 1
      else if ¬same ∨ w.rcxh ≠ Frame.cxh x then 2
      else if va < w.base ∨ w.base + w.size < va + bs.length then 3
      else if (if Frame.kind x = 1 then w.red else w.w) = false then 4
      else if w.lcxh ≠ s.cxh c then 5
      else 0
    let rejects := fun (t u : State) (k a : Nat) => u = ((t.setWin e.win { t.win e.win with rejects := satAdd (t.win e.win).rejects 1 }).ulkDrop p).raise
      (p / 4) evWinReject { t.infoCtx c 0 with names := [e.win, k, from_.toNat, a] }
    (reason ≠ 0 → let t := s.landWindow c p e x
      rejects s t reason va ∧ t.hbm = s.hbm ∧ (e.win < 32 → (t.win e.win).rejects = satAdd (s.win e.win).rejects 1) ∧
        (t.port p).link.drop = satAdd (s.port p).link.drop 1) ∧
    (∀ t, reason = 0 → s.vaWrite (p / 4) c va bs = (t, none) → s.landWindow c p e x = t) ∧
    (∀ t b, reason = 0 → s.vaWrite (p / 4) c va bs = (t, some b) → rejects t (s.landWindow c p e x) 6 b.1 ∧ (s.landWindow c p e x).hbm = s.hbm ∧
      (∀ k, t.win k = s.win k)) ∧
    (∀ t, reason = 0 → s.vaWrite (p / 4) c va bs = (t, none) → ∃ ks u, s.translateAll (p / 4) c true (vaList va bs.length) = (u, .ok ks) ∧
      u.hbm = s.hbm ∧ t.hbm = (ks.zip bs).foldl (fun m b => mput m b.1 b.2) s.hbm)

/-- R278, R291, R292, R303: a digest frame at a port UP that fails its CRC is counted there; one with a
reserved bit, of a stale CXH, or off the twin ports of a Pair, is dropped and counted. A digest of a running
context is compared once with its own digests of the same SSN: on a difference PAIR_DIVERGE names the lowest
die that differs and the context faults; one that comes before the own digests is kept for them; one of an
earlier SSN is forgotten. -/
def DigestsAreCompared : Prop :=
  ∀ (s : State) (p : Nat) (x : Frame), p < 16 →
    let c := cxhSlot (Frame.cxh x)
    let r := (s.ctx c).run
    let ssn : W32 := (Frame.word x 4).truncate 32
    let ds := [Frame.word x 0, Frame.word x 1, Frame.word x 2, Frame.word x 3]
    let seen := (s.port p).link.st = .up ∧ Frame.sofOk x = true ∧ Frame.kind x = 2
    let mine := Frame.reserved x = false ∧ (p = 14 ∨ p = 15) ∧ s.pairOn = true ∧ c.part < 4 ∧ s.cxh c = Frame.cxh x
    let good := seen ∧ Frame.crcOk x = true ∧ mine
    let go := fun t => exec (.digestReceive p x) s = .next t
    let l := (s.port p).link
    let t := s.setCtx c { s.ctx c with run := { r with compared := true } }
    let u : State := { t with pair := { t.pair with ssn := r.ssn } }
    let v : State := { u with pair := { u.pair with diverged := true } }
    let kept := s.setCtx c { s.ctx c with run := { r with inbox := r.inbox ++ [(ssn, ds)] } }
    (¬seen → go s) ∧
    (seen → Frame.crcOk x = false → go (s.setPort p { s.port p with link := { l with crcErr := satAdd l.crcErr 1 } })) ∧
    (seen → Frame.crcOk x = true → ¬mine → go (s.setPort p { s.port p with link := { l with drop := satAdd l.drop 1 } })) ∧
    (good → (s.ctx c).st ≠ .running → go s) ∧
    (good → (s.ctx c).st = .running → ssn = r.ssn →
      (r.compared = true → go s) ∧
      (r.compared = false → r.digest.length = 4 → r.digest = ds → go u) ∧
      (∀ d, r.compared = false → r.digest.length = 4 → d < 4 → r.digest[d]? ≠ ds[d]? → (∀ k, k < d → r.digest[k]? = ds[k]?) →
        go (((v.hwSet (bar0Bit 3 0x89108 3)).raise 3 evPairDiverge { v.infoCtx c 0 with names := [d] }).faultEvent c evPairDiverge)) ∧
      (r.compared = false → r.digest.length ≠ 4 → (∀ e ∈ r.inbox, e.1 ≠ ssn) → go kept)) ∧
    (good → (s.ctx c).st = .running → (r.ssn - ssn).toInt < 0 → -2147483648 < (r.ssn - ssn).toInt → (∀ e ∈ r.inbox, e.1 ≠ ssn) → go kept) ∧
    (good → (s.ctx c).st = .running → 0 < (r.ssn - ssn).toInt → go s)

/-- R286, R287, R294, R295: a block whose H bit is 0 carries four stream words; one whose H bit is 1 carries a
control word where its map says, 60 bits each, and stream words of 64 bits; H = 1 with an empty map is a block
error. The words are processed in order, but a NAK after the rest of its block. The FEC result comes with the
first block of a codeword and holds for its twenty: more than fifteen symbols in error make it uncorrectable. -/
def BlocksAreTaken : Prop :=
  ∀ (s : State) (p : Nat) (x : BitVec 257) (fec : FecRes), p < 16 →
    let y := s.port p
    let on := y.link.st = .up ∨ y.link.st = .degraded ∨ y.link.st = .align
    let v := x.toNat
    let lost := fec.uncorrectable = true ∨ 15 < fec.corrected
    let l := if y.rx.blk = 0 then { y.link with fecCor := satAdd y.link.fecCor (if lost then 0 else fec.corrected),
                                                fecUnc := satAdd y.link.fecUnc (if lost then 1 else 0) } else y.link
    let rx := { y.rx with blk := (y.rx.blk + 1) % 20, words := [], unc := if y.rx.blk = 0 then decide lost else y.rx.unc }
    let take := fun (ws : List (Bool × Nat)) =>
      (ws.filter (fun e => !isNak e) ++ ws.filter isNak).foldl (fun s e => s.takeWord p e)
        (s.setPort p { y with link := l, rx := { rx with words := keptWords ws } })
    (¬on → exec (.blockReceive p x fec) s = .next s) ∧
    (on → x.getLsbD 0 = false → exec (.blockReceive p x fec) s =
      .next (take ((List.range 4).map (fun w => (false, bits v (64 * w + 64) (64 * w + 1)))))) ∧
    (on → x.getLsbD 0 = true → bits v 4 1 = 0 → exec (.blockReceive p x fec) s =
      .next (s.setPort p { y with link := { l with blkErr := satAdd l.blkErr 1 }, rx := rx })) ∧
    (on → x.getLsbD 0 = true → bits v 4 1 ≠ 0 → exec (.blockReceive p x fec) s = .next (take (blockWords v (bits v 4 1) 4 0 5)))

/-- R287, R288: the four words that a transmitter packs into a block are those that a receiver unpacks from
it, control words with their type, body and check, for every type of a control word. -/
def BlocksCarryTheirWords : Prop :=
  ∀ ws : List (Bool × W64), ws.length = 4 →
    (∀ e ∈ ws, e.1 = true → symType e.2 ∈ [0x01, 0x02, 0x03, 0x04, 0x10, 0x11, 0x20, 0x80, 0x81, 0x82, 0x83, 0x84]) →
    (wordsOf (blockOf ws).toNat).map keptWords = some ws ∧ ((blockOf ws).getLsbD 0 = true ↔ ∃ e ∈ ws, e.1 = true)

/-- R242, R288, R289, R295: where the words of a block go: a symbol that passes its check to hall time,
Thistle (with its copy in the next word) or the port's own control; SOF begins a frame, which its 33 further
words complete and which fails where an uncorrectable codeword overlaps it, and with which a window that closed
meanwhile is closed for good (R205); a control word of an uncorrectable
codeword is discarded, and one that fails its check or has a reserved code is discarded and counted in SYMERR. -/
def BlockWordsGoWhereTheyBelong : Prop :=
  (∀ (s : State) (p : Nat) (v : Nat) (w : W64), p < 16 → (s.port p).rx.first = none → ctlWord v = some w →
    let r := (s.port p).rx
    let good := r.unc = false ∧ symOk w = true
    let take := s.takeWord p (true, v)
    (good → symType w = 0x81 → take = s.setPort p { s.port p with rx := { r with part := some ([w], false), shut := [] } }) ∧
    (good → symType w = 0x82 → .next take = exec (.ackReceive p w) s) ∧ (good → symType w = 0x83 → .next take = exec (.nakReceive p w) s) ∧
    (good → symType w = 0x02 → .next take = exec (.tsRespReceive p w) { s with free := s.free + 2 }) ∧
    (good → symType w = 0x04 → .next take = exec (.treeReceive p w) { s with free := s.free + 2 }) ∧
    (good → symType w = 0x20 → .next take = exec (.goingAwayReceive p w) { s with free := s.free + 2 }) ∧
    (good → symType w = 0x01 → .next take = exec (.tsReqReceive p w (Config.subStamp s.free) (Config.subStamp (s.free + 1))) { s with free := s.free + 2 }) ∧
    (good → symType w = 0x80 ∨ symType w = 0x84 → take = s) ∧
    (good → symType w = 0x10 ∨ symType w = 0x11 → take = s.setPort p { s.port p with rx := { r with first := some (w, true) } }) ∧
    (r.unc = true → symType w ≠ 0x10 → symType w ≠ 0x11 → symType w ≠ 0x81 → take = s) ∧
    (r.unc = false → symOk w = false → symType w < 0x80 → symType w ≠ 0x10 → symType w ≠ 0x11 → take = s.symErr p)) ∧
  (∀ (s : State) (p v : Nat), p < 16 → (s.port p).rx.first = none → ctlWord v = none →
    s.takeWord p (true, v) = if (s.port p).rx.unc then s else s.symErr p) ∧
  (∀ (s : State) (p : Nat) (a w : W64) (v : Nat), p < 16 → (s.port p).rx.first = some (a, true) → symType a = 0x10 → symType w = 0x10 →
    ctlWord v = some w → (s.port p).rx.unc = false → symOk a = true → symOk w = true →
    s.takeWord p (true, v) = (s.setPort p { s.port p with rx := { (s.port p).rx with first := none } }).arriveCore p a w) ∧
  (∀ (s : State) (p v : Nat) (ws : List W64) (u : Bool), p < 16 → (s.port p).rx.first = none → (s.port p).rx.part = some (ws, u) →
    let w : W64 := BitVec.ofNat 64 v
    let bad := u || (s.port p).rx.unc
    let part := fun x => s.setPort p { s.port p with rx := { (s.port p).rx with part := x } }
    (ws.length + 1 ≠ 34 → s.takeWord p (false, v) = part (some (ws ++ [w], bad))) ∧
    let got := (part none).frameIn p (frameOf (ws ++ [w])) bad
    (ws.length + 1 = 34 → s.takeWord p (false, v) = got.setPort p { got.port p with rx := { (got.port p).rx with shut := [] } })) ∧
  (∀ (s : State) (p v : Nat), p < 16 → (s.port p).rx.first = none → (s.port p).rx.part = none → s.takeWord p (false, v) = s) ∧
  (∀ f : Frame, f.payload.length = 8 →
    frameOf (f.sof :: f.payload.flatMap (fun u => (List.range 4).map (fun i => u.extractLsb' (64 * i) 64)) ++ [f.trailer]) = f)

/-- R241, R290: the check of a symbol is CRC-8 of its bytes 0 to 6 and every symbol built passes it; a frame's
check is CRC-32C of its SOF body, its 256 payload bytes and FIDX, and every frame built passes it; both codes
give the published values on the digits 1 to 9. -/
def CheckCodesHold : Prop :=
  (∀ ty body : Nat, symOk (symWord ty body) = true ∧ symType (symWord ty body) = ty % 256 ∧ symBody (symWord ty body) = body % 2 ^ 48) ∧
  (∀ (kind n tag seq fidx : Nat) (cxh : BitVec 16) (us : List W256), kind < 4 → 0 < n → n ≤ 8 → tag < 256 → seq < 4096 → fidx < 2 ^ 24 → us.length = 8 →
    let f := mkFrame kind n tag seq cxh us fidx
    Frame.sofOk f = true ∧ Frame.crcOk f = true ∧ Frame.reserved f = false ∧ Frame.kind f = kind ∧ Frame.nunits f = n ∧ Frame.tag f = tag ∧
    (Frame.seq f).toNat = seq ∧ Frame.cxh f = cxh ∧ Frame.fidx f = fidx ∧ f.payload = us) ∧
  crc32c [0x31, 0x32, 0x33, 0x34, 0x35, 0x36, 0x37, 0x38, 0x39] = 0xE3069283 ∧
  crc8 [0x31, 0x32, 0x33, 0x34, 0x35, 0x36, 0x37, 0x38, 0x39] = 0xF4

/-! ### Reduction channels -/

/-- R270: a unit forms once each of its sources is usable, as the sum of the sources' elements in programmed
order; a source that does not translate faults the context; a unit that has formed, or one of a channel at
rest, does not form. -/
def ChannelUnitsForm : Prop :=
  ∀ (s t : State) (p ch u : Nat) (c : CtxRef), p < 16 → ch < 64 → (s.port p).xch.owner = some c →
    let x := (s.port p).xch
    let y := x.chan ch
    let ready := s.exchanging c = true ∧ (y.st = .armed ∨ y.st = .wait) ∧ u < (x.chHdr ch).count ∧ u ∉ y.formed ∧
      ∀ e ∈ x.chSrcs ch, e.2.kind ≠ 2 ∨ unitKey e.1 u ∈ y.prim ∨ unitKey e.1 u ∈ y.bkTook
    (¬ready → exec (.channelUnitForm p ch u) s = .next s) ∧
    (ready → s.srcsElems c p ch u (x.chSrcs ch) = (t, none) → exec (.channelUnitForm p ch u) s = .next (t.slotFault c p 0)) ∧
    (∀ v vs, ready → s.srcsElems c p ch u (x.chSrcs ch) = (t, some (v :: vs)) → exec (.channelUnitForm p ch u) s =
      .next (t.chanWrite c p ch u (vs.foldl (fun a b => List.zipWith addF a b) v)))

/-- R273 to R275: at the deadline of its sources a channel at rest, or of no context in its exchange phase,
does nothing; past the deadline every source due is marked and takes the backups that have landed, in order; a
source then still missing counts once in LATE and LATECNT and makes its channel wait, and REDUCE_LATE is
raised, once, for a Strict context, and with a fault where no copy can come any more. -/
def ReduceDeadlines : Prop :=
  ∀ (s : State) (p ch : Nat), p < 16 → ch < 64 →
    let x := (s.port p).xch
    (x.owner = none → exec (.reduceDeadline p ch) s = .next s) ∧
    (∀ c, x.owner = some c →
      (s.exchanging c = false ∨ ((x.chan ch).st ≠ .armed ∧ (x.chan ch).st ≠ .wait) → exec (.reduceDeadline p ch) s = .next s) ∧
      (s.exchanging c = true → ((x.chan ch).st = .armed ∨ (x.chan ch).st = .wait) →
        let due := (x.chSrcs ch).filter (fun e => e.2.kind = 2 && !(x.chan ch).pastDl.contains e.1 &&
          decide ((s.ctx c).run.xstart.toNat + e.2.dl < s.ht.now.toNat))
        let one := fun (t : State) (e : Nat × ChSrc) => let y := (t.port p).xch
          (t.setXch p ((y.setChan ch { y.chan ch with pastDl := e.1 :: (y.chan ch).pastDl }).takeBackups ch e.1 e.2)).lateSource c p ch e.1 e.2 true
        Yields (exec (.reduceDeadline p ch) s) (fun t => t = due.foldl one s ∧
          ∀ i, i ∈ (((t.port p).xch).chan ch).pastDl ↔ i ∈ (x.chan ch).pastDl ∨ ∃ e ∈ due, e.1 = i)) ∧
      (s.exchanging c = true → (∀ e ∈ x.chSrcs ch, e.2.kind = 2 → e.1 ∈ (x.chan ch).pastDl ∨
          s.ht.now.toNat ≤ (s.ctx c).run.xstart.toNat + e.2.dl) → exec (.reduceDeadline p ch) s = .next s)) ∧
    (∀ (c : CtxRef) (i : Nat) (q : ChSrc) (first : Bool), q.kind = 2 →
      let y := x.chan ch
      let misses := ∃ u, u < (x.chHdr ch).count ∧ unitKey i u ∉ y.prim ∧ unitKey i u ∉ y.bkTook
      let counted := s.setXch p ({ x.setChan ch { y with st := .wait, late := putBit y.late i true } with lateCnt := satAdd x.lateCnt 1 })
      let t := if first then counted else s
      let dead := s.srcDead x q
      let detail : W64 := BitVec.ofNat 64 (p + 2 ^ 4 * ch + 2 ^ 10 * s.pairHdid q.hdid + 2 ^ 26 * (if dead then 1 else 0))
      (¬misses → s.lateSource c p ch i q first = s) ∧
      (misses → dead = true → s.lateSource c p ch i q first = (t.raise (p / 4) evReduceLate (t.infoCtx c detail)).faultEvent c evReduceLate) ∧
      (misses → dead = false → (first = false ∨ (s.ctx c).strict = false) → s.lateSource c p ch i q first = t) ∧
      (misses → dead = false → first = true → (s.ctx c).strict = true →
        s.lateSource c p ch i q first = t.raise (p / 4) evReduceLate (t.infoCtx c detail)))

/-- R273, R275: past its deadline a source takes exactly the missing units whose backup has landed: each
counts in BKUNITS, the source is marked, and a unit that its primary has brought is never replaced; a primary
frame that comes after its backup was taken is counted late and dropped; a channel waits until no source past
its deadline misses a unit. -/
def BackupsReplaceMissingUnits : Prop :=
  ∀ (x : PortXch) (ch i u : Nat) (q : ChSrc), q.kind = 2 → u < (x.chHdr ch).count → (x.chHdr ch).count < 2 ^ 20 →
    let y := x.chan ch
    let z := (x.takeBackups ch i q).chan ch
    (unitKey i u ∈ z.bkTook ↔ unitKey i u ∈ y.bkTook ∨ (unitKey i u ∈ y.bk ∧ unitKey i u ∉ y.prim)) ∧
    z.prim = y.prim ∧
    (∀ us, u ∈ us → unitKey i u ∈ y.bkTook → unitKey i u ∉ y.prim →
      unitKey i u ∉ ((x.landed ch i q false us).chan ch).prim ∧ (x.landed ch i q false us).lateFr = satAdd x.lateFr 1) ∧
    (∀ us, u ∈ us → unitKey i u ∉ y.bkTook → unitKey i u ∈ ((x.landed ch i q false us).chan ch).prim) ∧
    (let all := ∀ e ∈ x.chSrcs ch, e.1 ∈ y.pastDl → ∀ n, n < (x.chHdr ch).count →
       e.2.kind ≠ 2 ∨ unitKey e.1 n ∈ y.prim ∨ unitKey e.1 n ∈ y.bkTook
     (y.st = .wait → all → ((x.caughtUp ch).chan ch).st = .armed) ∧ (y.st = .wait → ¬all → ((x.caughtUp ch).chan ch).st = .wait))

/-! ### Links -/

/-- R296 to R298: a port trains from DETECT; lanes that allow eight, the lower four or (ALLOW4) the upper four
take it to ALIGN with at most 10 ns of skew and within 30 ms, else it is DOWN for TRAIN_FAIL; the limit of
ALIGN ends it with that cause too, and a bad CAL is discarded (log 31); ALIGN ends with TREE received and a
good CAL within 1 ms: the port is UP with eight lanes, DEGRADED with four; R274, R299: only the first makes dead
slots raise SLOT_DEAD again. -/
def PortsTrain : Prop :=
  ∀ (s : State) (p : Nat) (lanes : BitVec 8) (skew txd rxd : Nat) (cal : W64), p < 16 →
    let y := s.port p
    let x := y.link
    let put := fun (l : PortLink) => s.setPort p { y with link := l }
    let now := s.ht.now.toNat
    let low := lanes &&& 0x0F = 0x0F
    let high := lanes &&& 0xF0 = 0xF0
    let four := lanes ≠ 0xFF ∧ x.ctl.getLsbD 2 = true ∧ (low ∨ high)
    let x' := { x with laneOk := lanes, skew := skewReg skew }
    let inTrain := x.st = .train ∧ now ≤ x.since + 30000000
    let late := (x.st = .train ∧ x.since + 30000000 < now) ∨ (x.st = .align ∧ x.since + 1000000 < now)
    let align := x.st = .align ∧ now ≤ x.since + 1000000 ∧ y.ht.known = true ∧ symOk cal = true ∧ symType cal = 0x84
    (x.st ≠ .detect → exec (.signalDetect p) s = .next s) ∧
    (x.st = .detect → exec (.signalDetect p) s = .next (put { x with st := .train, since := now })) ∧
    (¬inTrain → exec (.trainingComplete p lanes skew) s = .next s) ∧
    (inTrain → (160 < skew ∨ (lanes ≠ 0xFF ∧ ¬four)) →
      exec (.trainingComplete p lanes skew) s = .next (((put x').portDown p 6).portTry p false)) ∧
    (inTrain → skew ≤ 160 → lanes = 0xFF → exec (.trainingComplete p lanes skew) s =
      .next (put { x' with st := .align, lanes4 := false, upper := false, since := now })) ∧
    (inTrain → skew ≤ 160 → four → exec (.trainingComplete p lanes skew) s =
      .next (put { x' with st := .align, lanes4 := true, upper := !decide low, since := now })) ∧
    (skew < 65536 → (skewReg skew).toNat = skew) ∧
    (late → exec (.trainTimeout p) s = .next ((s.portDown p 6).portTry p false)) ∧ (¬late → exec (.trainTimeout p) s = .next s) ∧
    (¬align → exec (.alignComplete p txd rxd cal) s = .next s) ∧
    (align → exec (.alignComplete p txd rxd cal) s = .next (((put { x with asym := asymReg txd rxd cal }).emit
      (.word p (symWord 0x84 (txd % 2 ^ 24 + at_ 24 (rxd % 2 ^ 24))))).portUp p)) ∧
    ((s.portUp p).port p).link.st = (if x.lanes4 then .degraded else .up) ∧
    ((s.portUp p).port p).xch.deadTold = (if x.lanes4 then y.xch.deadTold else [])

/-- R280, R296, R299, R300: loss of signal, loss of lock on a lane in use and GOING_AWAY, which a port in
ALIGN receives too, take a port DOWN with the cause 1, 4 or 2; GOING_AWAY of the twin loses the pair; a port
that goes DOWN raises ULK_DOWN with its cause, keeps no frame, starts its SEQ at 0 on both ends, ends its slots
in progress and leaves hall time: its partner is unknown, and with the parent's port the parent is lost; a slot
that ends raises SLOT_DEAD with the port and TAG, and one of a reduction that no other copy can replace faults its
context; a port without EN and AUTO stays DOWN, else it detects again. -/
def PortsGoDown : Prop :=
  ∀ (s : State) (p lane : Nat) (a : W64), p < 16 → lane < 8 →
    let x := s.port p
    let carries := x.link.st = .up ∨ x.link.st = .degraded ∨ x.link.st = .align
    let inUse := x.link.lanes4 = false ∨ (if x.link.upper then 4 ≤ lane else lane < 4)
    let lose := fun (n : Nat) => (s.portDown p n).portTry p false
    let going := symOk a = true ∧ symType a = 0x20
    let twin := bits (symBody a) 15 0 = (s.hdid ^^^ 1).toNat
    (x.link.st = .down ∨ x.link.st = .detect → exec (.lossOfSignal p) s = .next s) ∧
    (x.link.st ≠ .down → x.link.st ≠ .detect → exec (.lossOfSignal p) s = .next (lose 1)) ∧
    (carries → inUse → exec (.laneLockLoss p lane) s = .next (lose 4)) ∧
    (¬(carries ∧ inUse) → exec (.laneLockLoss p lane) s = .next s) ∧
    (¬carries → exec (.goingAwayReceive p a) s = .next s) ∧
    (carries → ¬going → exec (.goingAwayReceive p a) s = .next (s.symErr p)) ∧
    (carries → going → ¬twin → exec (.goingAwayReceive p a) s = .next (lose 2)) ∧
    (carries → going → twin → exec (.goingAwayReceive p a) s = .next (lose 2).pairLost) ∧
    (∀ t : State, t.pairLost = if t.pairOn then ({ t with pair := { t.pair with lost := true } } : State).raise 0 evPairLost noInfo else t) ∧
    (∀ n now : Nat, let y := x.downed n now
      y.tx = {} ∧ y.rx = {} ∧ y.link.st = .down ∧ y.link.cause = BitVec.ofNat 4 n ∧ y.link.downCnt = satAdd x.link.downCnt 1 ∧
      y.xch = x.xch ∧ y.ht = x.ht ∧ y.link.ctl = x.link.ctl) ∧
    (∀ n : Nat, x.link.st ≠ .down →
      let t := s.portDown p n
      let y := t.port p
      let parent := s.ht.parentV = true ∧ s.ht.parent.toNat = p
      y.link.st = .down ∧ y.link.cause = BitVec.ofNat 4 n ∧ y.tx = {} ∧ y.rx = {} ∧ (t.die (p / 4)).evc.pend.getLsbD evUlkDown = true ∧
      y.ht.known = false ∧ y.ht.valid = false ∧ y.ht.plocked = false ∧ y.ht.t1 = none ∧ y.ht.t2 = none ∧
      (parent → t.ht.parentV = false ∧ t.ht.depth = 15 ∧ t.ht.limited = true ∧ (s.ht.st ≠ .free → t.ht.st = .holdover)) ∧ (¬parent → t.ht = s.ht) ∧
      (x.xch.owner ≠ none → ∀ sl ∈ y.xch.slots, sl.st = .idle ∨ sl.st = .done ∨ sl.st = .dead) ∧
      ∀ q, q < 16 → q ≠ p → (t.port q).link = (s.port q).link) ∧
    (∀ (c : CtxRef) (sl : XSlot), let e := x.xch.ent sl.entry
      let t := s.setXch p (x.xch.setSlot { sl with st := .dead })
      let u := t.raise (p / 4) evSlotDead (t.infoCtx c (BitVec.ofNat 64 (p + 2 ^ 4 * e.tag)))
      (e.kind ≠ 2 → s.slotDead c p sl = u) ∧ (e.kind = 2 → e.dst = false → s.slotDead c p sl = u.faultEvent c evSlotDead)) ∧
    (let l := x.link
     l.st = .down → s.portTry p false = if l.ctl.getLsbD 0 = true ∧ l.ctl.getLsbD 1 = true ∧ s.cfg.isSome = true
       then s.setPort p { x with link := { l with st := .detect, since := s.ht.now.toNat } } else s)

/-! ### Hall time -/

/-- R234, R240, R242: every 1,024 ns of hall time a module but the master queues TS_REQ with the next sequence
number on each up link and keeps t1; a request is answered at once with TS_RESP and TS_FUP; a response of the
exchange under way gives t2; a symbol that fails its check is counted. -/
def TimeStampsTravel : Prop :=
  ∀ (s : State) (p : Nat) (a : W64) (sub t2 t3 : BitVec 4), p < 16 →
    let x := s.port p
    let carries := x.link.st = .up ∨ x.link.st = .degraded
    let good := fun (ty : Nat) => symOk a = true ∧ symType a = ty
    let q := bits (symBody a) 7 0
    let stamp := fun (b : BitVec 4) => 16 * s.ht.now.toNat + b.toNat
    (s.ht.master = true ∨ s.ht.now.toNat % 1024 ≠ 0 → exec (.tsExchangeStart sub) s = .next s) ∧
    (s.ht.master = false → s.ht.now.toNat % 1024 = 0 → exec (.tsExchangeStart sub) s =
      .next (forAll ((List.range 16).filter (s.exchangeMissed).upLink) (fun s p =>
        let h := (s.port p).ht
        (s.setPort p { s.port p with ht := { h with seq := h.seq + 1, t1 := some (16 * s.ht.now.toNat + sub.toNat), t2 := none } }).sendSym p
          (symWord 0x01 (h.seq + 1).toNat)) s.exchangeMissed)) ∧
    (¬carries → exec (.tsReqReceive p a t2 t3) s = .next s ∧ exec (.tsRespReceive p a) s = .next s ∧ exec (.tsFupReceive p a sub) s = .next s) ∧
    (carries → ¬good 0x01 → exec (.tsReqReceive p a t2 t3) s = .next (s.symErr p)) ∧
    (carries → good 0x01 → exec (.tsReqReceive p a t2 t3) s = .next ((s.queueOn p (symWord 0x02 (q + 2 ^ 8 * (stamp t2 % 2 ^ 40)))).queueOn p
      (symWord 0x03 (q + 2 ^ 8 * (stamp t3 % 2 ^ 40))))) ∧
    (carries → ¬good 0x02 → exec (.tsRespReceive p a) s = .next (s.symErr p)) ∧
    (carries → good 0x02 → (x.ht.t1 = none ∨ x.ht.seq.toNat ≠ q) → exec (.tsRespReceive p a) s = .next s) ∧
    (carries → good 0x02 → x.ht.t1 ≠ none → x.ht.seq.toNat = q → exec (.tsRespReceive p a) s =
      .next (s.setPort p { x with ht := { x.ht with t2 := some (BitVec.ofNat 40 (bits (symBody a) 47 8)) } })) ∧
    (carries → ¬good 0x03 → exec (.tsFupReceive p a sub) s = .next (s.symErr p))

/-- R242: the symbols of a port leave in the order THS_COMPLETE, THS_ARRIVE, GOING_AWAY, the symbols of hall
time, each kind in the order in which it was queued; nothing else is taken from or added to the queue, and the
queue is empty once they have left. -/
def SymbolsLeaveInOrder : Prop :=
  (∀ (w : W64) (q : List W64), (queueSym w q).Perm (w :: q) ∧
    (q.Pairwise (fun a b => symRank a ≤ symRank b) → (queueSym w q).Pairwise (fun a b => symRank a ≤ symRank b) ∧
      ∀ k, (queueSym w q).filter (fun v => symRank v = k) = q.filter (fun v => symRank v = k) ++ (if symRank w = k then [w] else []))) ∧
  (∀ body : Nat, symRank (symWord 0x11 body) = 0 ∧ symRank (symWord 0x10 body) = 1 ∧ symRank (symWord 0x20 body) = 2 ∧
    ∀ ty ∈ [0x01, 0x02, 0x03, 0x04], symRank (symWord ty body) = 3) ∧
  (∀ (s : State) (p : Nat) (w : W64), p < 16 →
    (s.queueOn p w) = s.setPort p { s.port p with tx := { (s.port p).tx with syms := queueSym w (s.port p).tx.syms } } ∧
    ((s.flushSyms p).port p).tx.syms = [] ∧
    (s.plat.pf = true → (s.flushSyms p).outs = ((s.port p).tx.syms.map (fun w => Out.word p w)).reverse ++ s.outs))

/-- R234, R237, R239: the delay of a link is half of (t2 − t1) + (t4 − t3), the offset half of their
difference less ASYM; the exchange with the parent loads hall time the first time, renews OFFSET and the bound
(at least 2 ns, in 1/16 ns) and the time of the last good exchange. -/
def TimeStampsSteer : Prop :=
  ∀ (s : State) (p : Nat) (a : W64) (sub : BitVec 4) (t1 : Nat) (w : BitVec 40), p < 16 →
    let x := s.port p
    let t4 : Nat := 16 * s.ht.now.toNat + sub.toNat
    let t2 : Int := nearest w.toNat 40 t1
    let t3 : Int := nearest (bits (symBody a) 47 8) 40 t4
    let d := ((t2 - t1) + (t4 - t3)).tdiv 2
    let o := ((t2 - t1) - (t4 - t3)).tdiv 2 - x.link.asym.toInt
    let s' := s.setPort p { x with ht := { x.ht with delay := delayReg d, valid := true, slow := decide (8192 < d), t1 := none, t2 := none } }
    (x.link.st = .up ∨ x.link.st = .degraded) → symOk a = true → symType a = 0x03 →
    (x.ht.t1 = none ∨ x.ht.t2 = none ∨ x.ht.seq.toNat ≠ bits (symBody a) 7 0 → exec (.tsFupReceive p a sub) s = .next s) ∧
    (x.ht.t1 = some t1 → x.ht.t2 = some w → x.ht.seq.toNat = bits (symBody a) 7 0 →
      (s.isParent p = false ∨ x.ht.plocked = false → exec (.tsFupReceive p a sub) s = .next s') ∧
      (s.isParent p = true → x.ht.plocked = true → Yields (exec (.tsFupReceive p a sub) s) (fun t =>
        t.ht.offset = offsetReg o ∧ t.ht.goodAt = t.ht.now.toNat ∧ t.ht.fails = 0 ∧ t.ht.steps = 0 ∧ t.port p = s'.port p ∧
        (s.ht.st = .free → s.ht.loaded = false → t.ht.now = BitVec.ofInt 64 (((t4 : Int) + o) / 16) ∧ t.ht.loaded = true ∧ t.ht.st = .acquire) ∧
        (s.ht.st ≠ .free ∨ s.ht.loaded = true → t.ht.now = s.ht.now) ∧
        (s.ht.st = .locked ∨ s.ht.st = .holdover → t.ht.bound = BitVec.ofNat 16 (min 0xFFFF (max 32 o.natAbs)))))) ∧
    (0 ≤ d → d < 65536 → (delayReg d).toNat = d.toNat) ∧ (-32768 ≤ o → o < 32768 → (offsetReg o).toInt = o)

/-- R237, R239: the loop locks with the bound of its last offset; without an exchange the bound grows by 1/16
ns every 125 µs; a bound beyond 6 ns sets UNLOCK and raises HT_UNLOCK, once until the bound of a LOCKED module
is back at 2 ns under a LOCKED parent; after 1 ms without a parent the depth restriction ends. -/
def HallTimeLocksAndDrifts : Prop :=
  ∀ s : State,
    let h := s.ht
    let lock := h.st = .acquire ∧ h.master = false ∧ h.parentV = true
    let step := h.master = false ∧ (h.st = .locked ∨ h.st = .holdover) ∧ h.goodAt + 125000 * (h.steps + 1) ≤ h.now.toNat
    let free := h.limited = true ∧ h.parentV = false ∧ ∃ t, h.lostAt = some t ∧ t + 1000000 ≤ h.now.toNat
    (¬lock → exec .htLock s = .next s) ∧
    (lock → exec .htLock s = .next ({ s with ht := { h with
      st := .locked, bound := BitVec.ofNat 16 (min 0xFFFF (max 32 h.offset.toInt.natAbs)), lastDep := h.depth.toNat, told := false } } : State).checkBound) ∧
    (¬step → exec .holdoverBoundStep s = .next s) ∧
    (step → exec .holdoverBoundStep s =
      .next ({ s with ht := { h with bound := satAdd h.bound 1, steps := h.steps + 1 } } : State).checkBound) ∧
    (h.bound.toNat ≤ 96 ∨ h.told = true → s.checkBound = s) ∧
    (96 < h.bound.toNat → h.told = false →
      s.checkBound = (({ s with ht := { h with unlock := true, told := true } } : State).hwSet (bar0Bit 0 0x8 12)).raise 0 evHtUnlock noInfo) ∧
    (∀ o : Int, o.natAbs ≤ 32 → (s.renewBound o true).ht.told = false ∧ (s.renewBound o true).ht.bound = 32) ∧
    (¬free → exec .holdoverRestrictionEnd s = .next s) ∧
    (free → exec .holdoverRestrictionEnd s = .next { s with ht := { h with limited := false } })

/-- R235, R236, R240, R241: at a 1,024 ns boundary a module without a parent takes the candidate of least
depth, HDID and port number, and goes one deeper; TREE leaves on every port that carries traffic or aligns; a
TREE received gives the partner's master, depth, lock and HDID, and the parent's moves the module with it or
loses it. -/
def TreeIsKept : Prop :=
  ∀ (s : State) (p : Nat) (a : W64), p < 16 →
    let h := s.ht
    let x := s.port p
    let b := symBody a
    let takes := x.link.st = .up ∨ x.link.st = .degraded ∨ x.link.st = .align
    let good := symOk a = true ∧ symType a = 0x04
    let s' := s.setPort p { x with ht := { x.ht with
      pmaster := BitVec.ofNat 16 (bits b 15 0), pdepth := BitVec.ofNat 4 (bits b 19 16), plocked := b.testBit 20,
      phdid := BitVec.ofNat 16 (bits b 36 21), known := true } }
    (h.master = true ∨ h.parentV = true ∨ h.now.toNat % 1024 ≠ 0 → exec .parentSelect s = .next s) ∧
    ((∀ q, q < 16 → s.candidate q = false) → exec .parentSelect s = .next s) ∧
    (h.master = false → h.parentV = false → h.now.toNat % 1024 = 0 → s.candidate p = true →
      (∀ q, q < 16 → q ≠ p → s.candidate q = true → s.parentKey p < s.parentKey q) → exec .parentSelect s =
        .next { s with ht := { h with parent := BitVec.ofNat 4 p, parentV := true, depth := x.ht.pdepth + 1, mhdid := x.ht.pmaster,
                                      limited := false, lostAt := none, fails := 0, reparent := h.loaded } }) ∧
    (h.now.toNat % 1024 ≠ 0 → exec .treeSend s = .next s) ∧
    (h.now.toNat % 1024 = 0 → exec .treeSend s = .next (forAll ((List.range 16).filter
      (fun q => (s.port q).link.st = .up || (s.port q).link.st = .degraded || (s.port q).link.st = .align)) (fun t q => t.queueOn q
      (symWord 0x04 (h.mhdid.toNat + 2 ^ 16 * h.depth.toNat + 2 ^ 20 * (if h.st = .locked then 1 else 0) + 2 ^ 21 * s.hdid.toNat))) s)) ∧
    (¬takes → exec (.treeReceive p a) s = .next s) ∧
    (takes → ¬good → exec (.treeReceive p a) s = .next (s.symErr p)) ∧
    (takes → good → s.isParent p = false → exec (.treeReceive p a) s = .next s') ∧
    (takes → good → s.isParent p = true → exec (.treeReceive p a) s = .next (s'.parentTree p)) ∧
    (∀ t : State, (t.port p).ht.plocked = true → (t.port p).ht.pdepth.toNat < 8 → (t.parentTree p).ht.depth = (t.port p).ht.pdepth + 1 ∧
      (t.parentTree p).ht.mhdid = (t.port p).ht.pmaster) ∧
    (∀ t : State, t.parentLost.ht.depth = 15 ∧ t.parentLost.ht.parentV = false ∧ t.parentLost.ht.limited = true ∧
      (t.ht.st ≠ .free → t.parentLost.ht.st = .holdover))

/-- R44, R233, R237: the master takes HALL_TIME_SET for the next edge; at the edge the first time loads hall time
and a later one the time of day, in order, each answered OK; a master in HOLDOVER whose hall time has been
loaded is LOCKED again (log 30); a set that sees no edge for two seconds is answered TIMEOUT; a module that is
not the master answers BAD_PARAM; in STANDBY an edge and that timeout change nothing; the output
pulse is high for the first 100 ns of each second of hall time. -/
def HallTimeIsSet : Prop :=
  (∀ (s : State) (r : RingRef) (w : CmdWords),
    Accepted s r w { op := 0x80, pf0 := true, needC := true, masks := [2 ^ 64 - 1], lock := some 5 } →
    let t := s.take r w
    (t.ht.master = true → exec (.hallTimeSet r w) s = .next { t with ht := { t.ht with sets := t.ht.sets ++ [(some r, w.w1, t.ht.now.toNat)] } }) ∧
    (t.ht.master = false → exec (.hallTimeSet r w) s = .next (t.replyCode r codeBadParam))) ∧
  (∀ s : State, let h := s.ht
    (h.master = false ∨ s.plat.powered = false ∨ s.plat.pstate = .standby → exec .htPpsInEdge s = .next s) ∧
    (h.master = true → s.plat.powered = true → s.plat.pstate ≠ .standby →
      let st := if h.st = .free then (if h.sets = [] then HtSt.free else .acquire) else if h.st = .holdover ∧ h.loaded = false then .holdover else .locked
      let t := forAll h.sets (fun s q =>
        let s : State := if s.ht.loaded then { s with ht := { s.ht with todoff := q.2.1 - s.ht.now } }
          else { s with ht := { s.ht with now := q.2.1, loaded := true } }
        s.replyTo q.1 codeOk 0 0 0) { s with ht := { h with st := st, sets := [], bound := if st = .locked then 32 else h.bound, told := if st = .locked then false else h.told } }
      exec .htPpsInEdge s = .next { t with ht := { t.ht with pps := t.ht.now } }) ∧
    (s.plat.powered = false → exec .htPpsOutPulse s = .next s) ∧
    (s.plat.powered = true → exec .htPpsOutPulse s = .next { s with ht := { h with ppsOut := decide (h.now.toNat % 1000000000 < 100) } }) ∧
    (s.plat.pstate = .standby ∨ (∀ q ∈ h.sets, h.now.toNat < q.2.2 + 2000000000) → exec .hallTimeSetTimeout s = .next s) ∧
    (∀ q, h.sets = [q] → q.2.2 + 2000000000 ≤ h.now.toNat → s.plat.pstate ≠ .standby → exec .hallTimeSetTimeout s =
      .next (({ s with ht := { h with sets := [] } } : State).replyTo q.1 codeTimeout 0 0 0)))

/-! ### Rings and host commands -/

/-- R318: a doorbell gives an enabled ring its tail, which the ring sees from the next control cycle on, or
sets ERR where the tail lies beyond the ring; a disabled ring discards it. EN = 1 written to an enabled ring
leaves it running (log 34). R317, R318: a write of HST_RCTL keeps LOG2N while EN is 1; EN from 0 to 1 with a
legal size and aligned bases starts the ring afresh, else it stays disabled. -/
def RingsAreWritten : Prop :=
  ∀ (s : State) (r : RingRef) (v : W32), r.ok = true →
    let x := s.ring r
    let up := s.plat.powered = true ∧ s.plat.perst = true ∧ s.plat.pcie.off = false
    let t := bits v.toNat 15 0
    let lg := if x.ctl.getLsbD 4 then x.log2n else bits v.toNat 3 0
    let may := 4 ≤ lg ∧ lg ≤ 12 ∧ bits x.cmd.toNat 5 0 = 0 ∧ bits x.rpl.toNat 4 0 = 0
    let ctl := fun (en : Nat) => BitVec.ofNat 32 (lg + 2 ^ 4 * en + 2 ^ 5 * bits v.toNat 14 5)
    let put := fun (y : Ring) => let t := s.setRing r y; t.setFn r.pf { t.fn r.pf with ringErr := putBit (t.fn r.pf).ringErr r.ring y.err }
    (¬up → exec (.doorbell r v) s = .next s ∧ exec (.ringEnable r v) s = .next s ∧ exec (.ringDisable r v) s = .next s) ∧
    (up → x.ctl.getLsbD 4 = false → exec (.doorbell r v) s = .next s) ∧
    (up → x.ctl.getLsbD 4 = true → t < x.n → exec (.doorbell r v) s = .next (s.setRing r { x with
      tail := t, tailAt := some s.ht.now.toNat, tailOld := if x.tailAt = some s.ht.now.toNat then x.tailOld else x.tail })) ∧
    ((s.canTake r = true → x.head ≠ (if x.tailAt = some s.ht.now.toNat then x.tailOld else x.tail))) ∧
    (up → x.ctl.getLsbD 4 = true → x.n ≤ t → exec (.doorbell r v) s = .next (put { x with err := true })) ∧
    (v.getLsbD 4 = false → exec (.ringEnable r v) s = .next s) ∧ (v.getLsbD 4 = true → exec (.ringDisable r v) s = .next s) ∧
    (up → v.getLsbD 4 = false → exec (.ringDisable r v) s = .next (put { x with ctl := ctl 0 })) ∧
    (up → v.getLsbD 4 = true → x.ctl.getLsbD 4 = true → exec (.ringEnable r v) s = .next (put { x with ctl := ctl 1 })) ∧
    (up → v.getLsbD 4 = true → x.ctl.getLsbD 4 = false → may → exec (.ringEnable r v) s =
      .next (put { x with ctl := ctl 1, head := 0, tail := 0, tailAt := none, err := false, seq := x.seq0 })) ∧
    (up → v.getLsbD 4 = true → x.ctl.getLsbD 4 = false → ¬may → exec (.ringEnable r v) s = .next (put { x with ctl := ctl 0 }))

/-- The host commands with what the opcode table (R326) asks of each: opcode, function 0 only, Needs P, Needs
C, lock bit. -/
def commandTable : List ((RingRef → CmdWords → Instr) × CmdSpec) :=
  [(.identify, { op := 0x02 }), (.configApply, { op := 0x03, pf0 := true, masks := [2 ^ 64 - 1, 2 ^ 32 - 1], lock := some 2 }),
   (.configRead, { op := 0x04, masks := [2 ^ 64 - 1] }), (.partCreate, { op := 0x10, pf0 := true, needC := true, masks := [3], lock := some 3 }),
   (.partDestroy, { op := 0x11, pf0 := true, masks := [3], lock := some 3 }),
   (.ctxCreate, { op := 0x12, needP := true, needC := true, masks := [2 ^ 33 - 1, 2 ^ 48 - 1, 2 ^ 32 - 1, 2 ^ 49 - 1] }),
   (.ctxTeardown, { op := 0x13, needP := true, cxh := true }), (.ctxReset, { op := 0x14, needP := true, cxh := true }),
   (.loadSegment, { op := 0x20, needP := true, needC := true, cxh := true, masks := [2 ^ 64 - 1, 2 ^ 32 - 1, 2 ^ 17 - 1, 2 ^ 48 - 1] }),
   (.relocate, { op := 0x21, needP := true, needC := true, cxh := true }),
   (.patch, { op := 0x22, needP := true, needC := true, cxh := true, masks := [2 ^ 48 - 1, 2 ^ 16 - 1, 2 ^ 64 - 1] }),
   (.start, { op := 0x23, needP := true, needC := true, cxh := true }), (.haltCommand, { op := 0x24, needP := true, cxh := true }),
   (.resume, { op := 0x25, needP := true, needC := true, cxh := true })] ++
  [(.dmaHost, { op := 0x30, needP := true, needC := true, cxh := true, masks := [2 ^ 64 - 1, 2 ^ 48 - 1, 0x37FFFFFFF] }),
   (.windowOpen, { op := 0x31, needP := true, needC := true, cxh := true, masks := [2 ^ 48 - 1, 2 ^ 48 - 1, 0x1FF03FFFFFFFF] }),
   (.windowClose, { op := 0x32, needP := true, masks := [0xFF] }),
   (.flagSet, { op := 0x40, needP := true, cxh := true, masks := [0x11FFF7FFF] }),
   (.flagRead, { op := 0x41, needP := true, cxh := true, masks := [0x3F001FFF7FFF] }),
   (.scratchSample, { op := 0x42, needP := true, cxh := true, masks := [2 ^ 23 - 1] }),
   (.eventRead, { op := 0x50, masks := [2 ^ 64 - 1, 2 ^ 49 - 1, 2 ^ 13 - 1] }), (.eventAck, { op := 0x51, masks := [2 ^ 48 - 1] }),
   (.powerMode, { op := 0x60, pf0 := true, needC := true, masks := [1], lock := some 4 }),
   (.bankPower, { op := 0x61, needP := true, needC := true, masks := [0x7F] }),
   (.lifecycle, { op := 0x70, pf0 := true, masks := [3], lock := some 1 }), (.lock, { op := 0x71, pf0 := true, masks := [0x1FF] }),
   (.hallTimeSet, { op := 0x80, pf0 := true, needC := true, masks := [2 ^ 64 - 1], lock := some 5 }),
   (.linkControl, { op := 0x81, needP := true, needC := true, masks := [0xFF] }),
   (.fwUpdate, { op := 0xF0, pf0 := true, masks := [2 ^ 64 - 1, 2 ^ 32 - 1], lock := some 0 })]

/-- R40, R319, R322, R326, R375: no command of the table starts while its ring cannot take one, its turn has
not come or its word holds another opcode; a resource command that must wait lets the turn pass (log 34); taken, a
command is answered with the code of the first check that fails, in the order recovery, function, partition,
configuration, reserved bits, lock; one that names a context which is not its function's and live is answered
BAD_PARAM. -/
def CommandsAreChecked : Prop :=
  ∀ (s : State) (r : RingRef) (w : CmdWords) (e : (RingRef → CmdWords → Instr) × CmdSpec), e ∈ commandTable → r.ok = true →
    let k := e.2
    let takes := s.canTake r = true ∧ s.atTurn r = true ∧ bits w.w0.toNat 7 0 = k.op
    let goes := takes ∧ s.resourceWait r.pf w = false
    let t := s.take r w
    let code := if t.plat.recovery = true ∧ k.op ∉ [0x01, 0x02, 0x50, 0x51, 0xF0] then some codeBusy
      else if k.pf0 = true ∧ r.pf ≠ 0 then some codeBadOpcode
      else if k.needP = true ∧ t.partExists r.pf = false then some codeNoResource
      else if k.needC = true ∧ t.cfg = none then some codeConfigInvalid
      else if reservedOk k w = false then some codeBadParam
      else match k.lock with
        | some b => if t.plat.lock.getLsbD b then some codeLocked else none
        | none => none
    (¬takes → exec (e.1 r w) s = .next s) ∧
    (takes → s.resourceWait r.pf w = true → exec (e.1 r w) s = .next (s.setFn r.pf { s.fn r.pf with turn := (r.ring + 1) % 16 })) ∧
    (∀ n, goes → code = some n → exec (e.1 r w) s = .next (t.replyCode r n)) ∧
    (goes → code = none → k.cxh = true → k.op ≠ 0x30 → t.checkCxh r.pf (BitVec.ofNat 16 (bits w.w0.toNat 31 16)) = none →
      exec (e.1 r w) s = .next (t.replyCode r codeBadParam))

/-- R40, R318, R319: a ring's command is taken when, from the ring whose turn it is on, no ring of the
function that could be taken comes before it; the take gives the turn to the next ring, puts the command in
progress with its sequence number and place, moves HEAD and counts TAKEN. A resource command that waits for
another lets the turn pass (log 34). At most one resource command of a function is in progress. -/
def RingsTakeTurns : Prop :=
  ∀ (s : State) (r : RingRef) (w : CmdWords), r.ok = true → (s.fn r.pf).turn < 16 →
    let x := s.ring r
    let from_ := (s.fn r.pf).turn
    let place := fun (n : Nat) => (n + 16 - from_) % 16
    let t := s.take r w
    (s.atTurn r = true ↔ ∀ n, n < 16 → place n < place r.ring → s.canTake ⟨r.pf, n⟩ = false) ∧
    (s.canTake r = true → ∀ q, q < 16 → s.canTake ⟨r.pf, q⟩ = true → s.atTurn r = true → s.atTurn ⟨r.pf, q⟩ = true → q = r.ring) ∧
    (t.fn r.pf).turn = (r.ring + 1) % 16 ∧ (t.fn r.pf).taken = satAdd (s.fn r.pf).taken 1 ∧
    (t.ring r).head = (x.head + 1) % 2 ^ bits x.ctl.toNat 3 0 ∧ (t.ring r).seq = x.seq + 1 ∧ (t.ring r).tail = x.tail ∧
    (∃ k, (t.ring r).cur = some k ∧ k.op = bits w.w0.toNat 7 0 ∧ k.seq = x.seq ∧ k.idx = x.head ∧ k.w = w ∧
      k.tag.toNat = bits w.w0.toNat 63 32 ∧ k.irq = w.w0.getLsbD 8) ∧
    (∀ q, q.ok = true → q ≠ r → t.ring q = s.ring q) ∧
    (s.resourceWait r.pf w = true ↔ resourceOp w = true ∧
      ((∃ q k, q < 16 ∧ (s.ring ⟨r.pf, q⟩).cur = some k ∧ resourceOp k.w = true) ∨ s.flrRuns r.pf = true)) ∧
    (resourceOp w = true ↔ bits w.w0.toNat 7 0 ∈ [0x10, 0x11, 0x12, 0x13] ∨ (bits w.w0.toNat 7 0 = 0x90 ∧ bits w.w1.toNat 2 0 = 0))

/-- R320, R321, R323: a reply frees the ring and writes 32 bytes at the command's place in the reply ring:
code, attention bits, sequence number, tag and the three result words; a link that is off writes nothing; an
interrupt that the command and the ring ask for counts on the ring's vector. -/
def RepliesAreWritten : Prop :=
  ∀ (s : State) (r : RingRef) (code w1 w2 w3 : Nat), r.ok = true → Memory.wf s.hostMem = true →
    let x := s.ring r
    (x.cur = none → s.reply r code w1 w2 w3 = s) ∧
    (∀ k, x.cur = some k →
      let t := s.reply r code w1 w2 w3
      let a := x.rpl.toNat + 32 * k.idx
      let bs := toLE 8 (code + 2 ^ 8 * (s.attn r.pf).toNat + 2 ^ 16 * k.seq.toNat + 2 ^ 32 * k.tag.toNat) ++ toLE 8 w1 ++ toLE 8 w2 ++ toLE 8 w3
      (t.ring r).cur = none ∧ (t.ring r).head = x.head ∧ (t.ring r).tail = x.tail ∧
      (s.plat.pcie.off = true → t.hostMem = s.hostMem) ∧
      (s.plat.pcie.off = false → mread t.hostMem a 32 = bs ∧ ∀ b, b < a ∨ a + 32 ≤ b → mget t.hostMem b = mget s.hostMem b))

/-- R322, R326, R329: NOP completes with OK and an opcode that the table does not list, whatever its other
bits, with BAD_OPCODE; IDENTIFY tells the grade, stepping, layout, function, life cycle, whether the module is in
Pair mode (R280: no longer once the pair is lost), clusters, HDID, free context slots of the function (0 where
it has no partition, log 37) and the firmware. -/
def NopAndIdentify : Prop :=
  ∀ (s : State) (r : RingRef) (w : CmdWords),
    let op := bits w.w0.toNat 7 0
    let t := s.take r w
    let f := r.pf
    (op ∈ opcodes → Accepted s r w { op := 0x01 } → exec (.nopCommand r w) s = .next (t.replyCode r codeOk)) ∧
    (op ∉ opcodes → r.ok = true → s.canTake r = true → s.atTurn r = true → exec (.nopCommand r w) s = .next (t.replyCode r codeBadOpcode)) ∧
    (Accepted s r w { op := 0x02 } → exec (.identify r w) s = .next (t.reply r codeOk
      (t.grade + 2 ^ 16 * t.fuses.stepping.toNat + 2 ^ 24 * (if t.parts = 0 then 3 else t.layout.code) + 2 ^ 26 * f
        + 2 ^ 28 * (if t.cfg.isSome then 1 else 0) + 2 ^ 29 * t.fuses.lcs.toNat + 2 ^ 31 * (if t.pairOn then 1 else 0)
        + 2 ^ 32 * (~~~t.fuses.dis).toNat)
      (1 + 2 ^ 16 * t.hdid.toNat
        + 2 ^ 32 * (if t.partExists f then ((List.range 8).map (fun c => if (t.ctx ⟨f, c⟩).st = .free then 2 ^ c else 0)).sum else 0))
      (t.fwVer + 2 ^ 32 * (if t.plat.fwB then 1 else 0)))) ∧
    t.grade ∈ [0x8192, 0x7936, 0x7680] ∧ (t.grade = 0x8192 ↔ ∀ i, i < 32 → t.fuses.dis.getLsbD i = false)

/-- R44, R330 to R332: CONFIG_APPLY with a context or another image (log 36) in progress is BUSY; an unaligned
address is BAD_PARAM; an image that fails a check is CONFIG_INVALID with the check's number; a valid one takes
effect in its own step: the configuration, Pair mode and HDID are the image's, every port that it enables
tries again, and the reply is OK; in STANDBY it waits. CONFIG_READ gives back the image. -/
def ConfigurationsApply : Prop :=
  ∀ (s : State) (r : RingRef) (w : CmdWords),
    let t := s.take r w
    let img := mread t.hostMem w.w1.toNat 88
    let len := fld w.w2 31 0
    (Accepted s r w { op := 0x03, pf0 := true, masks := [2 ^ 64 - 1, 0xFFFFFFFF], lock := some 2 } →
      let busy := (∃ c ∈ allCtx, (t.ctx c).st ≠ .free) ∨ t.plat.cfgBy ≠ none
      (busy → exec (.configApply r w) s = .next (t.replyCode r codeBusy)) ∧
      (¬busy → w.w1.toNat % 8 ≠ 0 → exec (.configApply r w) s = .next (t.replyCode r codeBadParam)) ∧
      (∀ n, ¬busy → w.w1.toNat % 8 = 0 → cfgCheck img len = some n → exec (.configApply r w) s = .next (t.reply r codeConfigInvalid n 0 0)) ∧
      (¬busy → w.w1.toNat % 8 = 0 → cfgCheck img len = none → exec (.configApply r w) s =
        .next { t with plat := { t.plat with cfgBy := some (some r, img) } })) ∧
    (Accepted s r w { op := 0x04, masks := [2 ^ 64 - 1] } →
      (t.cfg = none → exec (.configRead r w) s = .next (t.replyCode r codeConfigInvalid)) ∧
      (∀ c, t.cfg = some c → exec (.configRead r w) s =
        .next (({ t with hostMem := mwrite t.hostMem w.w1.toNat c.bytes } : State).replyCode r codeOk))) ∧
    (s.plat.cfgBy = none ∨ s.plat.pstate = .standby → exec .configApplyComplete s = .next s) ∧
    (∀ q i, s.plat.cfgBy = some (q, i) → s.plat.pstate ≠ .standby → Yields (exec .configApplyComplete s) (fun u =>
      u.cfg = some (cfgOf i) ∧ u.pair.on = (cfgOf i).pair ∧ u.hdid = (cfgOf i).hdid ∧ u.plat.cfgBy = none ∧ u.plat.hbmUp = true ∧
      u.plat.envelope = (cfgOf i).env ∧ u.ht.master = (cfgOf i).master ∧
      ∀ p, p < 16 → (u.port p).link.ctl.getLsbD 0 = (cfgOf i).portEn.getLsbD p ∧ (u.port p).link.ctl.getLsbD 2 = (cfgOf i).allow4.getLsbD p ∧
        ((cfgOf i).portEn.getLsbD p = false → (u.port p).link.st = .down)))

/-- R35, R37: PART_CREATE, which checks its parameters first (log 37), makes all partitions of a layout at
once where none exists; PART_DESTROY removes one that has no context. -/
def PartitionsComeAndGo : Prop :=
  ∀ (s : State) (r : RingRef) (w : CmdWords),
    let t := s.take r w
    let p := fld w.w1 1 0
    (Accepted s r w { op := 0x10, pf0 := true, needC := true, masks := [3], lock := some 3 } →
      (p = 3 → exec (.partCreate r w) s = .next (t.replyCode r codeBadParam)) ∧
      (p ≠ 3 → t.parts ≠ 0 → exec (.partCreate r w) s = .next (t.replyCode r codeBusy)) ∧
      (∀ l n, (p = 0 ∧ l = .p1 ∧ n = 1) ∨ (p = 1 ∧ l = .p2 ∧ n = 3) ∨ (p = 2 ∧ l = .p4 ∧ n = 15) → t.parts = 0 →
        exec (.partCreate r w) s = .next (({ t with layout := l, parts := BitVec.ofNat 4 n } : State).replyCode r codeOk))) ∧
    (Accepted s r w { op := 0x11, pf0 := true, masks := [3], lock := some 3 } →
      (t.partExists p = false → exec (.partDestroy r w) s = .next (t.replyCode r codeBadParam)) ∧
      (t.partExists p = true → (∃ c, c < 8 ∧ (t.ctx ⟨p, c⟩).st ≠ .free) → exec (.partDestroy r w) s = .next (t.replyCode r codeBusy)) ∧
      (t.partExists p = true → (∀ c, c < 8 → (t.ctx ⟨p, c⟩).st = .free) → exec (.partDestroy r w) s =
        .next (({ t.latchConfig with parts := putBit t.parts p false } : State).replyCode r codeOk)))

/-- R24, R28, R34: the physical column of a logical one is the one before which that many columns of the row
are not skipped, and is itself not skipped; the 66 columns of a row suffice for its two skips; the example of
R28; a row's skips are those that its word of the row map marks. -/
def RowsSkipColumns : Prop :=
  (∀ (ks : List Nat) (l : Nat), ks.Pairwise (· < ·) → ks.length ≤ 2 → l < 64 →
    let c := physOf ks l
    c < 66 ∧ c ∉ ks ∧ ((List.range c).filter (fun k => !ks.contains k)).length = l) ∧
  (∀ l, l < 64 → physOf [] l = l ∧ physOf [17, 40] l = if l < 17 then l else if l < 39 then l + 1 else l + 2) ∧
  (∀ (w : W32) (k : Nat), k ∈ rowSkips w ↔ (w.getLsbD 7 = true ∧ k = bits w.toNat 6 0) ∨ (w.getLsbD 15 = true ∧ k = bits w.toNat 14 8))

/-- R39, R40, R328: CTX_CREATE gives the lowest free slot of the partition the clusters and the allocation
that are free, in CREATED with the slot's epoch, and answers its handle; clusters outside the partition or an
allocation that is misaligned or out of range are BAD_PARAM, ones that are taken NO_RESOURCE. -/
def ContextsAreCreated : Prop :=
  ∀ (s : State) (r : RingRef) (w : CmdWords),
    Accepted s r w { op := 0x12, needP := true, needC := true, masks := [2 ^ 33 - 1, 2 ^ 48 - 1, 2 ^ 32 - 1, 2 ^ 49 - 1] } →
    let t := s.take r w
    let cls := fld w.w1 31 0
    let root := bits w.w4.toNat 47 0
    (∀ code, t.createCheck r.pf cls w.w2.toNat w.w3.toNat root = some code → exec (.ctxCreate r w) s = .next (t.replyCode r code)) ∧
    (∀ n, t.createCheck r.pf cls w.w2.toNat w.w3.toNat root = none → t.freeSlot r.pf = some n → Yields (exec (.ctxCreate r w) s) (fun u =>
      let c : CtxRef := ⟨r.pf, n⟩
      u.ctx c = { epoch := (t.ctx c).epoch, st := .created, strict := w.w1.getLsbD 32, clusters := BitVec.ofNat 32 cls,
                  allocPa := w.w2.toNat, alloc2m := w.w3.toNat } ∧
      (∀ d : CtxRef, d.ok = true → d ≠ c → u.ctx d = t.ctx d) ∧ (u.ring r).cur = none ∧ u.tiles = t.tiles ∧ u.hbm = t.hbm)) ∧
    (t.createCheck r.pf cls w.w2.toNat w.w3.toNat root = none →
      cls ≠ 0 ∧ w.w2.toNat % 2 ^ 21 = 0 ∧ root % 2 ^ 21 = 0 ∧ w.w3.toNat ≠ 0 ∧
      (∃ n, n < 8 ∧ t.freeSlot r.pf = some n ∧ (t.ctx ⟨r.pf, n⟩).st = .free ∧ ∀ k, k < n → (t.ctx ⟨r.pf, k⟩).st ≠ .free) ∧
      (∀ i, i < 32 → cls.testBit i = true → t.fuses.dis.getLsbD i = false ∧ t.ctxOfCid i = none ∧ (partMask t.layout r.pf).testBit i = true))

/-- R42, R375 to R378: CTX_TEARDOWN and CTX_RESET take a context out of service at once: its slot takes the
next epoch (its handle names nothing any more), it is TEARING, and an L0 is in progress; once drained, and no
L1 that forces it runs, a reset context is CREATED again and answers its new handle; a torn-down one is
scrubbed, after which its slot is free (one that an L2 destroys is wiped and scrubbed by that L2, R371), its
allocation reads zero and the command is answered; the drain waits for the tiles' messages, the exchange
units, the frames for replay and the DMA units of the old handle. -/
def ContextsAreRemoved : Prop :=
  (∀ (s : State) (r : RingRef) (w : CmdWords) (c : CtxRef), c.ok = true → AcceptedCtx s r w { op := 0x13, needP := true } c →
    Yields (exec (.ctxTeardown r w) s) (fun u =>
      (u.ctx c).st = .tearing ∧ (u.ctx c).epoch = (s.ctx c).epoch + 1 ∧ (u.ctx c).clusters = (s.ctx c).clusters ∧
      u.checkCxh c.part (s.cxh c) = none ∧ (∃ q ∈ u.resets, q.level = 0 ∧ q.ctx = some c) ∧
      (∃ td, (u.ctx c).td = some td ∧ td.kind = .teardown ∧ td.wiped = false) ∧ ((s.ctx c).sampleBy = none → u.hbm = s.hbm))) ∧
  (∀ (s : State) (r : RingRef) (w : CmdWords) (c : CtxRef), c.ok = true → AcceptedCtx s r w { op := 0x14, needP := true } c →
    Yields (exec (.ctxReset r w) s) (fun u =>
      (u.ctx c).st = .tearing ∧ (u.ctx c).epoch = (s.ctx c).epoch + 1 ∧ u.checkCxh c.part (s.cxh c) = none ∧
      (∃ td, (u.ctx c).td = some td ∧ td.kind = .reset ∧ td.wiped = false) ∧ ((s.ctx c).sampleBy = none → u.hbm = s.hbm))) ∧
  (∀ (s : State) (c : CtxRef), s.drained c = true ↔ ∀ d ∈ diesOf s.layout c.part,
    let h := s.oldCxh c
    (∀ t ∈ (s.ctx c).tidsOn d, (s.tile t).msgsOut = 0) ∧ (∀ f ∈ s.flights, f.cxh = h → routerDie (f.rr, f.rc) ≠ d) ∧
    (∀ p, p / 4 = d → ∀ f ∈ (s.port p).tx.buf, f.cxh ≠ h) ∧ (∀ f ∈ (s.die d).str.fly, f.cxh ≠ h) ∧
    ∀ q ∈ (s.die d).str.hbmq, q.wr = true → q.cxh ≠ h) ∧
  (∀ (s : State) (c : CtxRef), c.ok = true → s.plat.pstate = .standby → exec (.drainComplete c) s = .next s ∧ exec (.scrubComplete c) s = .next s) ∧
  (∀ (s : State) (c : CtxRef), c.ok = true → s.plat.pstate ≠ .standby →
    ((s.ctx c).td = none ∨ s.plat.pf = false → exec (.drainComplete c) s = .next s ∧ exec (.scrubComplete c) s = .next s) ∧
    ∀ td, (s.ctx c).td = some td → s.plat.pf = true →
      let forced := ∃ q ∈ s.resets, q.level = 1 ∧ q.ctx = some c
      (td.wiped = true ∨ td.kind = .level2 ∨ s.drained c = false ∨ forced → exec (.drainComplete c) s = .next s) ∧
      (td.wiped = false → td.kind ≠ .level2 → s.drained c = true → ¬forced → (∀ n, n < 8 → (s.ctx ⟨c.part, n⟩).flr = false) → Yields (exec (.drainComplete c) s) (fun u =>
        (∀ t ∈ (s.ctx c).tids, (u.tile t).sram = [] ∧ (u.tile t).thr = [] ∧ (u.tile t).fenced = (s.tile t).fenced) ∧
        (∀ q ∈ u.resets, ¬(q.level = 0 ∧ q.ctx = some c)) ∧
        (td.kind = .reset → (u.ctx c).st = .created ∧ (u.ctx c).clusters = (s.ctx c).clusters ∧ (u.ctx c).td = none) ∧
        (td.kind ≠ .reset → (u.ctx c).st = (s.ctx c).st ∧ (u.ctx c).td = some { td with wiped := true, due := s.ht.now.toNat + s.scrubNs c }))) ∧
      (td.wiped = false ∨ s.ht.now.toNat < td.due → exec (.scrubComplete c) s = .next s) ∧
      (Memory.wf s.hbm = true → td.wiped = true → td.due ≤ s.ht.now.toNat → (∀ n, n < 8 → (s.ctx ⟨c.part, n⟩).flr = false) →
        Yields (exec (.scrubComplete c) s) (fun u =>
        u.ctx c = { epoch := (s.ctx c).epoch } ∧
        (∀ st off, st < 20 → off < 2 ^ 37 → (s.allocSpan c st).1 ≤ off → off < (s.allocSpan c st).2 → mget u.hbm (2 ^ 37 * st + off) = 0) ∧
        (∀ st off, st < 20 → off < 2 ^ 37 → (off < (s.allocSpan c st).1 ∨ (s.allocSpan c st).2 ≤ off) →
          mget u.hbm (2 ^ 37 * st + off) = mget s.hbm (2 ^ 37 * st + off)))))

/-- R70, R73, R76: LOAD_SEGMENT is refused by the context's state, its parameters or the segment's prefix and
body, with nothing of the segment kept; a segment that loads leaves a context LOADED that was CREATED or DONE. -/
def SegmentsLoad : Prop :=
  ∀ (s : State) (r : RingRef) (w : CmdWords) (c : CtxRef),
    AcceptedCtx s r w { op := 0x20, needP := true, needC := true, masks := [2 ^ 64 - 1, 2 ^ 32 - 1, 2 ^ 17 - 1, 2 ^ 48 - 1] } c →
    let t := s.take r w
    let st := (t.ctx c).st
    let q := loadCmd w
    let seg := mread t.hostMem q.addr q.len
    let r' := exec (.loadSegment r w) s
    (st = .running → r' = .next (t.replyCode r codeBusy)) ∧ (st = .faulted → r' = .next (t.replyCode r codeFaulted)) ∧
    (st ≠ .running → st ≠ .faulted →
      (q.ok = false → r' = .next (t.replyCode r codeBadParam)) ∧
      (∀ n, q.ok = true → prefixCheck seg q.kind q.len = some n → r' = .next (t.replyCode r n)) ∧
      (∀ n, q.ok = true → prefixCheck seg q.kind q.len = none → t.loadBody c q (seg.drop 16) = .error n → r' = .next (t.replyCode r n)) ∧
      (∀ u, q.ok = true → prefixCheck seg q.kind q.len = none → t.loadBody c q (seg.drop 16) = .ok u →
        r' = .next ((u.setCtx c { u.ctx c with st := if (u.ctx c).st = .created ∨ (u.ctx c).st = .done then .loaded else (u.ctx c).st,
                                               segTcs := 1 :: (u.ctx c).segTcs }).replyCode r codeOk)))

/-- R72, R80, R202, R328: PATCH writes one aligned 64-bit word to the SRAM of the tiles that it names (into a
bank group without power it raises BANK_OFF instead, and is answered OK, log 38) or to HBM; RELOCATE writes
the records whose base is known in their order, answers how many are left, or the address of the translation
that failed; one after which a tile's lists would name what the loader refuses leaves all as it was, with BAD_PARAM
(log 38). Only LOADED and HALTED contexts take either. -/
def PatchesAndRelocations : Prop :=
  ∀ (s : State) (r : RingRef) (w : CmdWords) (c : CtxRef),
    let t := s.take r w
    let x := t.ctx c
    let idle := x.st = .loaded ∨ x.st = .halted
    let code := if x.st = .running then codeBusy else if x.st = .faulted then codeFaulted else codeBadParam
    (AcceptedCtx s r w { op := 0x22, needP := true, needC := true, masks := [2 ^ 48 - 1, 2 ^ 16 - 1, 2 ^ 64 - 1] } c →
      let a := fld w.w1 47 0
      let all := w.w2.getLsbD 2
      let tid := fld w.w2 15 3
      let named := all = true ∨ x.clusters.getLsbD (tid / 256) = true
      let bs := toLE 8 w.w3.toNat
      (¬idle → exec (.patch r w) s = .next (t.replyCode r code)) ∧
      (idle → (a % 8 ≠ 0 ∨ fld w.w2 1 0 = 0 ∨ fld w.w2 1 0 = 3) → exec (.patch r w) s = .next (t.replyCode r codeBadParam)) ∧
      (idle → a % 8 = 0 → fld w.w2 1 0 = 1 → (0x30000 ≤ a ∨ ¬named) → exec (.patch r w) s = .next (t.replyCode r codeBadParam)) ∧
      (idle → a % 8 = 0 → fld w.w2 1 0 = 1 → a < 0x30000 → named → exec (.patch r w) s =
        .next ((forAll (if all then x.tids else [tid]) (fun u k =>
          if (u.bank (k / 256) (a / 65536)).serves then u.sramWrite k a bs else u.bankOff c k a 0) t).replyCode r codeOk)) ∧
      (∀ u, idle → a % 8 = 0 → fld w.w2 1 0 = 2 → t.vaWrite (servingDie t.layout c.part) c a bs = (u, none) →
        exec (.patch r w) s = .next (u.replyCode r codeOk)) ∧
      (∀ u va cause, idle → a % 8 = 0 → fld w.w2 1 0 = 2 → t.vaWrite (servingDie t.layout c.part) c a bs = (u, some (va, cause)) →
        exec (.patch r w) s = .next (u.reply r codeBadParam (va % 2 ^ 48 + 2 ^ 48 * cause) 0 0))) ∧
    (AcceptedCtx s r w { op := 0x21, needP := true, needC := true } c →
      (¬idle → exec (.relocate r w) s = .next (t.replyCode r code)) ∧
      (∀ u n va, idle → t.relocateAll c x.relocs = (u, n, some va) → u.relListsOk c = true → exec (.relocate r w) s = .next (u.reply r codeBadParam (va % 2 ^ 48) 0 0)) ∧
      (∀ u n va, idle → t.relocateAll c x.relocs = (u, n, some va) → u.relListsOk c = false → exec (.relocate r w) s = .next (t.reply r codeBadParam (va % 2 ^ 48) 0 0)) ∧
      (∀ u n, idle → t.relocateAll c x.relocs = (u, n, none) → u.relListsOk c = false → exec (.relocate r w) s = .next (t.replyCode r codeBadParam)) ∧
      (∀ u n, idle → t.relocateAll c x.relocs = (u, n, none) → u.relListsOk c = true → exec (.relocate r w) s =
        .next ((u.setCtx c { u.ctx c with unres := n }).reply r codeOk (n % 2 ^ 32) 0 0)))

/-- R73 to R75: START runs a LOADED context that passes its checks; HALT is answered at once where nothing
runs and waits for the superstep's end where the context runs; RESUME runs a HALTED context from the superstep
that it halted at, T_cs being the cycle of its take (log 26); a RUNNING context is BUSY, a FAULTED one FAULTED. -/
def ContextsRun : Prop :=
  ∀ (s : State) (r : RingRef) (w : CmdWords) (c : CtxRef),
    let t := s.take r w
    let x := t.ctx c
    (AcceptedCtx s r w { op := 0x23, needP := true, needC := true } c →
      (x.st = .running → exec (.start r w) s = .next (t.replyCode r codeBusy)) ∧
      (x.st = .faulted → exec (.start r w) s = .next (t.replyCode r codeFaulted)) ∧
      (x.st = .created ∨ x.st = .halted ∨ x.st = .done ∨ (x.st = .loaded ∧ x.hdr = none) → exec (.start r w) s = .next (t.replyCode r codeBadParam)) ∧
      (∀ h u n, x.st = .loaded → x.hdr = some h → t.startCheck c h = (u, some n) → exec (.start r w) s = .next (u.replyCode r n)) ∧
      (∀ h u, x.st = .loaded → x.hdr = some h → t.startCheck c h = (u, none) → exec (.start r w) s = .next ((u.startCtx c h).replyCode r codeOk))) ∧
    (AcceptedCtx s r w { op := 0x24, needP := true } c →
      (x.st = .running → exec (.haltCommand r w) s = .next (t.setCtx c { x with run := { x.run with haltBy := x.run.haltBy ++ [r] } })) ∧
      (x.st = .faulted → exec (.haltCommand r w) s = .next (t.replyCode r codeFaulted)) ∧
      (x.st = .created ∨ x.st = .loaded ∨ x.st = .halted ∨ x.st = .done → exec (.haltCommand r w) s = .next (t.replyCode r codeOk))) ∧
    (AcceptedCtx s r w { op := 0x25, needP := true, needC := true } c →
      (x.st = .running → exec (.resume r w) s = .next (t.replyCode r codeBusy)) ∧
      (x.st = .faulted → exec (.resume r w) s = .next (t.replyCode r codeFaulted)) ∧
      (x.st = .created ∨ x.st = .loaded ∨ x.st = .done → exec (.resume r w) s = .next (t.replyCode r codeBadParam)) ∧
      (x.st = .halted → let now := t.ht.now.toNat
        exec (.resume r w) s = .next (((t.setCtx c { x with st := .running, run := { x.run with tcs := now, wdogAt := now } }).demandCtx c).replyCode r codeOk)))

/-- R74, R78, R84, R281: at START every thread that the header names runs at its entry with its registers 0, every
tile's list is the header's, and the context begins superstep 0 with T_cs = HT. R281: OVF_TOTAL of its scatter
descriptors is 0. -/
def StartBeginsSuperstepZero : Prop :=
  ∀ (s : State) (c : CtxRef) (h : Hdr), c.ok = true → (s.ctx c).tables = [] → (∃ t ∈ (s.ctx c).tids, h.entryAt t 0 ≠ none) →
    let u := s.startCtx c h
    (u.ctx c).st = .running ∧ (u.ctx c).run.ssn = 0 ∧ (u.ctx c).run.phase = .compute ∧ (u.ctx c).run.tcs = s.ht.now.toNat ∧
    (u.ctx c).run.islocal = decide (h.modCount = 1) ∧
    (∀ t ∈ (s.ctx c).tids, (u.tile t).sram = (s.tile t).sram ∧ (u.tile t).arrived = false ∧ (u.tile t).xch.next = h.listAt t ∧
      ∀ n, n < 6 →
        (∀ a, h.entryAt t n = some a → u.thread t n = { pc := BitVec.ofNat 64 a, st := .runnable }) ∧
        (h.entryAt t n = none → u.thread t n = {})) ∧
    (∀ d ∈ diesOf s.layout c.part, ∀ j, (sget ({} : Scat) (s.die d).str.scat j).slot = c.slot →
      (sget ({} : Scat) (u.die d).str.scat j).word 7 = (sget ({} : Scat) (s.die d).str.scat j).word 7 % 2 ^ 32) ∧
    u.hbm = s.hbm ∧ u.hostMem = s.hostMem

/-- R42, R323, R328, R384, R387: DMA_HOST holds its ring while it moves, and nothing moves with PF# low or in
STANDBY; at its end each 32 bytes of the transfer have been copied, in order, to the host or from it; a
translation that fails ends it with the address and cause; a context that has gone answers BAD_PARAM, one that
has faulted FAULTED. When it moves, and how it stops, is log 40. -/
def HostTransfersMove : Prop :=
  (∀ (s : State) (r : RingRef) (w : CmdWords),
    Accepted s r w { op := 0x30, needP := true, needC := true, cxh := true, masks := [2 ^ 64 - 1, 2 ^ 48 - 1, 0x37FFFFFFF] } →
    let t := s.take r w
    let q := dmaCmd w
    let cxh := bits w.w0.toNat 31 16
    let ok := q.haddr % 32 = 0 ∧ q.daddr % 32 = 0 ∧ q.len % 32 = 0 ∧ 32 ≤ q.len ∧ q.len ≤ 2 ^ 30 ∧ (q.phys = true → cxh = 0)
    let named := t.checkCxh r.pf (BitVec.ofNat 16 cxh)
    (q.phys = false → named = none → exec (.dmaHost r w) s = .next (t.replyCode r codeBadParam)) ∧
    (∀ c, q.phys = false → named = some c → (t.ctx c).st = .faulted → exec (.dmaHost r w) s = .next (t.replyCode r codeFaulted)) ∧
    (∀ c, q.phys = true ∨ (named = some c ∧ (t.ctx c).st ≠ .faulted) →
      (¬ok → exec (.dmaHost r w) s = .next (t.replyCode r codeBadParam)) ∧ (ok → exec (.dmaHost r w) s = .next t))) ∧
  (∀ (s : State) (r : RingRef), r.ok = true → s.plat.pf = false ∨ s.plat.pstate = .standby → exec (.dmaHostComplete r) s = .next s) ∧
  (∀ (s : State) (r : RingRef), r.ok = true → s.plat.pf = true → s.plat.pstate ≠ .standby →
    ((s.ring r).cur = none → exec (.dmaHostComplete r) s = .next s) ∧
    ∀ k, (s.ring r).cur = some k →
      let q := dmaCmd k.w
      (k.op ≠ 0x30 → exec (.dmaHostComplete r) s = .next s) ∧
      (k.op = 0x30 → q.phys = false → s.checkCxh r.pf k.cxh = none → exec (.dmaHostComplete r) s = .next (s.replyCode r codeBadParam)) ∧
      (∀ c, k.op = 0x30 → q.phys = false → s.checkCxh r.pf k.cxh = some c → (s.ctx c).st = .faulted →
        exec (.dmaHostComplete r) s = .next (s.replyCode r codeFaulted)) ∧
      (∀ o, k.op = 0x30 → (q.phys = true ∧ o = none) ∨ (q.phys = false ∧ o = s.checkCxh r.pf k.cxh ∧ ∃ c, o = some c ∧ (s.ctx c).st ≠ .faulted) →
        exec (.dmaHostComplete r) s = .next (match s.dmaMove r.pf o q.toHost q.haddr q.daddr (q.len / 32) with
          | (t, none) => t.replyCode r codeOk
          | (t, some (a, cause)) => t.reply r codeBadParam (a % 2 ^ 48 + 2 ^ 48 * cause) 0 0))) ∧
  (∀ (s : State) (p : Nat) (o : Option CtxRef) (h a n : Nat) (ks : List Nat) (t : State), s.dmaPlaces p o true a = (t, .ok ks) →
    s.dmaMove p o false h a (n + 1) = ({ t with hbm := hbmPut t.hbm (ks.zip (mread t.hostMem h 32)) } : State).dmaMove p o false (h + 32) (a + 32) n) ∧
  (∀ (s : State) (p : Nat) (o : Option CtxRef) (h a n : Nat) (ks : List Nat) (t : State), s.dmaPlaces p o false a = (t, .ok ks) →
    s.dmaMove p o true h a (n + 1) = ({ t with hostMem := mwrite t.hostMem h (ks.map (mget t.hbm)) } : State).dmaMove p o true (h + 32) (a + 32) n) ∧
  (∀ (s : State) (p : Nat) (o : Option CtxRef) (toHost : Bool) (h a n : Nat) (e : Nat × Nat) (t : State), s.dmaPlaces p o (!toHost) a = (t, .error e) →
    s.dmaMove p o toHost h a (n + 1) = (t, some e)) ∧
  (∀ (s : State) (p : Nat) (o : Option CtxRef) (toHost : Bool) (h a : Nat), s.dmaMove p o toHost h a 0 = (s, none))

/-- R80, R203, R205: WINDOW_OPEN opens the lowest free window (log 40) over pages that the context may write
and answers its number, and leaves REJECTS; WINDOW_CLOSE closes a window of its function; a frame whose first
word has come keeps the window as it stood. -/
def WindowsOpenAndClose : Prop :=
  (∀ (s u : State) (r : RingRef) (w : CmdWords) (c : CtxRef),
    AcceptedCtx s r w { op := 0x31, needP := true, needC := true, masks := [2 ^ 48 - 1, 2 ^ 48 - 1, 0x1FF03FFFFFFFF] } c →
    let t := s.take r w
    let base := fld w.w1 47 0
    let size := fld w.w2 47 0
    let x := winOf w (t.cxh c)
    let bad := base % 4096 ≠ 0 ∨ size % 4096 ≠ 0 ∨ size = 0 ∨ 2 ^ 48 < base + size ∨
      ∃ o, x.objwin = some o ∧ ∃ e ∈ t.wins, e.2.open_ = true ∧ e.2.lcxh = t.cxh c ∧ e.2.objwin = some o
    (bad → exec (.windowOpen r w) s = .next (t.replyCode r codeBadParam)) ∧
    (¬bad → t.rangesOk c true [(base, size)] = (u, false) → exec (.windowOpen r w) s = .next (u.replyCode r codeBadParam)) ∧
    (¬bad → t.rangesOk c true [(base, size)] = (u, true) → (∀ i, i < 256 → (u.win i).open_ = true) →
      exec (.windowOpen r w) s = .next (u.replyCode r codeNoResource)) ∧
    (∀ i, ¬bad → t.rangesOk c true [(base, size)] = (u, true) → i < 256 → (u.win i).open_ = false → (∀ j, j < i → (u.win j).open_ = true) →
      exec (.windowOpen r w) s = .next ((u.setWin i { x with rejects := (u.win i).rejects }).reply r codeOk i 0 0))) ∧
  (∀ (s : State) (r : RingRef) (w : CmdWords), Accepted s r w { op := 0x32, needP := true, masks := [0xFF] } →
    let t := s.take r w
    let x := t.win (fld w.w1 7 0)
    let mine := x.open_ = true ∧ x.lcxh.toNat / 2 ^ 14 = r.pf
    (mine → ∃ u : State, u = { t with ports := u.ports } ∧ exec (.windowClose r w) s = .next ((u.setWin (fld w.w1 7 0) {}).replyCode r codeOk) ∧
      ∀ p, p < 16 → u.port p = if (t.port p).rx.part = none then t.port p else { t.port p with
        rx := { (t.port p).rx with shut := (t.port p).rx.shut ++ [(fld w.w1 7 0, x)] } }) ∧
    (¬mine → exec (.windowClose r w) s = .next (t.replyCode r codeBadParam)))

/-- R230: FLAG_SET sends a set or a clear to a flag of a LOADED, RUNNING or HALTED context and is answered
with its effect (a dropped one BAD_PARAM, log 24); FLAG_READ answers up to 64 flags from the named one up. -/
def HostFlags : Prop :=
  ∀ (s : State) (r : RingRef) (w : CmdWords) (c : CtxRef),
    let t := s.take r w
    let st := (t.ctx c).st
    let gs := (List.range (fld w.w1 45 40 + 1)).map (cmdFlag w)
    (AcceptedCtx s r w { op := 0x40, needP := true, masks := [0x11FFF7FFF] } c →
      (st = .faulted → exec (.flagSet r w) s = .next (t.replyCode r codeFaulted)) ∧
      (st = .created ∨ st = .done → exec (.flagSet r w) s = .next (t.replyCode r codeBadParam)) ∧
      (st = .loaded ∨ st = .running ∨ st = .halted →
        (t.hostFlag c (cmdFlag w 0) = false → exec (.flagSet r w) s = .next (t.replyCode r codeBadParam)) ∧
        (t.hostFlag c (cmdFlag w 0) = true → ∃ q : FlagReq, q.g = cmdFlag w 0 ∧ q.kind = (if w.w1.getLsbD 32 then .set else .clear) ∧
          q.cxh = t.cxh c ∧ q.arrived = false ∧ q.owner = some r ∧ exec (.flagSet r w) s = .next { t with freqs := t.freqs ++ [q] }))) ∧
    (AcceptedCtx s r w { op := 0x41, needP := true, masks := [0x3F001FFF7FFF] } c →
      ((∃ g ∈ gs, t.hostFlag c g = false) → exec (.flagRead r w) s = .next (t.replyCode r codeBadParam)) ∧
      ((∀ g ∈ gs, t.hostFlag c g = true) → ∃ v, exec (.flagRead r w) s = .next (t.reply r codeOk v 0 0) ∧
        ∀ n, n ≤ fld w.w1 45 40 → v.testBit n = t.flag (cmdFlag w n)))

/-- R36, R179, R366: SCRATCH_SAMPLE of a context that stands still is taken where its dies allow dumps and
none is in progress, and answered when it is complete: a die whose region passes its checks keeps the sample's
handle, place and length with V = 1, and one whose region does not sets ERR, writes nothing, keeps the rest of
its registers (log 60) and makes the answer BAD_PARAM; with PF# low or in STANDBY no sample ends (R44, R384). -/
def SamplesAreTaken : Prop :=
  (∀ (s : State) (r : RingRef) (w : CmdWords) (c : CtxRef), AcceptedCtx s r w { op := 0x42, needP := true, masks := [2 ^ 23 - 1] } c →
    let t := s.take r w
    let x := t.ctx c
    let off := bits w.w1.toNat 17 0
    let len := 32 * (bits w.w1.toNat 22 18 + 1)
    let still := x.st = .halted ∨ x.st = .done ∨ x.st = .faulted
    (x.st = .running → exec (.scratchSample r w) s = .next (t.replyCode r codeBusy)) ∧
    (x.st = .created ∨ x.st = .loaded → exec (.scratchSample r w) s = .next (t.replyCode r codeBadParam)) ∧
    (still → (off % 32 ≠ 0 ∨ 0x30000 < off + len) → exec (.scratchSample r w) s = .next (t.replyCode r codeBadParam)) ∧
    (still → off % 32 = 0 → off + len ≤ 0x30000 →
      ((∃ d ∈ x.dies, (t.die d).rst.dumpEn = false) → exec (.scratchSample r w) s = .next (t.replyCode r codeNoResource)) ∧
      ((∀ d ∈ x.dies, (t.die d).rst.dumpEn = true) → (x.sampleBy ≠ none ∨ ∃ d ∈ x.dies, (t.die d).rst.dumpV = true) →
        exec (.scratchSample r w) s = .next (t.replyCode r codeBusy)) ∧
      ((∀ d ∈ x.dies, (t.die d).rst.dumpEn = true ∧ (t.die d).rst.dumpV = false) → x.sampleBy = none →
        exec (.scratchSample r w) s = .next (t.setCtx c { x with sampleBy := some (some r, w.w1.toNat) })))) ∧
  (∀ (s : State) (c : CtxRef), c.ok = true →
    ((s.ctx c).sampleBy = none ∨ s.plat.pf = false ∨ s.plat.pstate = .standby → exec (.sampleComplete c) s = .next s) ∧
    ((s.ctx c).sampleBy ≠ none → s.plat.pf = true → s.plat.pstate ≠ .standby → exec (.sampleComplete c) s = .next (s.finishSample c) ∧ ((s.finishSample c).ctx c).sampleBy = none)) ∧
  (∀ (s : State) (c : CtxRef) (d off len : Nat) (auto : Bool), d < 4 →
    let x := s.die d
    let ok := paRangeOk s.layout (partOfDie s.layout d) x.rst.dumpPa (2 ^ 21)
    let t := s.sampleDie c d off len auto
    (ok = false → t.hbm = s.hbm ∧ t.die d = { x with rst := { x.rst with dumpInfo := putBit x.rst.dumpInfo 40 true } }) ∧
    (ok = true → (t.die d).rst.dumpInfo.getLsbD 63 = true ∧ (t.die d).rst.dumpInfo.getLsbD 40 = x.rst.dumpInfo.getLsbD 40 ∧
      (t.die d).rst.dumpSsn = (s.ctx c).run.ssn ∧ t.ctxs = s.ctxs ∧ t.tiles = s.tiles) ∧
    (∀ e, e < 4 → e ≠ d → t.die e = s.die e))

/-! ### Log and event commands -/

/-- R352, R353: EVENT_READ copies up to N records that the function sees, from the LSEQ asked for or the
function's cursor or the oldest held, and answers the LSEQ after the last one examined, the count, whether
records are gone and the oldest; EVENT_ACK moves the cursor behind an LSEQ that exists, and never back. -/
def EventsAreReadAndAcknowledged : Prop :=
  ∀ (s : State) (r : RingRef) (w : CmdWords),
    let t := s.take r w
    (Accepted s r w { op := 0x50, masks := [2 ^ 64 - 1, 2 ^ 49 - 1, 2 ^ 13 - 1] } →
      let a := w.w1.toNat
      let n := fld w.w3 12 0
      let old := t.log.oldest.toNat
      let want := if w.w2.getLsbD 48 then (t.fn r.pf).cursor.toNat else fld w.w2 47 0
      let start := max want old
      let q := copyRecs r.pf n start (t.log.recs.filter (fun x => start ≤ x.lseq.toNat))
      (a % 32 ≠ 0 ∨ n = 0 ∨ 4096 < n → exec (.eventRead r w) s = .next (t.replyCode r codeBadParam)) ∧
      (a % 32 = 0 → n ≠ 0 → n ≤ 4096 → exec (.eventRead r w) s =
        .next (({ t with hostMem := mwrite t.hostMem a (q.1.flatMap LogRec.bytes) } : State).reply r codeOk (q.2 % 2 ^ 48)
          (q.1.length + 2 ^ 16 * (if want < old then 1 else 0)) old))) ∧
    (Accepted s r w { op := 0x51, masks := [2 ^ 48 - 1] } →
      let upto := fld w.w1 47 0
      let x := t.fn r.pf
      (t.log.next.toNat ≤ upto → exec (.eventAck r w) s = .next (t.replyCode r codeBadParam)) ∧
      (upto < t.log.next.toNat → upto < x.cursor.toNat → exec (.eventAck r w) s = .next (t.replyCode r codeOk)) ∧
      (upto < t.log.next.toNat → x.cursor.toNat ≤ upto → exec (.eventAck r w) s =
        .next ((t.setFn r.pf { x with cursor := BitVec.ofNat 48 (upto + 1) }).replyCode r codeOk)))

/-- R352: the records copied are the first N of the list that the function sees, in order; the LSEQ answered
is behind the last of them or of the list. -/
def RecordsAreCopiedInOrder : Prop :=
  ∀ (pf n nx : Nat) (xs : List LogRec),
    (copyRecs pf n nx xs).1 = (xs.filter (fun x => pf = 0 || x.mscope || decide (x.part = pf))).take n ∧
    ((xs.filter (fun x => pf = 0 || x.mscope || decide (x.part = pf))).length < n → ∀ x, xs.getLast? = some x → (copyRecs pf n nx xs).2 = x.lseq.toNat + 1) ∧
    ∀ x : LogRec, (LogRec.bytes x).length = 32

/-! ### Power mode, banks, life cycle, locks, firmware -/

/-- R359: POWER_MODE of the mode in force is OK; a change under way makes it BUSY, whatever it asks (log 41);
else it orders the mode of the clusters that run nothing at once, and the module's changes once every cluster
has changed, K staying at or above the mode's floor. -/
def PowerModeChanges : Prop :=
  (∀ (s : State) (r : RingRef) (w : CmdWords), Accepted s r w { op := 0x60, pf0 := true, needC := true, masks := [1], lock := some 4 } →
    let t := s.take r w
    let env := w.w1.getLsbD 0
    let u : State := { t with plat := { t.plat with change := some { envelope := env, owner := some r, since := t.ht.now.toNat } } }
    (t.plat.change ≠ none → exec (.powerMode r w) s = .next (t.replyCode r codeBusy)) ∧
    (t.plat.change = none → t.plat.envelope = env → exec (.powerMode r w) s = .next (t.replyCode r codeOk)) ∧
    (t.plat.change = none → t.plat.envelope ≠ env → exec (.powerMode r w) s =
      .next (forAll ((List.range 32).filter (fun i => !u.runsOn i)) State.followMode u))) ∧
  (∀ s : State, (s.plat.change = none → exec .powerModeComplete s = .next s) ∧
    ∀ q, s.plat.change = some q →
      let t := forAll ((List.range 32).filter (fun i => !s.runsOn i)) State.followMode s
      let done := ∀ i, i < 32 → (t.cluster i).envelope = q.envelope
      let u : State := { t with plat := { t.plat with envelope := q.envelope, change := none } }
      (s.controlRuns = false → exec .powerModeComplete s = .next s) ∧
      (s.controlRuns = true → ¬done → exec .powerModeComplete s = .next t) ∧
      (s.controlRuns = true → done → exec .powerModeComplete s =
        .next ((u.setK (max u.plat.k (if q.envelope then 12 else 10))).replyTo q.owner codeOk 0 0 0)))

/-- R200 to R202: BANK_POWER of a group in its partition answers at once where the group is in the state asked
for, OK (log 41), and BUSY while it changes; a group goes OFF in the first cycle without a write in flight,
unless a write was in flight past the limit, which makes it ON again with TIMEOUT: past the limit one of the
two ends always stands; a group is ON with all its banks zero after power-on. -/
def BankGroupsSwitch : Prop :=
  (∀ (s : State) (r : RingRef) (w : CmdWords), Accepted s r w { op := 0x61, needP := true, needC := true, masks := [0x7F] } →
    let t := s.take r w
    let cid := fld w.w1 4 0
    let g := if w.w1.getLsbD 5 then 2 else 1
    let st := (t.bank cid g).st
    let mine := partOfDie t.layout (cid / 8) = r.pf ∧ t.fuses.dis.getLsbD cid = false
    let go := fun (x : BankSt) => t.setBank cid g { st := x, t0 := t.ht.now.toNat, owner := some r }
    (¬mine → exec (.bankPower r w) s = .next (t.replyCode r codeBadParam)) ∧
    (mine → (st = .goingOff ∨ st = .goingOn) → exec (.bankPower r w) s = .next (t.replyCode r codeBusy)) ∧
    (mine → (st = .on ∧ w.w1.getLsbD 6 = true ∨ st = .off ∧ w.w1.getLsbD 6 = false) → exec (.bankPower r w) s = .next (t.replyCode r codeOk)) ∧
    (mine → st = .on → w.w1.getLsbD 6 = false → exec (.bankPower r w) s = .next (go .goingOff)) ∧
    (mine → st = .off → w.w1.getLsbD 6 = true → exec (.bankPower r w) s = .next (go .goingOn))) ∧
  (∀ (s : State) (cid g : Nat), cid < 32 → g = 1 ∨ g = 2 →
    let b := s.bank cid g
    let now := s.ht.now.toNat
    let awake := s.plat.pstate ≠ .standby
    let idle := b.st = .goingOff ∧ s.inFlight cid g = 0 ∧ b.late = false ∧ awake
    let late := b.st = .goingOff ∧ (b.late = true ∨ s.inFlight cid g ≠ 0) ∧ b.t0 + 10000 < now ∧ awake
    (idle → exec (.bankOffComplete cid g) s = .next ((s.setBank cid g { st := .off, t0 := now }).replyTo b.owner codeOk 0 0 0)) ∧
    (¬idle → exec (.bankOffComplete cid g) s = .next s) ∧
    (late → exec (.bankOffTimeout cid g) s = .next ((s.setBank cid g {}).replyTo b.owner codeTimeout 0 0 0)) ∧
    (¬late → exec (.bankOffTimeout cid g) s = .next s) ∧
    (b.st = .goingOff → awake → b.t0 + 10000 < now → (idle ∧ ¬late) ∨ (late ∧ ¬idle)) ∧
    (∃ y, (if g = 1 then (s.banksLate.cluster cid).g1 else (s.banksLate.cluster cid).g2) = { b with late := y } ∧
      ((∃ e ∈ s.clusters, e.1 = cid) → (y = true ↔ b.late = true ∨ (b.st = .goingOff ∧ b.t0 + 10000 ≤ now ∧ s.inFlight cid g ≠ 0)))) ∧
    (b.st = .goingOn → awake → exec (.bankOnComplete cid g) s = .next (((s.zeroGroup cid g).setBank cid g {}).replyTo b.owner codeOk 0 0 0)) ∧
    (b.st ≠ .goingOn ∨ ¬awake → exec (.bankOnComplete cid g) s = .next s))

/-- R379 to R381: LIFECYCLE takes only the listed transitions, with no context, through an L3; LOCK sets bits
and clears none, and a change raises LOCK_CHANGE, once (log 42). -/
def LifeCycleAndLocks : Prop :=
  ∀ (s : State) (r : RingRef) (w : CmdWords),
    let t := s.take r w
    (Accepted s r w { op := 0x70, pf0 := true, masks := [3], lock := some 1 } →
      let a := t.fuses.lcs.toNat
      let b := fld w.w1 1 0
      let may := (a = 0 ∧ b = 1) ∨ (a = 1 ∧ b = 2) ∨ (a = 1 ∧ b = 3) ∨ (a = 2 ∧ b = 3)
      (¬may → exec (.lifecycle r w) s = .next (t.replyCode r codeBadParam)) ∧
      (may → (∃ c ∈ allCtx, (t.ctx c).st ≠ .free) → exec (.lifecycle r w) s = .next (t.replyCode r codeBusy)) ∧
      (may → (∀ c ∈ allCtx, (t.ctx c).st = .free) → exec (.lifecycle r w) s = .next (t.startL3 (some r) [] (some (BitVec.ofNat 2 b)) false))) ∧
    (Accepted s r w { op := 0x71, pf0 := true, masks := [0x1FF] } →
      let v : BitVec 9 := BitVec.ofNat 9 (fld w.w1 8 0)
      let u : State := { t with plat := { t.plat with lock := t.plat.lock ||| v } }
      (t.plat.lock ||| v = t.plat.lock → exec (.lock r w) s = .next (t.replyCode r codeOk)) ∧
      (t.plat.lock ||| v ≠ t.plat.lock → exec (.lock r w) s = .next ((u.raise 0 evLockChange noInfo).replyCode r codeOk)))

/-- R303: LINK_CONTROL writes the control register of a port of the function's partition: with EN = 0 the port
is DOWN for cause 5, else it may try. -/
def LinksAreControlled : Prop :=
  ∀ (s : State) (r : RingRef) (w : CmdWords), Accepted s r w { op := 0x81, needP := true, needC := true, masks := [0xFF] } →
    let t := s.take r w
    let p := fld w.w1 3 0
    let v := fld w.w1 6 4
    let u := t.setPort p { t.port p with link := { (t.port p).link with ctl := BitVec.ofNat 32 v } }
    (partOfDie t.layout (p / 4) ≠ r.pf → exec (.linkControl r w) s = .next (t.replyCode r codeBadParam)) ∧
    (partOfDie t.layout (p / 4) = r.pf → v % 2 = 0 → exec (.linkControl r w) s = .next ((u.portDown p 5).replyCode r codeOk)) ∧
    (partOfDie t.layout (p / 4) = r.pf → v % 2 = 1 → exec (.linkControl r w) s = .next ((u.portTry p (w.w1.getLsbD 7)).replyCode r codeOk))

/-- R44, R355, R382: FW_UPDATE takes an aligned image of whole 4 KiB up to 16 MiB (checked first, log 42), one
at a time, and makes the header of the image that does not run invalid; its end writes the header where the
image passes its checks, as one that has not run yet, and answers the version; a flash failure is TIMEOUT, a
failed check BAD_PARAM; in STANDBY it waits. -/
def FirmwareUpdates : Prop :=
  (∀ (s : State) (r : RingRef) (w : CmdWords), Accepted s r w { op := 0xF0, pf0 := true, masks := [2 ^ 64 - 1, 0xFFFFFFFF], lock := some 0 } →
    let t := s.take r w
    let len := fld w.w2 31 0
    let ok := w.w1.toNat % 8 = 0 ∧ len % 4096 = 0 ∧ 4096 ≤ len ∧ len ≤ 2 ^ 24
    (¬ok → exec (.fwUpdate r w) s = .next (t.replyCode r codeBadParam)) ∧
    (ok → t.plat.fwBy ≠ none → exec (.fwUpdate r w) s = .next (t.replyCode r codeBusy)) ∧
    (ok → t.plat.fwBy = none → exec (.fwUpdate r w) s = .next { t with plat := { t.plat.invalidate t.fwTarget with
      fwBy := some (some r, t.fwTarget, mread t.hostMem w.w1.toNat len) } }) ∧
    (t.plat.recovery = false → t.fwTarget = !t.plat.fwB)) ∧
  (∀ (s : State) (fail : Bool), (s.plat.fwBy = none → exec (.fwUpdateComplete fail) s = .next s) ∧
    ∀ o b bs, s.plat.fwBy = some (o, b, bs) →
      let t : State := { s with plat := { s.plat with fwBy := none } }
      let good := Config.fwCrcOk bs = true ∧ (s.fuses.lcs = 0 ∨ Config.fwSigOk bs = true)
      let img : FwImage := { valid := true, version := Config.fwVersion bs, signed := Config.fwSigOk bs, fresh := true }
      let on := s.plat.powered = true ∧ s.plat.pf = true ∧ s.plat.pstate ≠ .standby
      (¬on → exec (.fwUpdateComplete fail) s = .next s) ∧
      (on → fail = true → exec (.fwUpdateComplete fail) s = .next (t.replyTo o codeTimeout 0 0 0)) ∧
      (on → fail = false → ¬good → exec (.fwUpdateComplete fail) s = .next (t.replyTo o codeBadParam 0 0 0)) ∧
      (on → fail = false → good → exec (.fwUpdateComplete fail) s =
        .next (({ t with plat := t.plat.setImg b img } : State).replyTo o codeOk
          ((Config.fwVersion bs).toNat + 2 ^ 32 * (if b then 1 else 0)) 0 0)))

/-- R314, R375: a Function Level Reset ends the commands of its function without a reply: its rings, vectors
and BAR2 registers are at reset, its cursor stays (log 43); its contexts are torn down one at a time, also beside a
CTX_TEARDOWN under way (R375), the lowest slot first (log 43), each waiting for its turn, and a context reset
under way becomes a teardown; the other functions' registers and contexts stay. In STANDBY (R44) the teardowns and
the transfers by physical address wait for the wake. -/
def FunctionLevelResets : Prop :=
  ∀ (s : State) (f : Nat), f < 4 →
    let live := fun (c : CtxRef) => (s.ctx c).st ≠ .free ∧ (s.ctx c).st ≠ .tearing
    let asleep := s.plat.pstate = .standby
    (∀ k, k < 8 → (s.ctx ⟨f, k⟩).st = .free → (s.ctx ⟨f, k⟩).flr = false) →
    (s.hostUp = false → exec (.functionLevelReset f) s = .next s) ∧
    (s.hostUp = true → Yields (exec (.functionLevelReset f) s) (fun t =>
      (t.fn f).rings = [] ∧ (t.fn f).vecs = [] ∧ (t.fn f).ringErr = 0 ∧ (t.fn f).flrs = satAdd (s.fn f).flrs 1 ∧ (t.fn f).taken = (s.fn f).taken ∧
      (t.fn f).cursor = (s.fn f).cursor ∧
      (∀ i, i < 8 → let c : CtxRef := ⟨f, i⟩
        ((s.ctx c).st = .free → (t.ctx c).st = .free) ∧
        ((s.ctx c).st = .tearing → (t.ctx c).st = .tearing ∧ ∀ td, (s.ctx c).td = some td →
          ∃ u, (t.ctx c).td = some u ∧ u.kind = if td.kind = .reset then .flr else td.kind) ∧
        (live c → ((t.ctx c).st = .tearing ∧ t.checkCxh f (s.cxh c) = none) ∨ ((t.ctx c).st = (s.ctx c).st ∧ (t.ctx c).flr = true)) ∧
        (live c → (∃ k td, k < 8 ∧ (s.ctx ⟨f, k⟩).td = some td ∧ (td.kind = .teardown ∨ td.kind = .flr ∨ (td.kind = .reset ∧ (s.ctx ⟨f, k⟩).st = .tearing))) → (∀ k, k < 8 → live ⟨f, k⟩ → (s.ctx ⟨f, k⟩).td = none) → (t.ctx c).st = (s.ctx c).st ∧ (t.ctx c).flr = true) ∧
        (asleep → live c → (t.ctx c).st = (s.ctx c).st ∧ (t.ctx c).flr = true) ∧
        (live c → ¬asleep → (∀ k, k < 8 → live ⟨f, k⟩ → (s.ctx ⟨f, k⟩).td = none) → (∀ k, k < 8 → ∀ td, (s.ctx ⟨f, k⟩).td = some td → td.kind = .level2) → (∀ k, k < 8 → (s.ctx ⟨f, k⟩).flr = false) →
          (∀ k, k < i → ¬live ⟨f, k⟩) → (t.ctx c).st = .tearing ∧ (t.ctx c).td = some { kind := .flr, owner := none })) ∧
      (asleep → t.hbm = s.hbm ∧ t.hostMem = s.hostMem ∧ (t.fn f).orphans = (s.fn f).orphans ++ s.physCmds f) ∧
      (∀ i k, i < 4 → i ≠ f → k < 8 → (t.ctx ⟨i, k⟩).epoch = (s.ctx ⟨i, k⟩).epoch ∧ (t.ctx ⟨i, k⟩).clusters = (s.ctx ⟨i, k⟩).clusters)))

/-! ### Registers -/

/-- R17, R48, R49: an aligned read of 32 or 64 bits of BAR0 or BAR2 gives the register's bytes; a 32-bit read
of the low word of a 64-bit register latches its high word, and the next 32-bit read of that high word comes
from the latch (log 44); outside the function's dies BAR0 reads 0; a read that is unaligned, of another size,
beyond the BAR or of a function in D3hot is unsupported, and an access takes the link out of L1 (log 44,
PRESUMED; log 47). -/
def RegistersAreRead : Prop :=
  ∀ (s : State) (f bar off size : Nat), f < 4 → bar = 0 ∨ bar = 2 →
    let x := s.fn f
    let w := s.rdBar f bar (off / 8 * 8)
    let u : State := s.setL1 false
    let key := (if bar = 0 then 0 else 2 ^ 26) + off
    let good := x.d3 = false ∧ off < (if bar = 0 then 2 ^ 26 else 2 ^ 24) ∧ ((size = 4 ∧ off % 4 = 0) ∨ (size = 8 ∧ off % 8 = 0))
    let run := exec (.bar0LowWordRead f ⟨bar, off, size⟩) s
    let go := fun (y : Fn) (v : W32) => run = .next ((u.setFn f y).emit (.data32 f bar off v))
    (s.hostUp = false → run = .next s) ∧
    (s.hostUp = true → ¬good → run = .next (u.emit (.unsupported f off))) ∧
    (s.hostUp = true → good → size = 8 → run = .next (u.emit (.data64 f bar off (BitVec.ofNat 64 w.2)))) ∧
    (s.hostUp = true → good → size = 4 → off % 8 = 0 →
      (w.1 = false → go x (BitVec.ofNat 32 w.2)) ∧
      (w.1 = true → go { x with his := sput x.his (key + 4) (BitVec.ofNat 32 (w.2 / 2 ^ 32)) } (BitVec.ofNat 32 w.2))) ∧
    (s.hostUp = true → good → size = 4 → off % 8 = 4 →
      ((∃ v, (key, v) ∈ x.his) → go { x with his := sdrop (fun i => i = key) x.his } (sget 0 x.his key)) ∧
      ((∀ v, (key, v) ∉ x.his) → go x (BitVec.ofNat 32 (w.2 / 2 ^ 32)))) ∧
    (bar = 0 → s.sees f (off / 2 ^ 24) = false → w.2 = 0) ∧
    (∀ d o, d < 4 → o < 2 ^ 24 → s.sees f d = true → s.rdBar f 0 (2 ^ 24 * d + o) = s.rdDie d o)

/-- The sum of values at bit places. -/
def packed (xs : List (Nat × Nat)) : Nat := (xs.map (fun e => 2 ^ e.1 * e.2)).sum

/-- Eight bytes of two 32-bit registers, and of one 64-bit register. -/
def pair32 (lo hi : Nat) : Bool × Nat := (false, lo % 2 ^ 32 + 2 ^ 32 * (hi % 2 ^ 32))
def whole64 (v : Nat) : Bool × Nat := (true, v % 2 ^ 64)

/-- R62, R64, R113, R147, R161, R165, R265: what the blocks HTM, XCH, CLV and TIL of a die's space read as. -/
def TimeExchangeAndCloverRead : Prop :=
  ∀ (s : State) (d : Nat), d < 4 →
    let rd := fun (blk off : Nat) => s.rdDie d (2 ^ 16 * blk + off)
    let b := Bool.toNat
    let h := s.ht
    rd 0 0 = whole64 h.now.toNat ∧
    (d = 0 → rd 0 0x8 = pair32 (packed [(0, match h.st with | .free => 0 | .acquire => 1 | .locked => 2 | .holdover => 3), (2, b h.master),
        (3, h.depth.toNat), (7, h.parent.toNat), (11, b h.parentV), (12, b h.unlock), (16, h.mhdid.toNat)]) (packed [(0, h.bound.toNat), (16, h.offset.toNat)]) ∧
      rd 0 0x10 = whole64 h.pps.toNat ∧ rd 0 0x18 = whole64 h.todoff.toNat ∧
      ∀ p, p < 16 → let y := (s.port p).ht
        rd 0 (0x100 + 8 * p) = whole64 (packed [(0, y.delay.toNat), (16, b y.valid), (17, b (s.upLink p)), (18, b y.slow), (19, y.pdepth.toNat),
          (32, y.phdid.toNat), (48, y.symErr.toNat)])) ∧
    (∀ off, d ≠ 0 → 0 < off → off < 0x10000 → rd 0 off = (false, 0)) ∧
    (∀ k i, k < 4 → i < 1024 → rd 1 (0x2000 * k + 8 * i) = whole64 (sget 0 (s.port (4 * d + k)).xch.ram i).toNat) ∧
    (∀ i, i < 1024 → rd 1 (0xC000 + 8 * i) = pair32 (sget 0 (s.die d).budget (2 * i)).toNat (sget 0 (s.die d).budget (2 * i + 1)).toNat) ∧
    (∀ c, c < 8 → let x := s.ctx ⟨partOfDie s.layout d, c⟩
      let y := s.ss d c
      let at_ := fun (o : Nat) => rd 1 (0xE000 + 0x40 * c + o)
      at_ 0 = pair32 (packed [(0, b x.strict), (1, b y.missAct), (2, b (x.hdr.any (fun h => h.modCount = 1))), (3, b (x.st = .running))]) x.run.ssn.toNat ∧
      at_ 0x8 = whole64 x.run.tbc.toNat ∧ at_ 0x10 = whole64 x.run.xstart.toNat ∧ at_ 0x18 = whole64 y.stretch.toNat ∧
      at_ 0x20 = pair32 y.nstretch.toNat y.nmiss.toNat ∧ at_ 0x28 = pair32 y.missInfo.toNat y.missSsn.toNat ∧
      at_ 0x30 = pair32 y.missOver.toNat y.allow.toNat) ∧
    rd 1 0xF000 = whole64 (s.die d).xerr0.toNat ∧ rd 1 0xF008 = whole64 (s.die d).xerr1.toNat ∧
    (∀ i, i < 8 → let cid := 8 * d + i
      let x := s.cluster cid
      let at_ := fun (o : Nat) => rd 2 (0x100 * i + o)
      (s.enabled cid = false → ∀ o, o < 0x100 → at_ o = (false, 0)) ∧
      (s.enabled cid = true → at_ 0x10 = pair32 (packed [(0, x.sbUsed), (8, x.sbPeak.toNat)]) 0 ∧ at_ 0x18 = whole64 x.err.toNat ∧
        at_ 0x20 = whole64 x.cycReg.toNat ∧ (∀ e, e < 3 → at_ (0x28 + 8 * e) = whole64 (x.settle (x.engine e)).steps.toNat) ∧
        (∀ k, k < 256 → rd 2 (0x8000 + 0x800 * i + 8 * k) = pair32 (sget 0 x.scale (2 * k)).toNat (sget 0 x.scale (2 * k + 1)).toNat) ∧
        ∀ n, n < 512 → (rd 2 (0xC000 + 0x40 * i + 8 * (n / 64))).2.testBit (n % 64) = x.ovf.getLsbD n)) ∧
    (∀ i, i < 2048 → let x := s.tile (2048 * d + i)
      (s.enabled (8 * d + i / 256) = false → rd 3 (8 * i) = (true, 0)) ∧
      (s.enabled (8 * d + i / 256) = true → rd 3 (8 * i) = whole64 (
        ((List.range 6).map (fun n => 4 ^ n * (match (x.thread n).st with | .halted => 0 | .runnable => 1 | .blocked => 2 | .trapped => 3))).sum
        + 2 ^ 12 * b x.fenced + ((List.range 8).map (fun q => 2 ^ (16 + q) * b (!(sget ({} : Queue) x.queues q).reqs.isEmpty))).sum
        + packed [(32, x.trapPc.toNat), (50, x.trapThr.toNat), (53, b x.trapV)]))) ∧
    rd 3 0x8000 = whole64 (s.die d).replay.toNat

/-- R176, R181, R195, R199, R202, R205, R208, R221, R231, R281: what the blocks STR, CHK, FLG and NUM read as. -/
def MemoryFlagsAndWatchRead : Prop :=
  ∀ (s : State) (d : Nat), d < 4 →
    let rd := fun (blk off : Nat) => s.rdDie d (2 ^ 16 * blk + off)
    let b := Bool.toNat
    let x := (s.die d).str
    let g := (s.die d).flg
    (∀ c, c < 8 → rd 4 (8 * c) = whole64 (sget 0 x.root c).toNat) ∧
    rd 4 0x40 = pair32 (2 ^ 31 * b x.inval.isSome) 0 ∧
    (∀ n, n < 32 → let y := s.frec d n
      rd 4 (0x1000 + 0x20 * n) = whole64 y.fva.toNat ∧ rd 4 (0x1008 + 0x20 * n) = whole64 y.fsrc.toNat ∧ rd 4 (0x1010 + 0x20 * n) = whole64 y.fcur.toNat) ∧
    (∀ n, d = 0 → n < 256 → let y := s.win n
      let at_ := fun (o : Nat) => rd 4 (0x8000 + 0x20 * n + o)
      at_ 0 = whole64 y.base ∧ at_ 8 = whole64 y.size ∧ at_ 0x18 = pair32 y.rejects.toNat 0 ∧
      at_ 0x10 = whole64 (packed [(0, y.hdid.toNat), (16, y.rcxh.toNat), (32, y.lcxh.toNat), (48, b y.w), (49, b y.red), (63, b y.open_)])) ∧
    (∀ n, n < 256 → let y := s.link d n
      rd 4 (0xC000 + 0x10 * n) = pair32 y.cfg.toNat y.pcount.toNat ∧ rd 4 (0xC008 + 0x10 * n) = pair32 y.ccount.toNat 0) ∧
    (∀ n i, n < 16 → i < 8 → rd 4 (0xD000 + 0x40 * n + 8 * i) = (decide (i ≠ 0 ∧ i ≠ 7), (sget ({} : Scat) x.scat n).word i)) ∧
    (∀ k, k < 4 →
      let code := fun (i g : Nat) => match (s.bank i g).st with | .on => 0 | .goingOff => 1 | .off => 2 | .goingOn => 3
      let bank := fun (i : Nat) => packed [(0, code i 1), (2, code i 2), (4, min 255 (s.inFlight i 1)), (12, min 255 (s.inFlight i 2))]
      rd 4 (0xF000 + 8 * k) = pair32 (bank (8 * d + 2 * k)) (bank (8 * d + 2 * k + 1))) ∧
    (∀ u, u < 64 → let y := s.chk d u
      rd 5 (0x20 * u) = pair32 y.ctl.toNat (packed [(0, b (s.chkBusy d u)), (1, b (y.stat.getLsbD 1))]) ∧ rd 5 (0x20 * u + 8) = whole64 y.acc.toNat ∧
      rd 5 (0x20 * u + 0x10) = whole64 y.exp.toNat ∧ rd 5 (0x20 * u + 0x18) = whole64 y.bytes.toNat) ∧
    (∀ n, n < 4096 → (rd 6 (8 * (n / 64))).2.testBit (n % 64) = sget false g.gf n) ∧
    (∀ n, n < 4096 → let o := sget 0 g.gfOwn n
      bits (rd 6 (0x1000 + 8 * (n / 16))).2 (4 * (n % 16) + 3) (4 * (n % 16)) = if o = 0 then 0 else (o - 1) % 8 + 8) ∧
    rd 6 0x2000 = whole64 g.misuse.toNat ∧ (∀ c, c < 8 → rd 6 (0x2100 + 8 * c) = whole64 (sget 0 g.left c).toNat) ∧
    (∀ i, i < 2048 → s.enabled (8 * d + i / 256) = true → let y := s.tile (2048 * d + i)
      rd 6 (0x4000 + 8 * i) = whole64 y.flags.toNat ∧
      rd 6 (0x8000 + 8 * i) = whole64 (packed [(0, y.storeUsed), (6, y.heldMsgs), (32, y.drops.toNat)])) ∧
    (∀ i, i < 6 → rd 6 (0xC000 + 8 * i) = whole64 (sget 0 g.msgCnt i).toNat) ∧
    (∀ n, n < 256 → let y := sget ({} : Watch) (s.die d).watch n
      let at_ := fun (o : Nat) => rd 7 (0x40 * n + o)
      at_ 0 = pair32 y.cfg.toNat y.own.toNat ∧ at_ 8 = whole64 y.elems.toNat ∧ at_ 0x10 = whole64 y.zeros.toNat ∧ at_ 0x18 = whole64 y.sats.toNat ∧
      at_ 0x20 = whole64 y.nonfin.toNat ∧ at_ 0x28 = pair32 y.step.toNat y.stat.toNat ∧ at_ 0x30 = pair32 y.firstBad.toNat 0) ∧
    (∀ k, k < 4 → rd 7 (0x8000 + 8 * k) = pair32 (sget 0x103E8 (s.die d).dsCtl (2 * k)).toNat (sget 0x103E8 (s.die d).dsCtl (2 * k + 1)).toNat)

/-- R34, R266, R275, R279, R280, R303, R316, R342, R348, R389 to R391: what the blocks ULK, THS, EVC, RST, LCS, LOCK,
FUS and HST read as. -/
def LinksEventsAndResetRead : Prop :=
  ∀ (s : State) (d : Nat), d < 4 →
    let rd := fun (blk off : Nat) => s.rdDie d (2 ^ 16 * blk + off)
    let b := Bool.toNat
    let e := (s.die d).evc
    let r := (s.die d).rst
    (∀ k, k < 4 → let y := (s.port (4 * d + k)).link
      let z := (s.port (4 * d + k)).xch
      let at_ := fun (o : Nat) => rd 8 (0x100 * k + o)
      at_ 0 = pair32 y.ctl.toNat (packed [(0, match y.st with | .down => 0 | .detect => 1 | .train => 2 | .align => 3 | .up => 4 | .degraded => 5),
        (3, b y.lanes4), (4, b y.upper), (5, y.laneOk.toNat), (13, y.cause.toNat)]) ∧
      at_ 8 = pair32 (packed [(0, y.asym.toNat), (16, y.skew.toNat)]) 0 ∧ at_ 0x10 = whole64 y.fecCor.toNat ∧ at_ 0x18 = whole64 y.fecUnc.toNat ∧
      at_ 0x20 = pair32 y.crcErr.toNat y.retry.toNat ∧ at_ 0x28 = pair32 y.drop.toNat y.blkErr.toNat ∧ at_ 0x30 = pair32 y.downCnt.toNat 0 ∧
      (∀ n, n < 64 → let c := sget ({} : Chan) z.chans n
        rd 8 (0x8000 + 0x400 * k + 0x10 * n) = pair32 (packed [(0, match c.st with | .idle => 0 | .armed => 1 | .wait => 2 | .done => 3 | .fault => 4),
          (16, c.bkUsed.toNat)]) c.late.toNat ∧ rd 8 (0x8008 + 0x400 * k + 0x10 * n) = pair32 c.ssn.toNat 0) ∧
      rd 8 (0x9000 + 0x20 * k) = whole64 z.bkUnits.toNat ∧ rd 8 (0x9008 + 0x20 * k) = pair32 z.lateCnt.toNat z.lateFr.toNat) ∧
    rd 8 0x9100 = whole64 (s.die d).pairSet.toNat ∧
    (d = 3 → rd 8 0x9108 = whole64 (packed [(0, b s.pair.on), (1, b s.pair.twin), (2, b s.pair.lost), (3, b s.pair.diverged),
      (16, s.pair.skipped.toNat), (32, s.pair.ssn.toNat)])) ∧
    (∀ c, c < 8 → d = servingDie s.layout (partOfDie s.layout d) → let y := sget ({} : Ths) (s.die d).ths c
      rd 9 (0x20 * c) = pair32 y.cfg.toNat y.child.toNat ∧ rd 9 (0x20 * c + 8) = pair32 (packed [(0, y.arr.toNat), (16, b y.self)]) y.stale.toNat ∧
      rd 9 (0x20 * c + 0x10) = pair32 y.pair.toNat y.early.toNat) ∧
    rd 0xA 0 = pair32 (packed [(0, b e.hold), (1, b e.claim.isSome)]) (e.atStart s.ht.now.toNat).claimWord.toNat ∧
    rd 0xA 8 = pair32 0 (packed [(0, e.stack.headD 16), (5, e.stack.length), (10, b e.eoiErr)]) ∧
    (∀ n, n < 512 → (rd 0xA (0x100 + 8 * (n / 64))).2.testBit (n % 64) = e.pend.getLsbD n ∧
      (rd 0xA (0x140 + 8 * (n / 64))).2.testBit (n % 64) = e.en.getLsbD n ∧ (rd 0xA (0x1C0 + 8 * (n / 64))).2.testBit (n % 64) = e.storm.getLsbD n ∧
      bits (rd 0xA (0x200 + 8 * (n / 16))).2 (4 * (n % 16) + 3) (4 * (n % 16)) = e.prioOf n % 16) ∧
    rd 0xA 0x180 = pair32 (packed [(0, e.full.toNat), (16, e.ovf.toNat)]) 0 ∧ rd 0xA 0x300 = pair32 e.limit.toNat 0 ∧
    (d = 0 → rd 0xA 0x400 = whole64 s.log.next.toNat ∧ rd 0xA 0x408 = whole64 s.log.commit.toNat ∧ rd 0xA 0x410 = pair32 s.log.lost.toNat 0) ∧
    (∀ k, k < 4 → rd 0xB (8 * k) = pair32 (sget 0 r.wdog (2 * k)).toNat (sget 0 r.wdog (2 * k + 1)).toNat ∧
      rd 0xB (0x240 + 8 * k) = pair32 (sget 0 r.sample (2 * k)).toNat (sget 0 r.sample (2 * k + 1)).toNat) ∧
    (∀ c, c < 8 → let q : CtxRef := ⟨partOfDie s.layout d, c⟩
      rd 0xB (0x40 + 8 * c) = whole64 ((sget 0 r.ctxStat c).toNat + 2 ^ 16 * min 0xFFFF (s.drainOn q (if (s.ctx q).td = none then s.cxh q else s.oldCxh q) d))) ∧
    rd 0xB 0x100 = whole64 r.fault.toNat ∧ rd 0xB 0x108 = whole64 r.faultHt.toNat ∧
    (∀ k, k < 3 → let w := fun (n : Nat) => if n < 5 then (r.pm n).toNat else 0
      rd 0xB (0x120 + 8 * k) = pair32 (w (2 * k)) (w (2 * k + 1))) ∧
    rd 0xB 0x140 = pair32 (s.rstLevel d) r.forced.toNat ∧ rd 0xB 0x200 = whole64 r.dumpBase.toNat ∧ rd 0xB 0x208 = whole64 r.dumpInfo.toNat ∧
    rd 0xB 0x210 = pair32 r.dumpSsn.toNat 0 ∧
    rd 0xB 0x8000 = pair32 (packed [(0, match s.plat.pstate with | .active => 0 | .idle => 1 | .standby => 2), (2, b s.plat.envelope),
      (3, b s.plat.change.isSome), (4, s.plat.k), (9, b s.plat.trip), (10, b s.plat.therm), (16, r.temp.toNat)]) 0 ∧
    rd 0xB 0x8008 = whole64 (packed [(0, r.thrUs.toNat), (32, r.trips.toNat)]) ∧
    rd 0xC 0 = pair32 (packed [(0, s.fuses.lcs.toNat), (2, b s.plat.recovery), (3, b s.plat.fwB)]) 0 ∧ rd 0xC 0x10 = pair32 s.plat.lock.toNat 0 ∧
    rd 0xC 0x8000 = pair32 (bits s.fuses.dis.toNat (8 * d + 7) (8 * d)) 0 ∧
    (∀ k, k < 16 → rd 0xC (0x8100 + 8 * k) = pair32 (sget 0 s.fuses.rowmap (32 * d + 2 * k)).toNat (sget 0 s.fuses.rowmap (32 * d + 2 * k + 1)).toNat) ∧
    (d = 0 → rd 0x30 0 = pair32 s.pcieStat s.plat.pcie.errs.toNat ∧ ∀ f, f < 4 → let x := s.fn f
      rd 0x30 (0x100 + 0x20 * f) = pair32 (packed [(0, (s.attn f).toNat), (8, if x.d3 then 3 else 0), (10, b (s.partExists f))] +
        ((List.range 16).map (fun n => 2 ^ (16 + n) * b ((s.ring ⟨f, n⟩).ctl.getLsbD 4))).sum) x.ringErr.toNat ∧
      rd 0x30 (0x108 + 0x20 * f) = whole64 x.taken.toNat ∧ rd 0x30 (0x110 + 0x20 * f) = pair32 x.flrs.toNat 0)

/-- R17, R313, R317, R318, R325, R333, R334: what BAR2 of a function reads as. HST_RDB reads 0. -/
def FunctionsReadTheirBar : Prop :=
  ∀ (s : State) (f : Nat), f < 4 →
    let x := s.fn f
    let rd := fun (o : Nat) => s.rdBar f 2 o
    (∀ n, n < 16 → let y := s.ring ⟨f, n⟩
      rd (0x1000 * n) = (true, y.cmd.toNat) ∧ rd (0x1000 * n + 8) = (true, y.rpl.toNat) ∧ rd (0x1000 * n + 0x10) = pair32 y.ctl.toNat y.seq0.toNat ∧
      rd (0x1000 * n + 0x18) = pair32 0 (y.head + 2 ^ 16 * y.err.toNat)) ∧
    rd 0x10000 = pair32 (s.attn f).toNat x.attnCtl.toNat ∧ rd 0x10008 = (true, x.b4base.toNat) ∧ rd 0x10010 = pair32 x.b4err.toNat 0 ∧
    (∀ k, k < 256 → let w := fun (v : Nat) => bits (x.vec v).mod.toNat 17 0 + 2 ^ 18 * (x.vec v).n
      rd (0x20000 + 8 * k) = pair32 (w (2 * k)) (w (2 * k + 1))) ∧
    (∀ v, v < 512 → rd (0x40000 + 16 * v) = pair32 (sget 0 x.msix (4 * v)).toNat (sget 0 x.msix (4 * v + 1)).toNat ∧
      rd (0x40008 + 16 * v) = pair32 (sget 0 x.msix (4 * v + 2)).toNat (x.vec v).masked.toNat ∧
      (rd (0x44000 + 8 * (v / 64))).2.testBit (v % 64) = (x.vec v).pba) ∧
    ∀ o, 0x44040 ≤ o → rd o = (false, 0)

/-- R17, R18, R44, R48, R49, R342: a write of an aligned 32 or 64 bits, by a host through a BAR or by a control
core into its die's space, reaches its register: RW bits take the value, W1C bits written 1 clear, but for
those that hardware sets in the same nanosecond, and every other bit stays; a host's write outside its dies
changes nothing, and neither does one of BAR0 in STANDBY (log 53); other sizes and
alignments, an offset beyond the BAR and a function in D3hot are unsupported
(log 44, PRESUMED). -/
def RegistersAreWritten : Prop :=
  (∀ (s : State) (f bar off : Nat) (v : RegValue), f < 4 → bar = 0 ∨ bar = 2 →
    let u : State := s.setL1 false
    let size := if bar = 0 then 2 ^ 26 else 2 ^ 24
    let run := exec (.registerWrite (.host f) bar off v) s
    (s.hostUp = false → run = .next s) ∧
    (s.hostUp = true → (regW off v = none ∨ (s.fn f).d3 = true ∨ size ≤ off) → run = .next (u.emit (.unsupported f off))) ∧
    (∀ k, s.hostUp = true → regW off v = some k → (s.fn f).d3 = false → off < size →
      (bar = 2 → run = .next (u.wrBar2 f (off / 8 * 8) k)) ∧
      (bar = 0 → (s.sees f (off / 2 ^ 24) = false ∨ s.plat.pstate = .standby) → run = .next u) ∧
      (bar = 0 → s.plat.pstate ≠ .standby → s.sees f (off / 2 ^ 24) = true → run = .next (u.wrDie false (off / 2 ^ 24) (off % 2 ^ 24 / 8 * 8) k)))) ∧
  (∀ (s : State) (d off : Nat) (v : RegValue), d < 4 →
    let run := exec (.registerWrite (.core d) 0 off v) s
    (s.controlRuns = false ∨ regW off v = none ∨ 2 ^ 24 ≤ off → run = .next s) ∧
    (∀ k, s.controlRuns = true → regW off v = some k → off < 2 ^ 24 → run = .next (s.wrDie true d (off / 8 * 8) k))) ∧
  (∀ (old v m rw w1c : W64) (i : Nat), i < 64 → w1c &&& rw = 0 →
    (mergeReg old v m rw w1c).getLsbD i =
      if m.getLsbD i = true ∧ rw.getLsbD i = true then v.getLsbD i
      else if m.getLsbD i = true ∧ w1c.getLsbD i = true ∧ v.getLsbD i = true then false else old.getLsbD i) ∧
  (∀ (s : State) (d off i : Nat) (m : W64), i < 64 → (s.clearable d off m).getLsbD i = true ↔
    m.getLsbD i = true ∧ ¬(s.fresh.time = s.ht.now.toNat ∧ 8 * (2 ^ 24 * d + off) + i ∈ s.fresh.bits)) ∧
  (∀ (s : State) (a : Nat), (s.hwSet a).fresh.time = s.ht.now.toNat ∧ a ∈ (s.hwSet a).fresh.bits ∧
    ∀ b, s.fresh.time = s.ht.now.toNat → b ∈ s.fresh.bits → b ∈ (s.hwSet a).fresh.bits) ∧
  (∀ (s : State) (a b : Nat) (r : W64), (s.hwRec a r).newRec a = some r ∧ (b ≠ a → (s.hwRec a r).newRec b = s.newRec b) ∧
    (s.fresh.time ≠ s.ht.now.toNat → s.newRec b = none)) ∧
  (∀ (off : Nat) (v : RegValue), regW off v = none ↔ (match v with
    | .w32 _ => off % 4 ≠ 0
    | .w64 _ => off % 8 ≠ 0
    | .other _ => True))

/-- R17, R18, R62, R64, R113, R147, R161, R165, R176, R181, R195, R199, R208, R231, R265, R266, R275, R280,
R281, R303, R389, R390: what a write of value `v` under the bits `m` does in a die's space outside EVC. Of the
register's RW bits those under `m` take the value, its W1C bits written 1 clear unless hardware set them in the
same nanosecond, and a record that is cleared in the nanosecond of a later error gives way to that error's;
fields that belong to a RUNNING context and, under LOCK_REG, RWL fields stay; MMU_INVAL,
MMU_FRES, ULK_CTL and STR_LINK start what they start; every other register takes no write. -/
def DieRegistersAreWritten : Prop :=
  (∀ hi lo i : Nat, hi < 64 → i < 64 → (field64 hi lo).getLsbD i = decide (lo ≤ i ∧ i ≤ hi)) ∧
  ∀ (s : State) (core : Bool) (d : Nat) (v m : W64), d < 4 →
    let wr := fun (blk off : Nat) => s.wrDie core d (2 ^ 16 * blk + off) ⟨v, m⟩
    let on := fun (old : Nat) (rw w1c : W64) => mergeReg (BitVec.ofNat 64 old) v m rw w1c
    let rd := fun (blk off : Nat) => (s.rdDie d (2 ^ 16 * blk + off)).2
    let may := fun (blk off : Nat) (w : W64) => s.clearable d (2 ^ 16 * blk + off) w
    let next := fun (blk off : Nat) (old : Nat) => let z := on old 0 (may blk off (field64 63 63))
      if old.testBit 63 && !z.getLsbD 63 then s.newRec (8 * (2 ^ 24 * d + 2 ^ 16 * blk + off) + 63) else none
    let rec_ := fun (blk off : Nat) (old : Nat) (rw : W64) => let z := on old rw (may blk off (field64 63 63))
      match next blk off old with
      | none => z
      | some r => (z &&& rw) ||| (r &&& ~~~rw)
    let hit := fun (n : Nat) => m.getLsbD n && v.getLsbD n
    let runs := fun (c : Nat) => (s.ctx ⟨partOfDie s.layout d, c⟩).st = .running
    let put := fun (y : Die) => s.setDie d y
    let x := s.die d
    let two := fun (t : Sparse W32) (i : Nat) (y : W64) => sput (sput t i (y.setWidth 32)) (i + 1) ((y >>> 32).setWidth 32)
    let low : W64 := field64 31 0
    let high : W64 := field64 63 32
    let keep := fun (c : Nat) => (if runs c then 0 else m &&& low) ||| (if runs (c + 1) then 0 else m &&& high)
    (d = 0 → wr 0 8 = s.setHt { s.ht with unlock := s.ht.unlock && !(hit 12 && (may 0 8 (field64 12 12)).getLsbD 12) }) ∧
    (∀ i, i < 1024 → wr 1 (0xC000 + 8 * i) = if runs (i / 128) then s else put { x with budget := two x.budget (2 * i) (on (rd 1 (0xC000 + 8 * i)) (low ||| high) 0) }) ∧
    (∀ c, c < 8 → let y := s.ss d c
      let at_ := fun (o : Nat) => wr 1 (0xE000 + 0x40 * c + o)
      at_ 0 = s.setSs d c { y with missAct := if m.getLsbD 1 then v.getLsbD 1 else y.missAct } ∧
      (y.missInfo.getLsbD 31 = true → hit 31 = false → at_ 0x28 = s) ∧ (hit 31 = true → at_ 0x28 = s.setSs d c (y.clearMiss s.ht.now.toNat)) ∧
      at_ 0x30 = s.setSs d c { y with allow := ((on (rd 1 (0xE030 + 0x40 * c)) (field64 47 32) 0) >>> 32).setWidth 16 } ∧
      (∀ o ∈ [0x8, 0x10, 0x18, 0x20], at_ o = s)) ∧
    (x.xerr0.getLsbD 63 = true → hit 63 = false → wr 1 0xF000 = s) ∧ (hit 63 = true → wr 1 0xF000 = put (x.clearXerr s.ht.now.toNat)) ∧
    (∀ i, i < 8 → s.enabled (8 * d + i) = true → let y := s.cluster (8 * d + i)
      let go := fun (z : Cluster) => s.setCluster (8 * d + i) z
      wr 2 (0x100 * i + 0x10) = go { y with sbPeak := ((on (rd 2 (0x100 * i + 0x10)) (field64 14 8) 0) >>> 8).setWidth 7 } ∧
      wr 2 (0x100 * i + 0x18) = go { y with err := rec_ 2 (0x100 * i + 0x18) (rd 2 (0x100 * i + 0x18)) 0 } ∧
      (∀ e, e < 3 → wr 2 (0x100 * i + 0x28 + 8 * e) = go { y with eng := sput y.eng e { y.settle (y.engine e) with
        steps := on (rd 2 (0x100 * i + 0x28 + 8 * e)) (low ||| high) 0 } }) ∧
      (∀ k, k < 256 → wr 2 (0x8000 + 0x800 * i + 8 * k) = if s.runsOn (8 * d + i) then s else
        go { y with scale := two y.scale (2 * k) (on (rd 2 (0x8000 + 0x800 * i + 8 * k)) (field64 23 0 ||| field64 55 32) 0) }) ∧
      ∀ k, k < 8 → ∃ z : BitVec 512, wr 2 (0xC000 + 0x40 * i + 8 * k) = go { y with ovf := z } ∧ ∀ n, n < 512 → z.getLsbD n =
        if n / 64 = k then y.ovf.getLsbD n && !(hit (n % 64) && (may 2 (0xC000 + 0x40 * i + 8 * k) (low ||| high)).getLsbD (n % 64)) else y.ovf.getLsbD n) ∧
    wr 3 0x8000 = put { x with replay := on x.replay.toNat (low ||| high) 0 } ∧
    (∀ c, c < 8 → wr 4 (8 * c) = if runs c then s else put { x with str := { x.str with root := sput x.str.root c (on (rd 4 (8 * c)) (field64 0 0 ||| field64 47 21) 0) } }) ∧
    (m.getLsbD 0 = true → wr 4 0x40 = if x.str.inval = none then put { x with str := { x.str with inval := some (v.setWidth 32) } } else s) ∧
    (∀ n, n < 32 → m.getLsbD 0 = true → let valid := (s.frec d n).fva.getLsbD 63
      wr 4 (0x1018 + 0x20 * n) = if valid = false then s else if v.getLsbD 1 then s.fresAbort d n else if v.getLsbD 0 then s.fresResume d n else s) ∧
    (∀ n, n < 256 → m.getLsbD 0 = true → let y := s.link d n
      wr 4 (0xC000 + 0x10 * n) = if y.cfg.getLsbD 8 = true ∧ runs (bits y.cfg.toNat 11 9) then s else s.setLink d n { cfg := v.setWidth 32 &&& 0xFFF#32 }) ∧
    (∀ n i, n < 16 → i < 8 → let y := sget ({} : Scat) x.str.scat n
      let mask : W64 := if i = 5 then low ||| high else if i = 7 then high else field64 47 0
      wr 4 (0xD000 + 0x40 * n + 8 * i) = if y.valid = true ∧ runs y.slot then s else
        put { x with str := { x.str with scat := sput x.str.scat n { y with w := sput y.w i (on (y.word i) mask 0) } } }) ∧
    (∀ u, u < 64 → let y := s.chk d u
      let held := runs (bits y.ctl.toNat 5 3)
      let z := on (rd 5 (0x20 * u)) (field64 5 0) (may 5 (0x20 * u) (field64 33 33))
      wr 5 (0x20 * u) = s.setChk d u { y with ctl := z.setWidth 32, stat := (z >>> 32).setWidth 32 &&& 2#32 } ∧
      wr 5 (0x20 * u + 8) = (if held then s else s.setChk d u { y with acc := on y.acc.toNat (low ||| high) 0 }) ∧
      wr 5 (0x20 * u + 0x10) = (if held then s else s.setChk d u { y with exp := on y.exp.toNat (low ||| high) 0 })) ∧
    wr 6 0x2000 = put { x with flg := { x.flg with misuse := rec_ 6 0x2000 x.flg.misuse.toNat (field64 7 0) } } ∧
    (∀ i, i < 6 → wr 6 (0xC000 + 8 * i) = put { x with flg := { x.flg with msgCnt := sput x.flg.msgCnt i (on (rd 6 (0xC000 + 8 * i)) (low ||| high) 0) } }) ∧
    (∀ n, n < 256 → let y := sget ({} : Watch) x.watch n
      let go := fun (z : Watch) => put { x with watch := sput x.watch n z }
      (∀ c, y.owner = some c → (s.ctx c).st = .running → wr 7 (0x40 * n) = s) ∧
      ((∀ c, y.owner = some c → (s.ctx c).st ≠ .running) → wr 7 (0x40 * n) = go { y with cfg := (on (rd 7 (0x40 * n)) low 0).setWidth 32 }) ∧
      wr 7 (0x40 * n + 0x28) = go { y with stat := ((on (rd 7 (0x40 * n + 0x28)) 0 (may 7 (0x40 * n + 0x28) (field64 57 52))) >>> 32).setWidth 32 } ∧
      wr 7 (0x40 * n + 0x30) = (if hit 32 then go (y.clear s.ht.now.toNat) else s)) ∧
    (∀ k, k < 4 → s.wrDie core d (2 ^ 16 * 7 + 0x8000 + 8 * k) ⟨v, m⟩ = put { x with
      dsCtl := two x.dsCtl (2 * k) (mergeReg (BitVec.ofNat 64 (rd 7 (0x8000 + 8 * k))) v (keep (2 * k)) (field64 19 0 ||| field64 51 32) 0) }) ∧
    (∀ k, k < 4 → let p := 4 * d + k
      let y := s.port p
      let at_ := fun (o : Nat) => wr 8 (0x100 * k + o)
      let z := fun (o : Nat) => on (rd 8 (0x100 * k + o)) (low ||| high) 0
      let go := fun (l : PortLink) => s.setPort p { y with link := l }
      let ctl := go { y.link with ctl := BitVec.ofNat 32 (bits v.toNat 2 0) }
      (m.getLsbD 0 = true → at_ 0 = if v.getLsbD 0 then ctl.portTry p false else ctl.portDown p 5) ∧
      at_ 0x10 = go { y.link with fecCor := z 0x10 } ∧ at_ 0x18 = go { y.link with fecUnc := z 0x18 } ∧
      at_ 0x20 = go { y.link with crcErr := (z 0x20).setWidth 32, retry := (z 0x20 >>> 32).setWidth 32 } ∧
      at_ 0x28 = go { y.link with drop := (z 0x28).setWidth 32, blkErr := (z 0x28 >>> 32).setWidth 32 } ∧
      at_ 0x30 = go { y.link with downCnt := (z 0x30).setWidth 16 } ∧
      wr 8 (0x9000 + 0x20 * k) = s.setXch p { y.xch with bkUnits := on y.xch.bkUnits.toNat (low ||| high) 0 }) ∧
    ((∃ c, c < 8 ∧ runs c) → wr 8 0x9100 = s) ∧
    ((∀ c, c < 8 → ¬runs c) → wr 8 0x9100 = put { x with pairSet := on x.pairSet.toNat (low ||| high) 0 }) ∧
    (d = 3 → wr 8 0x9108 = { s with pair := { s.pair with diverged := s.pair.diverged && !(hit 3 && (may 8 0x9108 (field64 3 3)).getLsbD 3) } }) ∧
    (∀ c, c < 8 → d = servingDie s.layout (partOfDie s.layout d) → let y := sget ({} : Ths) x.ths c
      let a := on (rd 9 (0x20 * c)) (field64 21 0 ||| field64 47 32) 0
      wr 9 (0x20 * c) = (if runs c then s else put { x with ths := sput x.ths c { y with cfg := a.setWidth 32, child := (a >>> 32).setWidth 32 } }) ∧
      wr 9 (0x20 * c + 0x10) = (if runs c then s else put { x with ths := sput x.ths c { y with
        pair := (on (rd 9 (0x20 * c + 0x10)) (field64 5 0 ||| field64 31 16) 0).setWidth 32 } })) ∧
    (let r := x.rst
     let rst := fun (z : DieRst) => put { x with rst := z }
     let frozen := s.plat.lock.getLsbD 7
     (∀ k, k < 4 →
       wr 0xB (8 * k) = rst { r with wdog := two r.wdog (2 * k) (mergeReg (BitVec.ofNat 64 (rd 0xB (8 * k))) v (keep (2 * k)) (low ||| high) 0) } ∧
       wr 0xB (0x240 + 8 * k) = rst { r with sample := two r.sample (2 * k) (mergeReg (BitVec.ofNat 64 (rd 0xB (0x240 + 8 * k))) v (keep (2 * k))
         (field64 23 0 ||| field64 55 32) 0) }) ∧
     wr 0xB 0x100 = rst { r with
       fault := rec_ 0xB 0x100 r.fault.toNat 0
       faultHt := if next 0xB 0x100 r.fault.toNat = none then r.faultHt else s.ht.now } ∧
     (∀ k, k < 3 → frozen = true → wr 0xB (0x120 + 8 * k) = s) ∧
     (∀ k, k < 3 → frozen = false → ∃ z : DieRst, wr 0xB (0x120 + 8 * k) = rst z ∧ z = { r with pmLim := z.pmLim } ∧
       ∀ n, n < 5 → z.pm n = if n / 2 = k then ((on (rd 0xB (0x120 + 8 * k)) (field64 15 0 ||| field64 47 32) 0) >>> (32 * (n % 2))).setWidth 16 else r.pm n) ∧
     wr 0xB 0x140 = rst { r with forced := ((on (rd 0xB 0x140) (field64 47 32) 0) >>> 32).setWidth 16 } ∧
     wr 0xB 0x200 = (if frozen then s else rst { r with dumpBase := on r.dumpBase.toNat (field64 0 0 ||| field64 47 21) 0 }) ∧
     wr 0xB 0x208 = rst { r with dumpInfo := on r.dumpInfo.toNat 0 (may 0xB 0x208 (field64 40 40 ||| field64 63 63)) } ∧
     (let y := on (rd 0xB 0x8008) (low ||| high) 0
      wr 0xB 0x8008 = rst { r with thrUs := y.setWidth 32, trips := (y >>> 32).setWidth 32 })) ∧
    (∀ blk off, blk < 256 → off < 0x10000 → 0xC ≤ blk → wr blk off = s) ∧ (core = false → ∀ off, off < 0x10000 → wr 0xA off = s)

/-- R17, R18, R317, R318, R325, R333, R334: what a host's write of value `v` under the bits `m` does in its
function's BAR2: the ring bases of a disabled ring, HST_ATTN by a 1, HST_ATTNCTL, BAR4's base and error count, the
moderation registers and the MSI-X table take it; HST_RHEAD and the PBA do not. -/
def FunctionRegistersAreWritten : Prop :=
  ∀ (s : State) (f : Nat) (v m : W64), f < 4 →
    let wr := fun (o : Nat) => s.wrBar2 f o ⟨v, m⟩
    let x := s.fn f
    let all : W64 := field64 63 0
    let on := fun (old : Nat) (rw w1c : W64) => mergeReg (BitVec.ofNat 64 old) v m rw w1c
    (∀ n, n < 16 → let r : RingRef := ⟨f, n⟩
      let y := s.ring r
      let en := y.ctl.getLsbD 4
      wr (0x1000 * n) = (if en then s else s.setRing r { y with cmd := on y.cmd.toNat all 0 }) ∧
      wr (0x1000 * n + 8) = (if en then s else s.setRing r { y with rpl := on y.rpl.toNat all 0 }) ∧
      (m.getLsbD 0 = true → m.getLsbD 32 = false → m &&& field64 31 0 = field64 31 0 → s.hostUp = true →
        .next (wr (0x1000 * n + 0x10)) = (if v.getLsbD 4 then exec (.ringEnable r (v.setWidth 32)) s else exec (.ringDisable r (v.setWidth 32)) s)) ∧
      (m.getLsbD 0 = true → s.hostUp = true → .next (wr (0x1000 * n + 0x18)) = exec (.doorbell r (v.setWidth 32)) s) ∧
      (m.getLsbD 0 = false → wr (0x1000 * n + 0x18) = s)) ∧
    (∃ y : Fn, wr 0x10000 = s.setFn f y ∧ y = { x with attn := y.attn, attnCtl := y.attnCtl } ∧
      y.attnCtl = ((on (packed [(0, x.attn.toNat), (32, x.attnCtl.toNat)]) (field64 41 32) 0) >>> 32).setWidth 32 ∧
      ∀ i, i < 8 → y.attn.getLsbD i = (x.attn.getLsbD i && !(m.getLsbD i && v.getLsbD i &&
        !(decide (s.fresh.time = s.ht.now.toNat) && s.fresh.bits.contains (bar2Bit f 0x10000 i))))) ∧
    wr 0x10008 = s.setFn f { x with b4base := on x.b4base.toNat (field64 0 0 ||| field64 47 36) 0 } ∧
    wr 0x10010 = s.setFn f { x with b4err := (on x.b4err.toNat (field64 31 0) 0).setWidth 32 } ∧
    (∀ k, k < 256 → ∃ y : Fn, wr (0x20000 + 8 * k) = s.setFn f y ∧ y = { x with vecs := y.vecs } ∧
      let z := on (packed [(0, (x.vec (2 * k)).mod.toNat), (32, (x.vec (2 * k + 1)).mod.toNat)]) (field64 17 0 ||| field64 49 32) 0
      y.vec (2 * k) = { x.vec (2 * k) with mod := z.setWidth 32 } ∧ y.vec (2 * k + 1) = { x.vec (2 * k + 1) with mod := (z >>> 32).setWidth 32 }) ∧
    (∀ n, n < 512 → m = all → wr (0x40000 + 16 * n) = s.setFn f { x with
        msix := sput (sput x.msix (4 * n) (v.setWidth 32)) (4 * n + 1) ((v >>> 32).setWidth 32) } ∧
      let y := { x with msix := sput x.msix (4 * n + 2) (v.setWidth 32) }
      (v.getLsbD 32 = true → wr (0x40008 + 16 * n) = s.setFn f (y.setVec n { x.vec n with masked := true })) ∧
      (v.getLsbD 32 = false → (x.vec n).masked = false → wr (0x40008 + 16 * n) = s.setFn f y) ∧
      (v.getLsbD 32 = false → (x.vec n).masked = true → wr (0x40008 + 16 * n) = (s.setFn f y).unmask f n)) ∧
    (∀ o, 0x44000 ≤ o → wr o = s)

/-- R342 to R345, R348: a die's control core writes its event controller: an enable bit takes the value, and
one that it sets ends its source's masking unless its clear is deferred (that it keeps its masking then is the
model's choice, log 48); priorities and the storm limit take the value; EOI_ERR, OVF and STORM clear by a 1,
but for what hardware sets in the same nanosecond; HOLD is set or released, and a host's write there changes
no register. -/
def CoresWriteTheirControllers : Prop :=
  ∀ (s : State) (d k : Nat) (v : W64), d < 4 → s.controlRuns = true →
    let e := (s.die d).evc
    let put := fun (x : Evc) => s.setDie d { s.die d with evc := x }
    let run := fun (off : Nat) => exec (.registerWrite (.core d) 0 (0xA0000 + off) (.w64 v)) s
    let fresh := fun (off n : Nat) => s.fresh.time = s.ht.now.toNat ∧ bar0Bit d (0xA0000 + off) n ∈ s.fresh.bits
    (k < 8 → Yields (run (0x140 + 8 * k)) (fun t => ∃ x : Evc, t = put x ∧ x = { e with en := x.en, masked := x.masked } ∧
      ∀ n, n < 512 →
        x.en.getLsbD n = (if n / 64 = k then v.getLsbD (n % 64) else e.en.getLsbD n) ∧
        x.masked.getLsbD n = (e.masked.getLsbD n && !(decide (n / 64 = k) && v.getLsbD (n % 64) && !e.deferred.getLsbD n)))) ∧
    (k < 32 → Yields (run (0x200 + 8 * k)) (fun t => ∃ x : Evc, t = put x ∧ x = { e with prio := x.prio } ∧
      ∀ n, n < 512 → x.prioOf n = if n / 16 = k then bits v.toNat (4 * (n % 16) + 3) (4 * (n % 16)) else e.prioOf n)) ∧
    run 0x300 = .next (put { e with limit := BitVec.ofNat 16 (bits v.toNat 15 0) }) ∧
    (k < 8 → Yields (run (0x1C0 + 8 * k)) (fun t => ∃ x : Evc, t = put x ∧ x = { e with storm := x.storm } ∧
      ∀ n, n < 512 → (x.storm.getLsbD n = true ↔ e.storm.getLsbD n = true ∧
        ¬(n / 64 = k ∧ v.getLsbD (n % 64) = true ∧ ¬fresh (0x1C0 + 8 * k) (n % 64))))) ∧
    Yields (run 0x180) (fun t => ∃ x : Evc, t = put x ∧ x = { e with ovf := x.ovf } ∧
      ∀ n, n < 5 → (x.ovf.getLsbD n = true ↔ e.ovf.getLsbD n = true ∧ ¬(v.getLsbD (16 + n) = true ∧ ¬fresh 0x180 (16 + n)))) ∧
    (v.getLsbD 0 = true → run 0x000 = .next (put { e with hold := true })) ∧
    (v.getLsbD 0 = false → run 0x000 = .next (put { e with hold := false, en := e.en &&& ~~~e.deferred, deferred := 0 })) ∧
    (∀ p ps, e.stack = p :: ps → v.getLsbD 42 = true → ¬fresh 0x8 42 → run 0x008 = .next (put { e with eoiErr := false, stack := ps })) ∧
    (∀ f off, f < 4 → s.hostUp = true → (s.fn f).d3 = false → off < 0x10000 → off % 8 = 0 →
      exec (.registerWrite (.host f) 0 (2 ^ 24 * d + 0xA0000 + off) (.w64 v)) s = .next (s.setL1 false))

/-- R315: with BAR4 enabled, a partition and a range that lies in its memory, an access of the aperture reads
or writes the bytes of HBM at BASE + offset; any other is refused: a read answers all ones, and HST_B4ERR
counts. R44, R384: with PF# low and in STANDBY HBM does not answer. -/
def ApertureReachesMemory : Prop :=
  (∀ (s : State) (f off : Nat) (a : HostAccess), f < 4 → s.hostUp = true → (s.fn f).d3 = false → off + HostAccess.size a ≤ 2 ^ 36 →
    s.plat.pf = false ∨ s.plat.pstate = .standby → exec (.bar4Access f off a) s = .next (s.setL1 false)) ∧
  ∀ (s : State) (f off n : Nat) (bs : List Byte), f < 4 → s.hostUp = true → (s.fn f).d3 = false → s.plat.pf = true → s.plat.pstate ≠ .standby →
    let u : State := (s.setL1 false).touch
    let b := (s.fn f).b4base
    let a := bits b.toNat 47 36 * 2 ^ 36 + off
    let ok := fun (k : Nat) => b.getLsbD 0 = true ∧ s.partExists f = true ∧ paRangeOk s.layout f a k = true
    let e := u.setFn f { u.fn f with b4err := satAdd (u.fn f).b4err 1 }
    (off + n ≤ 2 ^ 36 → ok n → exec (.bar4Access f off (.read n)) s = .next (u.emit (.bytes f off (u.paRead f a n)))) ∧
    (off + n ≤ 2 ^ 36 → ¬ok n → exec (.bar4Access f off (.read n)) s = .next (e.emit (.bytes f off (List.replicate n 0xFF)))) ∧
    (off + bs.length ≤ 2 ^ 36 → ok bs.length → exec (.bar4Access f off (.write bs)) s = .next (u.paWrite f a bs)) ∧
    (off + bs.length ≤ 2 ^ 36 → ¬ok bs.length → exec (.bar4Access f off (.write bs)) s = .next e)

/-- R172, R176: a 1 written to CLEAR of NUM_WCTL clears a watch slot's counters, streak and step flags and
keeps its step and alarms; what was counted in its own nanosecond stays. -/
def WatchSlotsClear : Prop :=
  ∀ (s : State) (f d n : Nat) (v : W32), f < 4 → d < 4 → n < 256 →
    let x := sget ({} : Watch) (s.die d).watch n
    let go := s.hostUp = true ∧ s.sees f d = true ∧ v.getLsbD 0 = true ∧ s.plat.pstate ≠ .standby
    (¬go → exec (.numWctlClear f d n v) s = .next s) ∧
    (go → let now := s.ht.now.toNat
      let kept := fun (k : Nat) => if x.newAt = some now then BitVec.ofNat 48 k else 0
      let y := { x with elems := kept x.newE, zeros := kept x.newZ, sats := kept x.newS, nonfin := kept x.newN,
                        stat := (x.stat &&& 0x03000000) ||| (if x.newAt = some now then x.newF else 0) }
      exec (.numWctlClear f d n v) s = .next (s.setDie d { s.die d with watch := sput (s.die d).watch n y }))

/-! ### MSI-X and PCIe -/

/-- R334, R335: a vector sends one message and its count returns to 0 at its time or once COUNT messages are
pending; a masked one sets its PBA bit instead, and sends when it is unmasked; in D3hot nothing is sent, and a
message takes the link out of L1 (log 47). -/
def VectorsModerate : Prop :=
  ∀ (s : State) (f v : Nat), f < 4 → v < 512 →
    let x := s.fn f
    let y := x.vec v
    let us := bits y.mod.toNat 17 8
    let time := 1000 * max 1 (min us 1000)
    let due := s.hostUp = true ∧ 0 < y.n ∧ ∃ t, y.t1 = some t ∧ t + time ≤ s.ht.now.toNat
    let sent := (({ s with plat := { s.plat with pcie := { s.plat.pcie with l1 := false } } } : State).setFn f
      (x.setVec v { y with n := 0, t1 := none, pba := false })).emit (.msix f v)
    (¬due → exec (.msixModerationTimeout f v) s = .next s) ∧
    (due → x.d3 = true → exec (.msixModerationTimeout f v) s = .next s) ∧
    (due → x.d3 = false → y.masked = false → exec (.msixModerationTimeout f v) s = .next sent) ∧
    (due → x.d3 = false → y.masked = true → exec (.msixModerationTimeout f v) s = .next (s.setFn f (x.setVec v { y with pba := true }))) ∧
    (s.hostUp = false ∨ y.masked = false → exec (.msixUnmask f v) s = .next s) ∧
    (s.hostUp = true → y.masked = true → y.n = 0 → exec (.msixUnmask f v) s = .next (s.setFn f (x.setVec v { y with masked := false }))) ∧
    (s.hostUp = true → y.masked = true → 0 < y.n → x.d3 = false → Yields (exec (.msixUnmask f v) s) (fun t =>
      ((t.fn f).vec v) = { y with masked := false, n := 0, t1 := none, pba := false } ∧ t.outs = .msix f v :: s.outs)) ∧
    (let k := min 256 (y.n + 1)
     let t := s.countVec f v
     (k < bits y.mod.toNat 7 0 + 1 → (t.fn f).vec v = { y with n := k, t1 := some (y.t1.getD s.ht.now.toNat) } ∧ t.outs = s.outs) ∧
     (bits y.mod.toNat 7 0 + 1 ≤ k → x.d3 = false → y.masked = false → ((t.fn f).vec v).n = 0 ∧ t.outs = .msix f v :: s.outs))

/-- R335: before the link enters L1 or a function D3hot every unmasked vector with n > 0 of a function that is not in
D3hot sends one message, and its count returns to 0; back in D0 a
function's pending vectors send; after PME_Turn_Off no command is taken, and PME_TO_Ack follows once none
runs: at once where none does. -/
def PciePowerStates : Prop :=
  ∀ (s : State) (f : Nat) (en : Bool), f < 4 →
    let t := s.flush
    let d := t.setFn f { t.fn f with d3 := true, pmeEn := en }
    let w := (s.setL1 false).setFn f { (s.setL1 false).fn f with d3 := false }
    (s.hostUp = false → exec .pcieL1Entry s = .next s ∧ exec (.d3hotEntry f en) s = .next s ∧ exec (.d0Return f) s = .next s ∧
      exec .pmeTurnOff s = .next s) ∧
    ((∀ g, g < 4 → (s.fn g).vecs.Pairwise (fun p q => p.1 < q.1)) → t = { s with fns := t.fns, outs := t.outs, plat := t.plat } ∧
      ∀ g v, g < 4 → let x := (s.fn g).vec v
        let sends := (s.fn g).d3 = false ∧ 0 < x.n ∧ x.masked = false
        (sends → (t.fn g).vec v = { x with n := 0, t1 := none, pba := false } ∧ t.outs.count (.msix g v) = s.outs.count (.msix g v) + 1) ∧
        (¬sends → (t.fn g).vec v = x ∧ t.outs.count (.msix g v) = s.outs.count (.msix g v))) ∧
    (s.hostUp = true → exec .pcieL1Entry s = .next (t.setL1 true)) ∧
    (s.hostUp = true → (∀ g, g < 4 → g ≠ f → (s.fn g).d3 = true) → exec (.d3hotEntry f en) s = .next (d.setL1 true)) ∧
    (s.hostUp = true → (∃ g, g < 4 ∧ g ≠ f ∧ (s.fn g).d3 = false) → exec (.d3hotEntry f en) s = .next d) ∧
    ((s.fn f).d3 = false → exec (.d0Return f) s = .next s) ∧
    (s.hostUp = true → (s.fn f).d3 = true → exec (.d0Return f) s =
      .next (forAll ((s.fn f).vecs.filter (fun v => 0 < v.2.n)) (fun u v => u.fireVec f v.1) w)) ∧
    (s.plat.pcie.turn ≠ none → exec .pmeTurnOff s = .next s) ∧
    (s.hostUp = true → s.plat.pcie.turn = none →
      let u : State := { s with plat := { s.plat with pcie := { s.plat.pcie with turn := some s.ht.now.toNat } } }
      ((∃ r ∈ allRings, (s.ring r).cur ≠ none) → exec .pmeTurnOff s = .next u) ∧
      ((∀ r ∈ allRings, (s.ring r).cur = none) → Yields (exec .pmeTurnOff s) (fun t => t.plat.pcie.off = true ∧ Out.pmeAck ∈ t.outs)) ∧
      ∀ r, u.canTake r = false)

/-! ### The event controllers -/

/-- R44, R337, R338, R345: a listed source of no AON latch sets its pending bit in its die, or in every die where
its scope is M; a reserved number is never pending; a new millisecond of hall time starts the storm counts at 0.
In STANDBY the controllers stand, and only a source with a latch is raised. -/
def EventsAreRaised : Prop :=
  (∀ (s : State) (d n : Nat) (x : RaiseInfo), d < 4 →
    (s.plat.powered = false ∨ evListed n = false ∨ (s.plat.pstate = .standby ∧ evLatch n = none) → exec (.eventRaise d n x) s = .next s) ∧
    (s.plat.powered = true → evListed n = true → (s.plat.pstate ≠ .standby ∨ evLatch n ≠ none) → exec (.eventRaise d n x) s = .next (s.raise d n x)) ∧
    (evListed n = true → evLatch n = none →
      (evScopeM n = false → ((s.raise d n x).die d).evc.pend.getLsbD n = true ∧ ∀ e, e < 4 → e ≠ d → ((s.raise d n x).die e).evc = (s.die e).evc) ∧
      (evScopeM n = true → ∀ e, e < 4 → ((s.raise d n x).die e).evc.pend.getLsbD n = true)) ∧
    (∀ l e, evLatch n = some l → e < 4 → ((s.raise d n x).die e).evc.full.getLsbD l = true ∧
      ((s.raise d n x).die e).evc.pend = (s.die e).evc.pend ∧
      ((s.die e).evc.full.getLsbD l = true → ((s.raise d n x).die e).evc.ovf.getLsbD l = true) ∧
      ((s.die e).evc.full.getLsbD l = false → sget 0 ((s.raise d n x).die e).evc.stamps l = s.ht.now))) ∧
  (∀ s : State, s.plat.pstate = .standby → exec .stormWindow s = .next s) ∧
  (∀ s : State, s.plat.pstate ≠ .standby → Yields (exec .stormWindow s) (fun t => ∀ d, d < 4 → (t.die d).evc = { (s.die d).evc with
    ms := s.ht.now.toNat / 1000000, counts := if s.ht.now.toNat / 1000000 = (s.die d).evc.ms then (s.die d).evc.counts else [] }))

/-- R345, R350: a record is offered behind those that wait, but ahead of those of its own cycle with a higher
number; the raise that reaches the limit of a millisecond masks its source: no record is offered any more, its
enable clears (deferred under HOLD) and EVC_STORM is due; a limit of 0 masks nothing. -/
def StormsAreMasked : Prop :=
  ∀ (e : Evc) (now n : Nat) (offer : Bool) (r : LogRec), n < 512 →
    let k := (if now / 1000000 = e.ms then sget 0 e.counts n else 0) + 1
    let t := (e.raise now n offer r).1
    let due := (e.raise now n offer r).2
    (due = true ↔ e.limit ≠ 0 ∧ k = e.limit.toNat ∧ e.masked.getLsbD n = false) ∧
    t.pend.getLsbD n = true ∧ sget 0 t.counts n = k ∧
    (due = true → t.masked.getLsbD n = true ∧ (e.hold = false → t.en.getLsbD n = false) ∧ (e.hold = true → t.en = e.en ∧ t.deferred.getLsbD n = true)) ∧
    (due = false → t.en = e.en ∧ t.masked = e.masked) ∧
    (e.hold = false → e.en.getLsbD n = true → due = true → t.roseAt = now ∧ t.cut.getLsbD n = true) ∧
    t.offers = (if offer = true ∧ e.masked.getLsbD n = false then offerRec now r e.offers else e.offers) ∧
    (∀ xs, ∃ a b, offerRec now r xs = a ++ (now, r) :: b ∧ xs = a ++ b ∧ (∀ x ∈ a, ¬(x.1 = now ∧ r.src < x.2.src)) ∧
      ∀ x, b.head? = some x → x.1 = now ∧ r.src < x.2.src)

/-- R338 to R341, R343, R344: a claim takes, of the sources that were pending and enabled as its cycle began,
the one of the lowest priority value below RUNPRI and the lowest number, answers it and its priority to the
control core, pushes the priority, and clears the pending bit unless the source was raised again in that
cycle; under HOLD, or with none, it answers 0 and changes nothing; EOI pops, or records an error; HOLD back at
0 clears the enables that were deferred. -/
def EventsAreClaimed : Prop :=
  ∀ (s : State) (d : Nat), d < 4 →
    let e := (s.die d).evc
    let put := fun (x : Evc) => s.setDie d { s.die d with evc := x }
    let on := s.plat.powered = true ∧ s.plat.running = true ∧ s.plat.pstate ≠ .standby
    let runpri := e.stack.headD 16
    let here := e.roseAt = s.ht.now.toNat
    let can := fun (n : Nat) => evListed n = true ∧ e.pend.getLsbD n = true ∧ ¬(here ∧ e.rose.getLsbD n = true) ∧
      (e.en.getLsbD n = true ∨ (here ∧ e.cut.getLsbD n = true)) ∧ e.prioOf n < runpri
    (¬on → exec (.evcClaim d) s = .next s ∧ exec (.evcEoi d) s = .next s ∧ exec (.evcHoldSet d) s = .next s ∧ exec (.evcHoldRelease d) s = .next s) ∧
    (on → (e.hold = true ∨ ∀ n, ¬can n) → exec (.evcClaim d) s = .next ((put e).emit (.claim d 0))) ∧
    (∀ n, on → e.hold = false → can n → (∀ m, can m → m ≠ n → e.prioOf n < e.prioOf m ∨ (e.prioOf n = e.prioOf m ∧ n < m)) →
      exec (.evcClaim d) s = .next ((put { e with pend := putBit e.pend n (decide here && e.again.getLsbD n), stack := e.prioOf n :: e.stack }).emit
        (.claim d (BitVec.ofNat 32 (2 ^ 31 + 2 ^ 9 * e.prioOf n + n))))) ∧
    (on → e.stack = [] → exec (.evcEoi d) s = .next ((put { e with eoiErr := true }).hwSet (bar0Bit d 0xA0008 42))) ∧
    (∀ p ps, on → e.stack = p :: ps → exec (.evcEoi d) s = .next (put { e with stack := ps })) ∧
    (on → exec (.evcHoldSet d) s = .next (put { e with hold := true })) ∧
    (on → exec (.evcHoldRelease d) s = .next (put { e with hold := false, en := e.en &&& ~~~e.deferred, deferred := 0 })) ∧
    (∀ n, n < 512 → (e.rise s.now n).roseAt = s.ht.now.toNat ∧ (e.rise s.now n).again.getLsbD n = true ∧
      ((e.rise s.now n).rose.getLsbD n = true ↔ e.pend.getLsbD n = false ∨ (here ∧ e.rose.getLsbD n = true)))

/-- R346: a full latch passes to the pending bit of its die once the control domains run, with the stamp of
its edge; the latch is free again. -/
def LatchesPass : Prop :=
  ∀ (s : State) (d l : Nat), d < 4 → l < 5 →
    let e := (s.die d).evc
    let go := s.controlRuns = true ∧ e.full.getLsbD l = true
    (¬go → exec (.latchTransfer d l) s = .next s) ∧
    (go → Yields (exec (.latchTransfer d l) s) (fun t =>
      (t.die d).evc.full.getLsbD l = false ∧ (t.die d).evc.pend.getLsbD (latchSrc l) = true ∧ (t.die d).evc.stamps = e.stamps ∧
      (d = 0 → e.masked.getLsbD (latchSrc l) = false → ∃ r, r ∈ (t.die d).evc.offers ∧ r.2.src = latchSrc l ∧ r.2.ht = sget 0 e.stamps l) ∧
      ∀ k, k < 4 → k ≠ d → t.die k = s.die k))

/-! ### The log -/

/-- R349 to R351, R367, R383: in each control cycle, also of an L3, at most one record is appended, of the
next die in turn with a record that an earlier cycle raised, with the next LSEQ at the end of the log; a full
open page drops it and counts the loss; a page is programmed when full or 100 ms old, and its completion
commits its records and forgets what the flash no longer keeps. -/
def TheLogIsKept : Prop :=
  (∀ (s : State) (x : LogRec), let t := s.append x
    t.log.next = s.log.next + 1 ∧ t.log.recs = s.log.recs ++ [{ x with lseq := s.log.next }] ∧ t.log.commit = s.log.commit) ∧
  (∀ s : State, let on := s.plat.powered = true ∧ s.plat.pstate ≠ .standby
    ¬on ∨ s.log.lastAt = some s.ht.now.toNat → exec .logAppend s = .next s) ∧
  (∀ s : State, s.plat.powered = true → s.plat.pstate ≠ .standby → s.log.lastAt ≠ some s.ht.now.toNat →
    let v : State := { s with log := { s.log with lastAt := some s.ht.now.toNat } }
    let room := s.log.open_ < 256
    let d := ([0, 1, 2, 3].map (fun k => (s.log.turn + k) % 4)).find? (fun d => (s.die d).evc.offers.head?.any (fun x => x.1 < s.ht.now.toNat))
    (0 < s.log.run → room → exec .logAppend s = .next (({ v with log := { v.log with run := 0 } } : State).append v.lostRec)) ∧
    (¬(0 < s.log.run ∧ room) → d = none → exec .logAppend s = .next v) ∧
    (∀ k x xs, ¬(0 < s.log.run ∧ room) → d = some k → (s.die k).evc.offers = x :: xs →
      let t := v.setDie k { v.die k with evc := { (v.die k).evc with offers := xs } }
      let u : State := { t with log := { t.log with turn := (k + 1) % 4 } }
      (room → exec .logAppend s = .next (u.append x.2)) ∧
      (¬room → exec .logAppend s = .next u.dropRec ∧ u.dropRec.log.lost = satAdd s.log.lost 1 ∧ u.dropRec.log.recs = s.log.recs))) ∧
  (∀ s : State, let l := s.log
    let due := s.plat.powered = true ∧ s.plat.pstate ≠ .standby ∧ s.plat.pf = true ∧ 0 < l.open_ ∧ l.filled = false ∧
      l.openAt + 100000000 ≤ s.ht.now.toNat
    (¬due → exec .pageCommitTimer s = .next s) ∧
    (due → exec .pageCommitTimer s = .next ({ s with log := { l with filled := true } } : State).progIfDue) ∧
    (l.prog = none ∨ s.plat.powered = false → exec .pageProgramComplete s = .next s) ∧
    (∀ n t, l.prog = some (n, t) → s.plat.powered = true → exec .pageProgramComplete s =
      .next ({ s with log := { l with prog := none, commit := BitVec.ofNat 48 n,
                                      recs := l.recs.filter (fun x => n < x.lseq.toNat + 262144) } } : State).progIfDue) ∧
    (l.prog = none → s.plat.pf = true → (l.open_ = 256 ∨ l.filled = true) → s.progIfDue.log.prog = some ((l.next - 1).toNat, s.ht.now.toNat)))

/-! ### Platform -/

/-- R309, R324, R354, R355: the pins BOOT are sampled only without power, BOOT[2] only in BLANK; POWER_UP,
with PERST# and PF# high (log 54), gives power, starts the control cores with the image that BOOT chooses, or
in recovery mode where none is good, and sets every cursor at the oldest record; recovery, and an image that
is new or another than the one that ran last (log 42), set ATTN.LIFECYCLE. -/
def PowerUpStarts : Prop :=
  ∀ (s : State) (b : BitVec 3),
    (s.plat.powered = true → exec (.bootSample b) s = .next s ∧ exec .powerUp s = .next s) ∧
    (s.plat.powered = false → exec (.bootSample b) s =
      .next { s with plat := { s.plat with boot := if s.fuses.lcs = 0 then b else b &&& 3 } }) ∧
    (s.plat.powered = false → Yields (exec .powerUp s) (fun t =>
      t.plat.powered = true ∧ t.plat.running = true ∧ t.plat.perst = true ∧ t.plat.pf = true ∧ t.hbm = s.hbm ∧ t.fuses = s.fuses ∧
      (∀ f, f < 4 → (t.fn f).cursor = s.log.oldest) ∧
      (bootImage s.plat.boot s.plat.fwImgA s.plat.fwImgB s.fuses.lcs = none → t.plat.recovery = true ∧ (t.fn 0).attn.getLsbD 6 = true) ∧
      (∀ i, bootImage s.plat.boot s.plat.fwImgA s.plat.fwImgB s.fuses.lcs = some i → t.plat.recovery = false ∧ t.plat.fwB = i ∧
        let x := if i then s.plat.fwImgB else s.plat.fwImgA
        (if i then t.plat.fwImgB else t.plat.fwImgA) = { x with fresh := false } ∧
        (x.fresh = true ∨ s.plat.recovery = true ∨ s.plat.fwB ≠ i → (t.fn 0).attn.getLsbD 6 = true))))

/-- R356: the falling edge of PERST# resets every function, but for its event cursor (log 54), and starts an
L3 that lasts while the pin is low. -/
def PerstResets : Prop :=
  ∀ s : State,
    (s.plat.powered = false ∨ s.plat.perst = false → exec .perstEdge s = .next s) ∧
    (s.plat.powered = true → s.plat.perst = true → Yields (exec .perstEdge s) (fun t =>
      t.plat.perst = false ∧ t.plat.running = false ∧ (∃ q, t.resets = [q] ∧ q.level = 3) ∧ t.plat.pcie = {} ∧
      ∀ f, f < 4 → (t.fn f).rings = [] ∧ (t.fn f).vecs = [] ∧ (t.fn f).d3 = false ∧ (t.fn f).cursor = (s.fn f).cursor)) ∧
    (s.plat.powered = false ∨ s.plat.perst = true → exec .perstRise s = .next s) ∧
    (s.plat.powered = true → s.plat.perst = false → exec .perstRise s = .next { s with plat := { s.plat with perst := true } })

/-- R301, R384 to R387: PF# low sends GOING_AWAY twice, with the module's HDID, in adjacent words of every
port that is UP or DEGRADED, and stops the fast clocks of every cluster (in STANDBY only the edge is latched);
PF# high again starts an L3; without its rails the module keeps its fuses, its committed records and its
images, and nothing else. -/
def PowerFails : Prop :=
  ∀ s : State,
    let t := s.raise 0 evPowerFail noInfo
    let off := fun (u : State) => ({ u with plat := { u.plat with pf := false, pfAt := u.ht.now.toNat, fwBy := none } } : State)
    (s.plat.powered = false ∨ s.plat.pf = false → exec .powerFail s = .next s) ∧
    (s.plat.powered = true → s.plat.pf = true → s.plat.pstate = .standby → exec .powerFail s = .next (off t)) ∧
    (s.plat.powered = true → s.plat.pf = true → s.plat.pstate ≠ .standby → exec .powerFail s = .next (off t.goingAway.stopClocks)) ∧
    ((∀ p, p < 16 → (s.port p).tx.syms = []) → s.plat.pf = true →
      let u := s.goingAway
      let word := fun (p : Nat) => Out.word p (symWord 0x20 s.hdid.toNat)
      u = { s with ports := u.ports, outs := u.outs } ∧ (∀ p, p < 16 → u.port p = s.port p) ∧
      u.outs = ((List.range 16).filter (fun p => (s.port p).link.st = .up ∨ (s.port p).link.st = .degraded)).foldl
        (fun o p => word p :: word p :: o) s.outs) ∧
    (∀ i, i < 32 → let x := s.cluster i
      s.stopClocks.cluster i = { x with
        clk := .stopped
        want := x.want || decide (x.clk = .starting)
        since := if x.clk = .stopped then x.since else s.ht.now.toNat }) ∧
    (s.plat.powered = false ∨ s.plat.pf = true → exec .pfRise s = .next s) ∧
    (s.plat.powered = true → s.plat.pf = false → Yields (exec .pfRise s) (fun u =>
      u.plat.pf = true ∧ u.plat.running = false ∧ (∃ q, u.resets = [q] ∧ q.level = 3) ∧ (∀ p, p < 16 → (u.port p).link.st = .down) ∧
      ∀ c ∈ allCtx, u.ctx c = { epoch := (s.ctx c).epoch })) ∧
    (s.plat.powered = false → exec .railLoss s = .next s) ∧
    (s.plat.powered = true → Yields (exec .railLoss s) (fun u =>
      u.fuses = s.fuses ∧ u.plat.powered = false ∧ u.plat.fwImgA = s.plat.fwImgA ∧ u.plat.fwImgB = s.plat.fwImgB ∧ u.plat.fwB = s.plat.fwB ∧ u.plat.recovery = s.plat.recovery ∧ u.hostMem = s.hostMem ∧
      u.hbm = [] ∧ u.tiles = [] ∧ u.ctxs = [] ∧ u.dies = [] ∧ u.ports = [] ∧ u.cfg = none ∧ u.resets = [] ∧
      (let kept := fun (c : BitVec 48) => u.log.commit = c ∧ u.log.next = c + 1 ∧ u.log.open_ = 0 ∧ u.log.prog = none ∧
         ∀ x, x ∈ u.log.recs ↔ x ∈ s.log.recs ∧ x.lseq.toNat < (c + 1).toNat ∧ (s.log.prog ≠ none → c.toNat < x.lseq.toNat + 262144)
       (s.log.prog = none → kept s.log.commit) ∧ ∀ n t, s.log.prog = some (n, t) → n < 2 ^ 48 → kept (BitVec.ofNat 48 n))))

/-- R44, R46, R357, R358, R387: after 1 ms without a demand the module is IDLE, its clusters without a demand
are gated and trained HBM is in self-refresh; with every function in D3hot and no context running it enters
STANDBY: the ports are DOWN, hall time is in holdover, the log is committed; a function in D0 or a latched
edge wakes it (which cause the ports have, which clusters of an idle module are gated and what a wake starts
are log 53): HBM leaves self-refresh, the clusters that were asked for start, unless a trip bars them, the
ports try again, and what Function Level Resets left to do is done (log 43). -/
def PowerStatesChange : Prop :=
  ∀ s : State,
    let idle := s.controlRuns = true ∧ s.plat.pstate = .active ∧ s.busy = false ∧ s.plat.idleAt + 1000000 ≤ s.ht.now.toNat
    let still := s.controlRuns = true ∧ s.plat.pf = true ∧ (∀ f, f < 4 → (s.fn f).d3 = true) ∧ ∀ e ∈ s.ctxs, e.2.st ≠ .running
    let up := s.plat.powered = true ∧ s.plat.pf = true ∧ s.plat.pstate = .standby ∧ ((∃ f, f < 4 ∧ (s.fn f).d3 = false) ∨
      ∃ d, d < 4 ∧ ((s.die d).evc.full.getLsbD 1 = true ∨ (s.die d).evc.full.getLsbD 2 = true))
    (¬idle → exec .idleEntry s = .next s) ∧
    (idle → Yields (exec .idleEntry s) (fun t => t.plat = { s.plat with pstate := .idle, hbmSr := s.plat.hbmUp } ∧ t.tiles = s.tiles ∧ t.ctxs = s.ctxs ∧
      ∀ i, i < 32 → t.cluster i = (if (s.cluster i).clk = .running ∧ s.hasDemand i = false then
        { s.cluster i with clk := .gating, since := s.ht.now.toNat } else s.cluster i))) ∧
    (¬still → exec .standbyEntry s = .next s) ∧
    (still → Yields (exec .standbyEntry s) (fun t => t.plat.pstate = .standby ∧ (∀ p, p < 16 → (t.port p).link.st = .down) ∧
      (s.ht.st ≠ .free → t.ht.st = .holdover) ∧ t.log.open_ = 0 ∧ t.log.prog = none ∧ (∀ e ∈ t.clusters, e.2.clk = .stopped) ∧
      (t.log.next ≠ s.log.next ∨ s.log.open_ ≠ 0 ∨ s.log.prog ≠ none → t.log.commit = t.log.next - 1))) ∧
    (¬up → exec .standbyWake s = .next s) ∧
    (up → let w : State := { s with plat := { s.plat with pstate := .active, idleAt := s.ht.now.toNat, hbmSr := false } }
      let go := fun (u : State) => forAll [0, 1, 2, 3]
        (fun u g => ((u.setFn g { u.fn g with orphans := [] }).movePhys g (u.fn g).orphans).nextFlr g)
        (forAll (List.range 16) (fun t p => t.portTry p false) u)
      (s.plat.trip = true → exec .standbyWake s = .next (go w)) ∧
      (s.plat.trip = false → exec .standbyWake s = .next (go
        { w with clusters := w.clusters.map (fun e => (e.1, if e.2.want = true ∧ e.2.clk = .stopped then
          { e.2 with clk := .starting, want := false, since := s.ht.now.toNat } else e.2)) })))

/-- R308, R310 to R312, R316: the lands without a row of the opcode table, whose events wait in State.pins
(log 55); the boundary-scan register has fourteen cells (log 61). TRST# low holds the TAP in reset; five edges
with TMS high reset it; IDCODE tells stepping, grade and manufacturer, bit 0 first; BYPASS is one bit; the
data register shifts towards TDO; EXTEST drives the output lands from its latch. The management bus answers
reads at its static and its dynamic address and takes no write. A trained link has a rate, a width, and flit
mode at 64 GT/s only. -/
def LandsAreServed : Prop :=
  (∀ (s : State) (e : PinEv) (es : List PinEv), s.pins = e :: es → s.takePin = ({ s with pins := es } : State).pinEvent e) ∧
  (∀ st : TapSt, ((((st.next true).next true).next true).next true).next true = .reset) ∧
  (∀ (s : State) (tms tdi : Bool), let t := s.setTrst true
    t.tap.st = .reset ∧ t.tap.ir = .idcode ∧ t.tck tms tdi = t) ∧
  (∀ s : State, s.idcode % 2 = 1 ∧ bits s.idcode 11 1 = Config.jedecCode.toNat ∧ bits s.idcode 27 12 = s.grade ∧
    bits s.idcode 31 28 = (if s.fuses.stepping = 0xB0 then 2 else 1)) ∧
  (∀ (n v i : Nat), i < n → (bitsOf n v)[i]? = some (v.testBit i)) ∧
  (∀ (s : State) (tms tdi : Bool), s.tap.trst = false →
    let t := s.tck tms tdi
    (s.tap.st ≠ .reset → t.tap.st = s.tap.st.next tms) ∧
    (s.tap.st = .capDr → s.tap.ir = .idcode → t.tap.drSh = bitsOf 32 s.idcode) ∧ (s.tap.st = .capDr → s.tap.ir = .bypass → t.tap.drSh = [false]) ∧
    (s.tap.st = .capDr → s.tap.ir = .sample ∨ s.tap.ir = .extest → t.tap.drSh = (List.range 14).map s.land) ∧
    (s.tap.st = .shDr → t.tap.drSh = s.tap.drSh.drop 1 ++ [tdi]) ∧ (s.tap.st = .shIr → t.tap.irSh = s.tap.irSh.drop 1 ++ [tdi]) ∧
    (s.tap.st = .upDr → s.tap.ir = .extest → t.tap.bsr = s.tap.drSh ∧ ∀ n, n < 14 → t.landOut n = s.tap.drSh.getD n false) ∧
    (s.tap.st = .upIr → (∀ b ∈ s.tap.irSh, b = true) → t.tap.st ≠ .reset → t.tap.ir = .bypass)) ∧
  (∀ (s : State) (a : BitVec 7) (off : Nat) (v : W32),
    let mine := a = 0x30 + s.plat.straps.zeroExtend 7 ∨ s.i3cDyn = some a
    (mine → s.pinEvent (.i3cRead a off) = s.emit (.i3c off (BitVec.ofNat 32 (s.mgmt off)))) ∧ (¬mine → s.pinEvent (.i3cRead a off) = s) ∧
    s.pinEvent (.i3cWrite a off v) = s) ∧
  (∀ s : State, s.mgmt 0 = s.grade + 2 ^ 16 * s.fuses.stepping.toNat ∧ s.mgmt 0x10 < 2 ^ 16 ∧
    (∀ p, p < 16 → ((s.mgmt 0x10).testBit p = true ↔ (s.port p).link.st = .up)) ∧
    (∀ d, d < 4 → (s.die d).rst.temp.toInt ≤ s.hotTemp) ∧ ∃ d, d < 4 ∧ (s.die d).rst.temp.toInt = s.hotTemp) ∧
  (∀ r w : Nat, let x := (pcieTrained r w).toNat
    1 ≤ bits x 3 0 ∧ bits x 3 0 ≤ 6 ∧ bits x 8 4 ∈ [1, 2, 4, 8, 16] ∧ (bits x 9 9 = 1 ↔ bits x 3 0 = 6))

/-- R308, R360, R361: every 100 µs the control step takes the junctions and the power: at 100 °C or above the
limit K falls by one, not below the mode's floor; at 95 °C or less and 95 % of the limit it rises by one, up
to 16; 120 °C, or ten steps in a row at the floor and 1.05 × the limit, trip the module. The 100 µs count from
the last step, THERM# and the reported temperatures follow in every state, K stands still during a trip, and a
trip by both causes counts as one by temperature (log 52). -/
def ThrottleSteps : Prop :=
  (∀ (s : State) (t : Temps) (p : Nat),
    let due := s.plat.powered = true ∧ s.plat.stepAt + 100000 ≤ s.ht.now.toNat
    let u := (({ s with plat := { s.plat with stepAt := s.ht.now.toNat, power := p } } : State).setTemps t).setTherm t
    let run := u.controlRuns = true ∧ u.plat.pf = true ∧ u.plat.trip = false
    let floor := if u.plat.envelope then 12 else 10
    let limit := if u.plat.envelope = true ∨ u.plat.change ≠ none then 1500 else 1800
    let high := if u.plat.k = floor ∧ 105 * limit < 100 * p then u.plat.overCnt + 1 else 0
    let w : State := { u with plat := { u.plat with overCnt := high } }
    let k := u.plat.k
    (¬due → exec (.throttleStep t p) s = .next s) ∧
    (due → ¬run → exec (.throttleStep t p) s = .next u) ∧
    (due → run → 120 ≤ hottest t → exec (.throttleStep t p) s = .next (w.trip false)) ∧
    (due → run → hottest t < 120 → 10 ≤ high → exec (.throttleStep t p) s = .next (w.trip true)) ∧
    (due → run → hottest t < 120 → high < 10 →
      (100 ≤ hottest t ∨ limit < p → exec (.throttleStep t p) s = .next (w.setK (max floor (k - 1)))) ∧
      (hottest t ≤ 95 → 100 * p ≤ 95 * limit → exec (.throttleStep t p) s = .next (w.setK (min 16 (k + 1)))) ∧
      (hottest t < 100 → p ≤ limit → (95 < hottest t ∨ 95 * limit < 100 * p) → exec (.throttleStep t p) s = .next (w.setK k)))) ∧
  (∀ (s : State) (i : Nat), i < 32 →
    ((s.cluster i).cyc % 16 ≠ 0 ∨ s.plat.pstate = .standby → exec (.throttleApply i) s = .next s) ∧
    ((s.cluster i).cyc % 16 = 0 → s.plat.pstate ≠ .standby → exec (.throttleApply i) s = .next (s.setCluster i { s.cluster i with k := max s.plat.k (if (s.cluster i).envelope then 12 else 10) }))) ∧
  (∀ (s : State) (t : Temps),
    let due := s.plat.powered = true ∧ s.plat.pf = true ∧ s.plat.trip = true ∧ s.plat.pstate ≠ .standby ∧
      (hottest t ≤ 100 ∨ (s.plat.tripPower = true ∧ s.plat.tripAt + 10000000 ≤ s.ht.now.toNat))
    (¬due → exec (.tripClear t) s = .next s) ∧
    (due → Yields (exec (.tripClear t) s) (fun u => u.plat.trip = false ∧ u.plat.k = (if s.plat.envelope then 12 else 10) ∧ u.ctxs = s.ctxs)))

/-- R361, R362, R390: a trip faults every RUNNING context with cause TRIP, stops every cluster's fast clocks
and is counted on each die, as one by temperature where both causes meet (log 52). -/
def TripsStopEverything : Prop :=
  ∀ (s : State) (b : Bool), let t := s.trip b
    t.plat.trip = true ∧ t.plat.tripPower = b ∧ (∀ e ∈ t.clusters, e.2.clk = .stopped) ∧
    (∀ c ∈ allCtx, (s.ctx c).st = .running → (t.ctx c).st = .faulted) ∧ (∀ c ∈ allCtx, (s.ctx c).st ≠ .running → (t.ctx c).st = (s.ctx c).st) ∧
    (∀ d, d < 4 → (t.die d).rst.trips = satAdd (s.die d).rst.trips 1)

/-! ### Watchdogs and resets -/

/-- R363 to R365, R389: a RUNNING context past T_cs + LIMIT (1 s where LIMIT is 0) raises SS_WATCHDOG and
faults; an engine whose monitor has counted to the limit of its class (0 acts as 1 µs) raises ENGINE_HANG with
its number, faults the context of its oldest work with HANG (RST_FAULT names the event, log 51) and is reset at
L1. The work of a die's DMA group is its contexts' transfers and units in flight, by the time of issue, and that of
an HBM controller the requests in its queue, whichever die's DMA group made them, in their order (log 49). A monitor
counts on while its engine holds work, begins when work comes (log 49), and stops without it. -/
def WatchdogsFault : Prop :=
  (∀ (s : State) (c : CtxRef), c.ok = true →
    let d := servingDie s.layout c.part
    let lim := (sget 0 (s.die d).rst.wdog c.slot).toNat
    let late := (s.ctx c).st = .running ∧ (s.ctx c).run.wdogAt + 1000 * (if lim = 0 then 1000000 else lim) < s.ht.now.toNat
    let t := s.raise d evSsWatchdog (s.infoCtx c 0)
    (¬late → exec (.ssWatchdog c) s = .next s) ∧
    (late → exec (.ssWatchdog c) s = .next (t.faultCtx c causeWatchdog evSsWatchdog) ∧ ((t.faultCtx c causeWatchdog evSsWatchdog).ctx c).st = .faulted)) ∧
  (∀ (s : State) (e : BitVec 16),
    let d := bits e.toNat 12 11
    let cls := bits e.toNat 15 13
    let go := engValid e = true ∧ s.pmFires e = true ∧ s.controlRuns = true ∧ s.resetOver 1 e (partOfDie s.layout d) = false
    let t := s.raise d evEngineHang { noInfo with names := [e.toNat] }
    (s.pmFires e = true ↔ ∃ a : Nat, s.pmFrom e = some a ∧
      a + 1000 * max 1 (sget (if cls = 0 then 100 else if cls = 1 then 2000 else 1000) (s.die d).rst.pmLim cls).toNat ≤ s.ht.now.toNat) ∧
    (¬go → exec (.engineHang e) s = .next s) ∧
    (go → s.engWork e = [] → exec (.engineHang e) s = .next (t.startL1 e none none)) ∧
    (∀ c cs, go → s.engWork e = c :: cs → exec (.engineHang e) s = .next ((t.faultCtx c causeHang evEngineHang).startL1 e none none))) ∧
  (∀ (s : State) (d : Nat) (c : CtxRef), d < 4 → c.ok = true →
    (c ∈ s.engWork (engId 2 d 0) ↔ s.oldestDma c d ≠ none) ∧
    (∀ cs, s.engWork (engId 2 d 0) = c :: cs → ∀ x ∈ allCtx, ∀ b, s.oldestDma x d = some b → ∃ a, s.oldestDma c d = some a ∧ a ≤ b) ∧
    (∀ f ∈ (s.die d).str.fly, f.cxh = s.cxh c → ∃ a, s.oldestDma c d = some a ∧ a ≤ f.born) ∧
    (s.dmaRuns c = true → ∀ t ∈ (s.ctx c).tidsOn d, ∀ b ∈ (s.tile t).births, ∃ a, s.oldestDma c d = some a ∧ a ≤ b) ∧
    ∀ k, k < 5 → let mine := fun (q : HbmReq) => q.stack = 5 * d + k ∧ s.cxh (cxhSlot q.cxh) = q.cxh
      (c ∈ s.engWork (engId 4 d k) ↔ ∃ q ∈ (s.die d).str.hbmq, mine q ∧ cxhSlot q.cxh = c) ∧
      (∀ cs, s.engWork (engId 4 d k) = c :: cs → ∃ a q b, (s.die d).str.hbmq = a ++ q :: b ∧ mine q ∧ cxhSlot q.cxh = c ∧ ∀ y ∈ a, ¬mine y)) ∧
  (∀ (now : Nat) (at_ : Option Nat), pmNext now false at_ = none ∧ (at_ = none → pmNext now true at_ = some now) ∧ (at_ ≠ none → pmNext now true at_ = at_)) ∧
  (∀ (s : State) (k : Nat), (s.monitors.tile k) = { s.tile k with pmAt :=
    if (s.tiles.any (fun x => decide (x.1 = k))) = true then pmNext s.ht.now.toNat (s.coreBusy k (s.tile k)) (s.tile k).pmAt else none })

/-- R18, R112, R358, R363, R389: the fault records of a die d. RST_CTXSTAT of the context's slot takes the cause,
SRC for cause EVENT only, and the SSN; the other slots keep theirs. RST_FAULT and RST_FAULTHT take the CXH, the
event, the cause and the time if V is 0, or if the record they hold is of the same cycle and this fault goes
before it: with cause HANG before the others, then in the lower slot. Else they keep theirs, and a record of this
nanosecond is kept by the side, by the same order, for a host write that clears V in it (log 2). Nothing else of the
module changes. A context that can fault is FAULTED afterwards, with these records on the dies of its partition and
unchanged ones on the others. -/
def FaultsAreRecorded : Prop :=
  (∀ (s : State) (c : CtxRef) (cause src d : Nat), cause < 8 → src < 512 →
    let old := (s.die d).rst
    let t := s.faultDie c cause src d
    let rec_ := (t.die d).rst
    let w := (sget 0 rec_.ctxStat c.slot).toNat
    let a := 8 * (2 ^ 24 * d + 0xB0100) + 63
    let before : W64 → Prop := fun w => (cause = 3 ∧ bits w.toNat 27 25 ≠ 3) ∨ ((cause = 3 ↔ bits w.toNat 27 25 = 3) ∧ c.slot < bits w.toNat 13 11)
    let first := bit old.fault.toNat 63 = false ∨ (old.faultHt = s.ht.now ∧ before old.fault)
    t = { s with dies := t.dies, fresh := t.fresh } ∧
    (∀ e, e ≠ d → t.die e = s.die e) ∧
    t.die d = { s.die d with rst := { old with ctxStat := rec_.ctxStat, fault := rec_.fault, faultHt := rec_.faultHt } } ∧
    (∀ k, k ≠ c.slot → sget 0 rec_.ctxStat k = sget 0 old.ctxStat k) ∧
    (bits w 2 0 = cause ∧ bits w 11 3 = (if cause = 1 then src else 0) ∧ bits w 63 32 = (s.ctx c).run.ssn.toNat) ∧
    ∃ v : W64, bits v.toNat 15 0 = (s.cxh c).toNat ∧ bits v.toNat 24 16 = src ∧ bits v.toNat 27 25 = cause ∧ bits v.toNat 62 28 = 0 ∧ bit v.toNat 63 = true ∧
      (first → rec_.fault = v ∧ rec_.faultHt = s.ht.now ∧ t.fresh = (s.hwSet a).fresh) ∧
      (¬first → rec_.fault = old.fault ∧ rec_.faultHt = old.faultHt ∧
        (s.newRec a = none → t.newRec a = some v) ∧
        (∀ r, s.newRec a = some r → (bit r.toNat 63 = false ∨ before r → t.newRec a = some v) ∧ (¬(bit r.toNat 63 = false ∨ before r) → t.fresh = s.fresh)))) ∧
  (∀ (s : State) (c : CtxRef) (cause src d : Nat), (s.ctx c).st ≠ .free → (s.ctx c).st ≠ .tearing → (s.ctx c).st ≠ .faulted →
    let t := s.faultCtx c cause src
    let old := (s.die d).rst
    let rec_ := ((s.faultDie c cause src d).die d).rst
    let new := (t.die d).rst
    (t.ctx c).st = .faulted ∧
    (d ∈ diesOf s.layout c.part → new.ctxStat = rec_.ctxStat ∧ new.fault = rec_.fault ∧ new.faultHt = rec_.faultHt) ∧
    (d ∉ diesOf s.layout c.part → new.ctxStat = old.ctxStat ∧ new.fault = old.fault ∧ new.faultHt = old.faultHt))

/-- R369, R370, R374: RESET_ESCALATE starts the level that it names on a target the function may reset, and is
BUSY where that reset, a higher one over it or an L4 already runs; a reset of tiles past half its budget fences
them, but not in STANDBY. -/
def ResetsEscalate : Prop :=
  (∀ (s : State) (r : RingRef) (w : CmdWords),
    let n := fld w.w1 2 0
    Accepted s r w { op := 0x90, cxh := true, masks := [0xFFFF001F], lock := if 3 ≤ n ∧ n ≤ 4 then some 8 else none } →
    let t := s.take r w
    let cxh : BitVec 16 := BitVec.ofNat 16 (bits w.w0.toNat 31 16)
    let e : BitVec 16 := BitVec.ofNat 16 (fld w.w1 31 16)
    let p := fld w.w1 4 3
    let ep := partOfDie t.layout (bits e.toNat 12 11)
    let bad := exec (.resetEscalate r w) s = .next (t.replyCode r codeBadParam)
    let busy := exec (.resetEscalate r w) s = .next (t.replyCode r codeBusy)
    (n = 0 → t.checkCxh r.pf cxh = none → bad) ∧
    (∀ c, n = 0 → t.checkCxh r.pf cxh = some c → t.resetOver 2 0 c.part = true → busy) ∧
    (∀ c, n = 0 → t.checkCxh r.pf cxh = some c → t.resetOver 2 0 c.part = false → exec (.resetEscalate r w) s = .next (t.removeCtx c .teardown (some r))) ∧
    (n ≠ 0 → cxh ≠ 0 → bad) ∧
    (∀ (l p' : Nat) (x : BitVec 16), t.resetOver l x p' = true ↔ t.plat.pwrCycle = true ∨ ∃ q ∈ t.resets, l ≤ q.level ∧
      ((q.level = 1 ∧ l = 1 ∧ q.target = x) ∨ (q.level = 2 ∧ q.part = p') ∨ 3 ≤ q.level)) ∧
    (n = 1 → cxh = 0 →
      (engValid e = false ∨ (r.pf ≠ 0 ∧ ep ≠ r.pf) → bad) ∧
      (engValid e = true → (r.pf = 0 ∨ ep = r.pf) → t.resetOver 1 e ep = true → busy) ∧
      (engValid e = true → (r.pf = 0 ∨ ep = r.pf) → t.resetOver 1 e ep = false → exec (.resetEscalate r w) s = .next (t.startL1 e (some r) none))) ∧
    (n = 2 → cxh = 0 →
      (nParts t.layout ≤ p ∨ (r.pf ≠ 0 ∧ p ≠ r.pf) → bad) ∧
      (p < nParts t.layout → (r.pf = 0 ∨ p = r.pf) → t.resetOver 2 0 p = true → busy) ∧
      (p < nParts t.layout → (r.pf = 0 ∨ p = r.pf) → t.resetOver 2 0 p = false → exec (.resetEscalate r w) s = .next (t.startL2 p (some r) [] false))) ∧
    (3 ≤ n → cxh = 0 → (4 < n ∨ r.pf ≠ 0) → bad) ∧
    (n = 3 ∨ n = 4 → cxh = 0 → r.pf = 0 → t.plat.pwrCycle = true → busy) ∧
    (n = 3 → cxh = 0 → r.pf = 0 → t.plat.pwrCycle = false → exec (.resetEscalate r w) s = .next (t.startL3 (some r) [] none false)) ∧
    (n = 4 → cxh = 0 → r.pf = 0 → t.plat.pwrCycle = false → exec (.resetEscalate r w) s =
      .next (({ t with plat := { t.plat with pwrCycle := true } } : State).replyCode r codeOk))) ∧
  (∀ (s : State) (tid : Nat), tid < 8192 →
    let due := ∃ q ∈ s.resets, ((q.level = 2 ∧ q.part = partOfDie s.layout (tid / 2048) ∧ q.start + 2500000 ≤ s.ht.now.toNat) ∨
      (q.level = 3 ∧ q.start + 40000000 ≤ s.ht.now.toNat))
    (¬due ∨ s.plat.pstate = .standby → exec (.tileFence tid) s = .next s) ∧
    (due → s.plat.pstate ≠ .standby → exec (.tileFence tid) s = .next (s.setTile tid { s.tile tid with fenced := true })))

/-- R44, R202, R205, R367 to R372: a reset that completes leaves the list; an L1 resets its engine and keeps
SRAM; an L2 leaves the tiles of its partition that are not fenced as at reset, its accumulators zero, its bank
groups ON, its windows closed and the watch slots, flags, links and check units of its dies free, and starts the
scrubs of its contexts; neither ends in STANDBY. An L3 ends once nothing holds it, PF# low among it (log 50):
every context is gone, no configuration stands, HBM is as after power-on, the locks are open, which sets
ATTN.LIFECYCLE where one was set (R324), and the control cores run. -/
def ResetsComplete : Prop :=
  ∀ (s : State) (n : Nat),
    (s.resets[n]? = none → exec (.resetComplete n) s = .next s) ∧
    ∀ x, s.resets[n]? = some x →
      (x.level = 0 → exec (.resetComplete n) s = .next s) ∧
      (x.level ≤ 2 → s.plat.pstate = .standby → exec (.resetComplete n) s = .next s) ∧
      (x.level = 1 → s.plat.pstate ≠ .standby → exec (.resetComplete n) s =
        .next ((({ s with resets := s.resets.eraseIdx n } : State).resetEngine x.target).replyTo x.owner codeOk 0 0 0)) ∧
      (x.level = 1 → s.plat.pstate ≠ .standby → bits x.target.toNat 15 13 = 0 → Yields (exec (.resetComplete n) s) (fun t =>
        let k := 2048 * bits x.target.toNat 12 11 + bits x.target.toNat 10 0
        t.tile k = { s.tile k with thr := [], queues := [], handles := [], store := [], dmaHeld := none, fenced := false } ∧
        t.resets = s.resets.eraseIdx n ∧ t.hbm = s.hbm)) ∧
      (x.level = 2 → s.plat.pstate ≠ .standby → Yields (exec (.resetComplete n) s) (fun t =>
        let here := fun (d : Nat) => d < 4 ∧ partOfDie s.layout d = x.part
        t.resets = s.resets.eraseIdx n ∧
        (∀ k, k < 8192 → here (k / 2048) → (s.tile k).fenced = false → (t.tile k).sram = [] ∧ (t.tile k).thr = [] ∧ (t.tile k).store = []) ∧
        (∀ i, i < 32 → here (i / 8) → (t.cluster i).g1 = {} ∧ (t.cluster i).g2 = {} ∧ (t.cluster i).scale = [] ∧
          ∀ k, k < 3 → ((t.cluster i).engine k).q = [] ∧ ((t.cluster i).engine k).acc = []) ∧
        (∀ i, i < 256 → (s.win i).open_ = true → (s.win i).lcxh.toNat / 2 ^ 14 = x.part → (t.win i).open_ = false) ∧
        (∀ i, i < 256 → (s.win i).lcxh.toNat / 2 ^ 14 ≠ x.part → t.win i = s.win i) ∧
        (∀ d, here d → (t.die d).watch = [] ∧ (t.die d).flg = {} ∧ (t.die d).str = {} ∧ (t.die d).budget = []) ∧
        (∀ p, p < 16 → here (p / 4) → (t.port p).xch = {} ∧ ((t.port p).link.st = .down ∨ (t.port p).link.st = .detect)) ∧
        (∀ f ∈ t.flights, f.ctx.part ≠ x.part) ∧
        (∀ k td, k < 8 → (s.ctx ⟨x.part, k⟩).td = some td → td.kind = .level2 → td.wiped = false →
          ∃ u, (t.ctx ⟨x.part, k⟩).td = some u ∧ u.wiped = true ∧ u.due = s.ht.now.toNat + s.scrubNs ⟨x.part, k⟩))) ∧
      (let free := s.plat.powered = true ∧ s.plat.perst = true ∧ s.plat.pf = true ∧ s.plat.pwrCycle = false
       (x.level = 3 → ¬free → exec (.resetComplete n) s = .next s) ∧
       (x.level = 3 → free → Yields (exec (.resetComplete n) s) (fun t =>
         t.resets = [] ∧ t.cfg = none ∧ t.layout = .p1 ∧ t.parts = 1 ∧ t.ctxs = [] ∧ t.hbm = [] ∧ t.plat.lock = 0 ∧ t.plat.running = true ∧
         t.fuses.dis = s.fuses.dis ∧ t.fuses.lcs = x.lcs.getD s.fuses.lcs ∧ (s.plat.lock ≠ 0 → (t.fn 0).attn.getLsbD 6 = true) ∧
         (∀ k, k < 8192 → (t.tile k).sram = [] ∧ (t.tile k).thr = []) ∧
         (∀ e ∈ t.tiles, e.2 = { fenced := true } ∧ ∃ y, (e.1, y) ∈ s.tiles ∧ y.fenced = true) ∧ ∀ f, f < 4 → (t.fn f).cursor = s.log.oldest)))

/-- R367, R369: a reset past its budget is forced: an L0 becomes an L1 of the engines that still hold its
items, an L1 and an L2 the next level up, an L3 a power cycle; each counts in FORCED and raises RESET_FORCED, on
the serving die for an L0 that no engine holds and for an L2, on die 0 for an L3 (log 50), naming the level and
the engine that held it (of an L2 or L3 one that the spec does not give, log 50); within its budget, in STANDBY,
and where it is no longer needed, nothing happens. -/
def ResetBudgetsForce : Prop :=
  ∀ (s : State) (n : Nat),
    (s.resets[n]? = none → exec (.resetBudgetExpiry n) s = .next s) ∧
    ∀ x, s.resets[n]? = some x →
      let budget := if x.level = 0 then 200000 else if x.level = 1 then 50000 else if x.level = 2 then 5000000 else 80000000
      let past := x.start + budget ≤ s.ht.now.toNat ∧ s.plat.pstate ≠ .standby
      let rest : State := { s with resets := s.resets.eraseIdx n }
      let held := Config.heldEngine s.free
      (¬past → exec (.resetBudgetExpiry n) s = .next s) ∧
      (∀ c td, past → x.level = 0 → x.ctx = some c → (s.ctx c).td = some td →
        let due := td.wiped = false ∧ td.forced = none ∧ s.drained c = false
        (due → exec (.resetBudgetExpiry n) s = .next (s.forceL0 c td)) ∧ (¬due → exec (.resetBudgetExpiry n) s = .next s)) ∧
      (past → x.level = 1 → exec (.resetBudgetExpiry n) s = .next (rest.forceL1 x)) ∧
      (past → x.level = 2 → exec (.resetBudgetExpiry n) s = .next ((({ rest with free := s.free + 1 } : State).recordForced (servingDie s.layout x.part) 2 held).startL3 none
        (x.owner.toList ++ x.late ++ s.forcedOwners x.part) none false)) ∧
      (past → x.level = 3 → s.plat.pwrCycle = true → exec (.resetBudgetExpiry n) s = .next s) ∧
      (past → x.level = 3 → s.plat.pwrCycle = false → exec (.resetBudgetExpiry n) s =
        .next (let t : State := ({ s with free := s.free + 1 } : State).recordForced 0 3 held
          { t with plat := { t.plat with pwrCycle := true } })) ∧
      (∀ (d l : Nat) (e : BitVec 16), d < 4 → let y : State := s.setDie d { s.die d with rst := { (s.die d).rst with forced := satAdd (s.die d).rst.forced 1 } }
        s.recordForced d l e = y.raise d evResetForced { noInfo with names := [l, e.toNat] }) ∧
      (∀ (c : CtxRef) (td : Td), c.ok = true → let es := s.heldEngines c
        let t := s.forceL0 c td
        (∀ e, e ∈ es ↔ (∃ k ∈ (s.ctx c).tids, e = engId 0 (k / 2048) (k % 2048) ∧ ((s.tile k).msgsOut ≠ 0 ∨ ∃ f ∈ s.flights, f.cxh = s.oldCxh c ∧ f.src = k)) ∨
          (∃ d, d < 4 ∧ e = engId 2 d 0 ∧ ∃ f ∈ (s.die d).str.fly, f.cxh = s.oldCxh c) ∨
          (∃ d k, d < 4 ∧ k < 5 ∧ e = engId 4 d k ∧ ∃ q ∈ (s.die d).str.hbmq, q.cxh = s.oldCxh c ∧ q.wr = true ∧ q.stack = 5 * d + k) ∨ ∃ p, p < 16 ∧ e = engId 3 (p / 4) (p % 4) ∧ s.drainPort (s.oldCxh c) p ≠ 0) ∧
        t.resets.filter (fun q => q.level = 1) = s.resets.filter (fun q => q.level = 1) ++
          es.map (fun e => { level := 1, target := e, part := partOfDie s.layout (bits e.toNat 12 11), start := s.ht.now.toNat, owner := none, ctx := some c }) ∧
        ∀ q ∈ t.resets, ¬(q.level = 0 ∧ q.ctx = some c))

/-- R42, R363, R368, R371, R372: what a reset does as it starts. An L1 makes a victim of every context with work
in its engine (of a DMA group also of one whose transfers wait at a page fault), fences a tile and faults the tile's
context; an L2 takes every context of its partition out of service, gives every slot the next epoch, closes the
windows of those contexts, lifts the partition's fences and takes the place of the L0 and L1 in progress there;
an L3 destroys every context, closes every window, takes every port DOWN for CONFIG and stops the control cores.
A forced L1 of a tile faults the tile's context with FENCE and starts an L2. -/
def ResetsStart : Prop :=
  (∀ (s : State) (e : BitVec 16) (owner : Option RingRef) (o : Option CtxRef), engValid e = true →
    let t := s.startL1 e owner o
    let k := 2048 * bits e.toNat 12 11 + bits e.toNat 10 0
    let d := bits e.toNat 12 11
    let core := bits e.toNat 15 13 = 0
    let hit := fun (c : CtxRef) => c ∈ s.engWork e ∨ (bits e.toNat 15 13 = 2 ∧ c ∈ allCtx ∧ ∃ n ∈ (s.ctx c).tidsOn d,
        (∃ q ∈ (s.tile n).queues, q.2.reqs ≠ []) ∨ ∃ h ∈ (s.tile n).handles, h.2.active = true) ∨ (core ∧ s.ctxOfTile k = some c)
    let live := fun (c : CtxRef) => (s.ctx c).st ≠ .free ∧ (s.ctx c).st ≠ .tearing ∧ (s.ctx c).st ≠ .faulted
    t.resets = s.resets ++ [{ level := 1, target := e, part := partOfDie s.layout d, start := s.ht.now.toNat, owner := owner, ctx := o }] ∧
    (∀ c ∈ allCtx, hit c → live c → (t.ctx c).st = .faulted) ∧ (∀ c ∈ allCtx, ¬(hit c ∧ live c) → (t.ctx c).st = (s.ctx c).st) ∧
    (core → (t.tile k).fenced = true) ∧ (∀ c ∈ allCtx, (t.ctx c).epoch = (s.ctx c).epoch)) ∧
  (∀ (s : State) (p : Nat) (owner : Option RingRef) (late : List RingRef) (forced : Bool), p < 4 →
    let t := s.startL2 p owner late forced
    (∀ k, k < 8 → let c : CtxRef := ⟨p, k⟩
      let x := s.ctx c
      (t.ctx c).epoch = x.epoch + 1 ∧ (x.st = .free → (t.ctx c).st = .free) ∧ (x.st ≠ .free → t.checkCxh p (s.cxh c) = none) ∧
      (x.st ≠ .free → x.td = none → (t.ctx c).st = .tearing ∧ (∃ u, (t.ctx c).td = some u ∧ u.kind = .level2 ∧ u.wiped = false) ∧
        ∀ i, i < 256 → (s.win i).open_ = true → (s.win i).lcxh = s.cxh c → (t.win i).open_ = false) ∧
      (∀ td, x.st = .tearing → x.td = some td → (t.ctx c).st = .tearing ∧ ∃ u, (t.ctx c).td = some u ∧ u.wiped = td.wiped ∧
        (td.wiped = false → u.kind = .level2))) ∧
    (∀ c ∈ allCtx, c.part ≠ p → (t.ctx c).epoch = (s.ctx c).epoch ∧ ((s.ctx c).td = none → (t.ctx c).td = none)) ∧
    (∀ k, k < 8192 → partOfDie s.layout (k / 2048) = p → (t.tile k).fenced = false) ∧
    t.resets = s.resets.filter (fun q => !(decide (q.level ≤ 1) && decide (q.part = p))) ++ [{
      level := 2, target := 0, part := p, start := s.ht.now.toNat, owner := owner
      late := late ++ (s.resets.filter (fun q => decide (q.level = 1) && decide (q.part = p))).filterMap (fun q => q.owner) }]) ∧
  (∀ (s : State) (owner : Option RingRef) (late : List RingRef) (b : Bool),
    let t := s.startL3 owner late none b
    (∀ c ∈ allCtx, t.ctx c = { epoch := (s.ctx c).epoch }) ∧ t.wins = [] ∧ t.flights = [] ∧ t.lanes = [] ∧ t.freqs = [] ∧
    (∀ p, p < 16 → (t.port p).link.st = .down ∧ (t.port p).link.cause = 7) ∧ t.plat.running = false ∧ t.plat.cfgBy = none ∧ t.plat.fwBy = none ∧
    (∃ q, t.resets = [q] ∧ q.level = 3 ∧ q.start = s.ht.now.toNat ∧ q.owner = owner ∧ q.late = late) ∧
    ∀ r : RingRef, r.ok = true → (t.ring r).head = (s.ring r).head ∧ (t.ring r).seq = (s.ring r).seq ∧
      (some r ≠ owner → r ∉ late → (t.ring r).cur = none)) ∧
  (∀ (s : State) (q : Reset), let e := q.target
    let t := s.recordForced (bits e.toNat 12 11) 1 e
    let k := 2048 * bits e.toNat 12 11 + bits e.toNat 10 0
    (bits e.toNat 15 13 ≠ 0 ∨ t.ctxOfTile k = none → s.forceL1 q = t.startL2 q.part none q.owner.toList true) ∧
    (∀ c, bits e.toNat 15 13 = 0 → t.ctxOfTile k = some c → s.forceL1 q = (t.faultCtx c causeFence 0).startL2 q.part none q.owner.toList true))

/-- R300, R368: an L1 on its engine. A tile core loses its threads, registers, queues, handles and message store
and the waits of its DMA, and its fence is lifted; a Clover engine its queue and accumulators; a DMA group every
transfer on its die; a port goes DOWN and tries again; an HBM controller loses its queued requests. SRAM, HBM and
every other engine stay. -/
def EnginesReset : Prop :=
  ∀ (s : State) (e : BitVec 16), engValid e = true →
    let t := s.resetEngine e
    let cls := bits e.toNat 15 13
    let d := bits e.toNat 12 11
    let n := bits e.toNat 10 0
    let cid := 8 * d + n / 4
    (cls ≠ 3 → t.hbm = s.hbm ∧ t.ctxs = s.ctxs ∧ t.ports = s.ports ∧ (∀ k, k < 8192 → (t.tile k).sram = (s.tile k).sram) ∧
      (∀ k, k < 4 → k ≠ d → t.die k = s.die k) ∧ ∃ y : DieStr, t.die d = { s.die d with str := y } ∧
        y = { (s.die d).str with fly := y.fly, hbmq := y.hbmq, waitq := y.waitq }) ∧
    (cls ≠ 2 → cls ≠ 3 → (t.die d).str.fly = (s.die d).str.fly) ∧ (cls ≠ 4 → cls ≠ 3 → (t.die d).str.hbmq = (s.die d).str.hbmq) ∧
    (cls = 0 → (∀ k, k < 8192 → k ≠ 2048 * d + n → t.tile k = s.tile k) ∧ t.clusters = s.clusters ∧
      t.tile (2048 * d + n) = { s.tile (2048 * d + n) with thr := [], queues := [], handles := [], store := [], dmaHeld := none, fenced := false } ∧
      ∀ q, q ∈ (t.die d).str.waitq ↔ q ∈ (s.die d).str.waitq ∧ q.1 ≠ 2048 * d + n) ∧
    (cls = 1 → (∀ k, k < 32 → k ≠ cid → t.cluster k = s.cluster k) ∧ t.dies = s.dies ∧
      (∀ k, k < 3 → k ≠ n % 4 → (t.cluster cid).engine k = (s.cluster cid).engine k) ∧
      ((t.cluster cid).engine (n % 4)).q = [] ∧ ((t.cluster cid).engine (n % 4)).acc = [] ∧ ((t.cluster cid).engine (n % 4)).accOf = none) ∧
    (cls = 2 → (∀ k, k < 8192 → k / 2048 ≠ d → t.tile k = s.tile k) ∧ (t.die d).str.waitq = [] ∧
      (t.die d).str.fly = [] ∧
      ∀ k, k < 8192 → k / 2048 = d → (∀ q ∈ (t.tile k).queues, q.2.reqs = []) ∧ (∀ h ∈ (t.tile k).handles, h.2.active = false) ∧
        (t.tile k).dmaHeld = none ∧ (t.tile k).thr = (s.tile k).thr) ∧
    (cls = 3 → ∃ cause, t = (s.portDown (4 * d + n) cause).portTry (4 * d + n) false) ∧
    (cls = 4 → t.tiles = s.tiles ∧ t.clusters = s.clusters ∧ (t.die d).str.waitq = (s.die d).str.waitq ∧
      (t.die d).str.hbmq = (s.die d).str.hbmq.filter (fun q => q.stack ≠ 5 * d + n))

/-! ### Reset and invariants -/

/-- The module right after reset: memories list nothing, no context and one partition exist, no port carries
traffic, the log is empty, the queue of commands too; R38, R39, R154, R237, R296: the values of the spec. -/
def ResetState : Prop :=
  let s := State.reset
  s.pending = [] ∧ s.hbm = [] ∧ s.hostMem = [] ∧ s.tiles = [] ∧ s.ctxs = [] ∧ s.cfg = none ∧ s.layout = .p1 ∧ s.parts = 1 ∧ s.flights = [] ∧
  s.resets = [] ∧ s.log.recs = [] ∧ s.ht.st = .free ∧ s.ht.master = false ∧ s.ht.depth = 15 ∧ s.ht.bound = 0xFFFF ∧ s.plat.lock = 0 ∧
  (∀ p, p < 16 → (s.port p).link.st = .down ∧ (s.port p).link.ctl = 7) ∧ (∀ c, c.ok = true → (s.ctx c).st = .free ∧ (s.ctx c).epoch = 0)

/-- At reset the memories are in their canonical form, and no context has a cluster. -/
def ResetMeetsTheInvariants : Prop := MemoryOk State.reset ∧ OwnersOk State.reset

/-- Every step keeps the memories in their canonical form. -/
def StepsKeepMemoriesCanonical : Prop :=
  ∀ s t : State, MemoryOk s → step s = .next t → MemoryOk t

/-- R34, R35, R37, R39, R43: every step keeps the clusters of the contexts apart, enabled and in their partition. -/
def StepsKeepClustersApart : Prop :=
  ∀ s t : State, OwnersOk s → step s = .next t → OwnersOk t

/-- R4, R33: the fuses that disable a cluster never change; R372, R381: a lock bit that is set stays set but
for an L3 or a loss of power. -/
def FusesAndLocksHold : Prop :=
  ∀ s t : State, step s = .next t →
    t.fuses.dis = s.fuses.dis ∧ t.fuses.rowmap = s.fuses.rowmap ∧
    (∀ b, s.plat.lock.getLsbD b = true → t.plat.lock.getLsbD b = false →
      s.pending.head? = some .railLoss ∨ ∃ n x, s.pending.head? = some (.resetComplete n) ∧ s.resets[n]? = some x ∧ x.level = 3)

/-- A command's effect leaves the queue as it was. -/
def CommandsLeaveTheQueue : Prop :=
  ∀ (c : Instr) (s t : State), exec c s = .next t → t.pending = s.pending

/-! ### Rules stated whole -/

/-- R35: the partitions of the layouts P1, P2 and P4, by die, and the function that each is served by: a
context that a function's command may name lies in the function's partition. R41: a context handle is PART,
CTX, three zero bits and the slot's epoch, and names its slot back; PART is 0 in P1 and at most 1 in P2. -/
def PartitionsAndHandles : Prop :=
  ([0, 1, 2, 3].map (partOfDie .p1) = [0, 0, 0, 0] ∧ [0, 1, 2, 3].map (partOfDie .p2) = [0, 0, 1, 1] ∧
    [0, 1, 2, 3].map (partOfDie .p4) = [0, 1, 2, 3] ∧ nParts .p1 = 1 ∧ nParts .p2 = 2 ∧ nParts .p4 = 4) ∧
  (∀ (s : State) (f : Nat) (h : BitVec 16) (c : CtxRef), s.checkCxh f h = some c → c.part = f) ∧
  (∀ (s : State) (c : CtxRef), c.ok = true →
    (s.cxh c).extractLsb' 14 2 = BitVec.ofNat 2 c.part ∧ (s.cxh c).extractLsb' 11 3 = BitVec.ofNat 3 c.slot ∧ (s.cxh c).extractLsb' 8 3 = 0 ∧
    (s.cxh c).extractLsb' 0 8 = (s.ctx c).epoch ∧ cxhSlot (s.cxh c) = c) ∧
  (∀ (s : State) (f : Nat) (h : BitVec 16) (c : CtxRef), s.checkCxh f h = some c →
    h.extractLsb' 8 3 = 0 ∧ h = s.cxh c ∧ (s.layout = .p1 → c.part = 0) ∧ (s.layout = .p2 → c.part ≤ 1))

/-- R49: function 0 sees the whole BAR0 map, functions 1 to 3 the die spaces of their own partition while it
exists (log 56): an aligned 32-bit read elsewhere answers 0 and a write elsewhere changes no register (the
link leaves L1 as at every access, logs 44, 47); in P1 functions 1 to 3 see no die space. -/
def FunctionsSeeTheirDies : Prop :=
  (∀ (s : State) (d : Nat), s.sees 0 d = true) ∧
  (∀ (s : State) (f d : Nat), 0 < f → f < 4 → d < 4 → (s.sees f d = true ↔ partOfDie s.layout d = f ∧ s.partExists f = true)) ∧
  (∀ (s : State) (f d : Nat), s.layout = .p1 → 0 < f → s.sees f d = false) ∧
  (∀ (s : State) (f off : Nat) (v : RegValue) (k : RegW), f < 4 → s.hostUp = true → (s.fn f).d3 = false → off < 2 ^ 26 → s.sees f (off / 2 ^ 24) = false →
    (off % 8 = 0 → exec (.bar0LowWordRead f ⟨0, off, 4⟩) s = .next (((s.setL1 false).setFn f (s.fn f)).emit (.data32 f 0 off 0))) ∧
    (regW off v = some k → exec (.registerWrite (.host f) 0 off v) s = .next (s.setL1 false)))

/-- R341: a write of EVC_EOI pops the stack, and RUNPRI becomes the new top, or 16; on an empty stack it sets
EOI_ERR and changes nothing else; a push needs a priority strictly below the top, so the stack stays strictly
rising from its top with values below 16, and never holds more than 16 entries. -/
def EndOfEventPops : Prop :=
  (∀ (s : State) (d : Nat), d < 4 → s.controlRuns = true →
    let e := (s.die d).evc
    let put := fun (x : Evc) => s.setDie d { s.die d with evc := x }
    (e.stack = [] → exec (.evcEoi d) s = .next ((put { e with eoiErr := true }).hwSet (bar0Bit d 0xA0008 42))) ∧
    (∀ p ps, e.stack = p :: ps → exec (.evcEoi d) s = .next (put { e with stack := ps }) ∧
      ({ e with stack := ps } : Evc).runpri = ps.headD 16)) ∧
  (∀ (e : Evc) (now : Nat), (e.stack.Pairwise (· < ·) ∧ ∀ p ∈ e.stack, p < 16) →
    ((e.take now).stack.Pairwise (· < ·) ∧ ∀ p ∈ (e.take now).stack, p < 16) ∧ (e.eoi.stack.Pairwise (· < ·) ∧ ∀ p ∈ e.eoi.stack, p < 16) ∧ e.stack.length ≤ 16 ∧
    ∀ n, (e.atStart now).claim = some n → (e.take now).stack = e.prioOf n :: e.stack ∧ e.prioOf n < e.stack.headD 16)

/-- R386: PF# high again with the rails in tolerance: an L3 begins at the edge, and all volatile state counts
as lost: no context, window, message of a flag, unit in flight, configuration or port outlives it. -/
def PfRiseBeginsL3 : Prop :=
  ∀ s : State, s.plat.powered = true → s.plat.pf = false → Yields (exec .pfRise s) (fun t =>
    t.plat.pf = true ∧ t.plat.running = false ∧ (∃ q, t.resets = [q] ∧ q.level = 3 ∧ q.start = s.ht.now.toNat) ∧
    (∀ c ∈ allCtx, t.ctx c = { epoch := (s.ctx c).epoch }) ∧ t.wins = [] ∧ t.flights = [] ∧ t.lanes = [] ∧ t.freqs = [] ∧
    (∀ p, p < 16 → (t.port p).link.st = .down) ∧ t.plat.cfgBy = none ∧ t.plat.fwBy = none)

/-- R290: the frame check is CRC-32C, reflected, from all ones, inverted at the end, over the six BODY bytes
of the SOF, the 256 payload bytes and trailer bytes 4 to 7; the sender's trailer carries it, and a receiver
accepts a frame of eight units exactly where it matches. -/
def FrameCheckIsCrc32c : Prop :=
  (∀ bs : List Byte, crc32c bs = ~~~(bs.foldl (fun (a : W32) b => crc32Bits 8 (a ^^^ b.zeroExtend 32)) 0xFFFFFFFF)) ∧
  (∀ (n : Nat) (a : W32), crc32Bits 0 a = a ∧ crc32Bits (n + 1) a = crc32Bits n ((a >>> 1) ^^^ (if a.getLsbD 0 then 0x82F63B78 else 0))) ∧
  (∀ (k n tag seq fidx : Nat) (cxh : BitVec 16) (us : List W256), us.length = 8 → fidx < 2 ^ 24 →
    let f := mkFrame k n tag seq cxh us fidx
    let covered := toLE 6 (f.sof.toNat / 2 ^ 8) ++ f.payload.flatMap (fun u => toLE 32 u.toNat) ++ toLE 4 (f.trailer.toNat / 2 ^ 32)
    f.trailer.truncate 32 = crc32c covered ∧ Frame.crcOk f = true ∧ covered.length = 266) ∧
  (∀ f : Frame, Frame.crcOk f = true ↔ f.payload.length = 8 ∧
    f.trailer.truncate 32 = crc32c (toLE 6 (bits f.sof.toNat 55 8) ++ f.payload.flatMap (fun u => toLE 32 u.toNat) ++ toLE 4 (f.trailer.toNat / 2 ^ 32))) ∧
  crc32c [0x31, 0x32, 0x33, 0x34, 0x35, 0x36, 0x37, 0x38, 0x39] = 0xE3069283

/-- R38: after a reset of the module the layout is P1 with one partition 0 and no contexts, until PART_CREATE
sets another layout. -/
def ResetLayoutHoldsUntilPartCreate : Prop :=
  (State.reset.layout = .p1 ∧ State.reset.parts = 1 ∧ State.reset.ctxs = []) ∧
  (∀ (s : State) (n : Nat) (x : Reset), s.resets[n]? = some x → x.level = 3 → s.plat.powered = true → s.plat.perst = true → s.plat.pf = true →
    s.plat.pwrCycle = false → Yields (exec (.resetComplete n) s) (fun t => t.layout = .p1 ∧ t.parts = 1 ∧ t.ctxs = [])) ∧
  (∀ s t : State, step s = .next t → t.layout ≠ s.layout → (∃ r w, s.pending.head? = some (.partCreate r w)) ∨ t.layout = .p1)

end Sys2Proof.Claims

/-- A step takes the command at the front of the queue and runs it on the rest. -/
def Obligations.StepRunsFrontCommand : Prop :=
  Sys2Proof.Claims.StepRunsFrontCommand ∧ Sys2Proof.Claims.NoWordSpellsCommand

/-- The queue: a command's effect leaves it as it was, and an empty one lets a nanosecond pass. -/
def Obligations.QueueIsFirstInFirstOut : Prop :=
  Sys2Proof.Claims.EmptyQueueIdles ∧ Sys2Proof.Claims.CommandsLeaveTheQueue

/-- Every command that names units of the module completes in every state. -/
def Obligations.WellFormedCommandsComplete : Prop :=
  Sys2Proof.Claims.WellFormedCommandsComplete

/-- Class 0x0: what the 27 scalar instructions write, and that they change nothing else. -/
def Obligations.ScalarInstructionsWrite : Prop :=
  Sys2Proof.Claims.ScalarInstructionsWrite ∧ Sys2Proof.Claims.BitCountsAreRight

/-- Class 0x1: where each branch goes, JAL's link and JR's misaligned target. -/
def Obligations.BranchesGo : Prop :=
  Sys2Proof.Claims.BranchesGo

/-- Classes 0x2 and 0x3: loads read and stores write the bytes at sA + IMM, and nothing else; where they trap
instead, and where any instruction traps at its fetch. -/
def Obligations.LoadsAndStores : Prop :=
  Sys2Proof.Claims.LoadsRead ∧ Sys2Proof.Claims.StoresWrite ∧ Sys2Proof.Claims.VectorMemory ∧ Sys2Proof.Claims.LoadsAndStoresTrap ∧
    Sys2Proof.Claims.AccessesAreChecked ∧ Sys2Proof.Claims.FetchesTrap

/-- Class 0x3: the vector instructions lane by lane, and the reductions by their fixed tree; how the arithmetic
rounds, what it makes of NaN and infinities, and the limits of the conversions. -/
def Obligations.VectorArithmetic : Prop :=
  Sys2Proof.Claims.VectorArithmetic ∧ Sys2Proof.Claims.NumbersAreRounded ∧ Sys2Proof.Claims.ConversionsMeetTheirLimits ∧
    Sys2Proof.Claims.ArithmeticIsExactThenRounded

/-- QPUT, QGET, QWAIT and the trap of a thread. -/
def Obligations.QueueTokens : Prop :=
  Sys2Proof.Claims.QputEnqueuesOrTraps ∧ Sys2Proof.Claims.TokensAnswerBySequence ∧ Sys2Proof.Claims.TrapsStopTheThread

/-- Completion of queued requests and of held data accesses. -/
def Obligations.QueueRequestsComplete : Prop :=
  Sys2Proof.Claims.QueueRequestCompletes ∧ Sys2Proof.Claims.DataReplayCompletes

/-- SOPEN, SWAIT and SRELEASE of a stream's slots, and the tile cycle from which a slot's state counts. -/
def Obligations.StreamSlotsOpenWaitRelease : Prop :=
  Sys2Proof.Claims.SopenOpensOrTraps ∧ Sys2Proof.Claims.SwaitBySlotState ∧ Sys2Proof.Claims.SreleaseMovesSlot ∧ Sys2Proof.Claims.SlotsTurnAtCycles

/-- SEND, SENDW, RECV and POLL, and how waiting RECVs meet held messages. -/
def Obligations.MessagesSendReceivePoll : Prop :=
  Sys2Proof.Claims.SendDeparts ∧ Sys2Proof.Claims.RecvTakesOldestMatch ∧ Sys2Proof.Claims.PollCounts ∧ Sys2Proof.Claims.ReceiversArePaired

/-- FSET, FCLR, FWAIT, FWAITC and FENCE, and the times that waits are given. -/
def Obligations.FlagInstructionsAndWaits : Prop :=
  Sys2Proof.Claims.FlagInstructionsPost ∧ Sys2Proof.Claims.FenceWaitsForStores ∧ Sys2Proof.Claims.WaitTimes

/-- Class 0xA: SYNC, HALT and NOP. -/
def Obligations.ControlInstructions : Prop :=
  Sys2Proof.Claims.ControlInstructions

/-- CJOB posts a job where its queue and the scoreboard have room, UPD.SPLIT updates the planes of weights and
moments. -/
def Obligations.JobsAndUpdates : Prop :=
  Sys2Proof.Claims.CjobPostsOrTraps ∧ Sys2Proof.Claims.UpdSplitUpdatesPlanes ∧ Sys2Proof.Claims.UpdateArithmetic ∧ Sys2Proof.Claims.PostingsFindRoom ∧ Sys2Proof.Claims.UpdGroupsUpdateElements

/-- Arrival at the barrier, the overrun of the compute phase, and the misses of one nanosecond. -/
def Obligations.TilesArriveAtBarrier : Prop :=
  Sys2Proof.Claims.TilesArrive ∧ Sys2Proof.Claims.ComputeOverrunFaults ∧ Sys2Proof.Claims.InstantMissesFault

/-- Barrier completion and the start of the exchange phase. -/
def Obligations.BarriersComplete : Prop :=
  Sys2Proof.Claims.ExchangeStartOnGrid ∧ Sys2Proof.Claims.BarrierCompletes ∧ Sys2Proof.Claims.NearestTime

/-- ARRIVE and COMPLETE of the synchronisation network. -/
def Obligations.ThistleSymbolsAreTaken : Prop :=
  Sys2Proof.Claims.ArrivesAreTaken ∧ Sys2Proof.Claims.CompletesAreTaken

/-- The exchange phase begins, the next superstep begins on time or late, a HALT takes effect at the boundary. -/
def Obligations.SuperstepsTurn : Prop :=
  Sys2Proof.Claims.ExchangePhaseStarts ∧ Sys2Proof.Claims.NextSuperstepBegins ∧ Sys2Proof.Claims.LatenessIsSettled ∧
    Sys2Proof.Claims.HaltTakesEffect

/-- Exchange lists are read, units leave in their cycle, missing units fault. -/
def Obligations.ExchangeListsAndUnits : Prop :=
  Sys2Proof.Claims.ExchangeListsAreRead ∧ Sys2Proof.Claims.ExchangeUnitsLeave ∧ Sys2Proof.Claims.MissingUnitsFault

/-- Units cross the mesh by X and Y and land where a RECV entry expects them. -/
def Obligations.ExchangeUnitsTravel : Prop :=
  Sys2Proof.Claims.ExchangeUnitsHop ∧ Sys2Proof.Claims.RoutesReachTheirEnd ∧ Sys2Proof.Claims.ExchangeUnitsLand

/-- Numeric watch slots: how drained elements count, the step's end and CLEAR. -/
def Obligations.WatchSlotsCount : Prop :=
  Sys2Proof.Claims.WatchStepsClose ∧ Sys2Proof.Claims.WatchSlotsClear ∧ Sys2Proof.Claims.WatchSlotsCount

/-- Cluster clocks start, stop, run at K/16 of their rate and change mode at a boundary. -/
def Obligations.ClustersAndClocks : Prop :=
  Sys2Proof.Claims.ClusterClocks ∧ Sys2Proof.Claims.ClockRates ∧ Sys2Proof.Claims.ModesTurnAtBoundaries

/-- Output tiles start at s_0 + n P, and feed windows take their banks. -/
def Obligations.CloverTilesStart : Prop :=
  Sys2Proof.Claims.CloverTilesStart ∧ Sys2Proof.Claims.FeedWindowReadsLines

/-- Wavefronts accumulate in K order, drains write the results. -/
def Obligations.WavefrontsAndDrains : Prop :=
  Sys2Proof.Claims.WavefrontsComplete ∧ Sys2Proof.Claims.CellsAccumulateInOrder ∧ Sys2Proof.Claims.DrainUnitsAreWritten ∧
    Sys2Proof.Claims.ZoutUnitsAreWritten ∧ Sys2Proof.Claims.DrainFunctions

/-- Kc: the Clover cycles of the K steps of one output tile. -/
def Obligations.KStepCycles : Prop :=
  Sys2Proof.Claims.KStepCycles

/-- Output tiles and jobs end; the scale entry after a step. -/
def Obligations.CloverJobsEnd : Prop :=
  Sys2Proof.Claims.CloverTilesAndJobsEnd ∧ Sys2Proof.Claims.DelayedScaling

/-- Stream blocks, transfer units and the bytes they place, check units and late consumers. -/
def Obligations.StreamsAndTransfers : Prop :=
  Sys2Proof.Claims.StreamBlocksStartAndEnd ∧ Sys2Proof.Claims.TransferUnitsMove ∧ Sys2Proof.Claims.TransferUnitsPlaceBytes ∧
    Sys2Proof.Claims.CheckUnitsFoldInOrder ∧ Sys2Proof.Claims.LateConsumersAreMarked

/-- MMU invalidation and fault records; where a physical address lies. -/
def Obligations.TranslationAndPlacement : Prop :=
  Sys2Proof.Claims.MmuRegisterWrites ∧ Sys2Proof.Claims.PhysicalAddressesPlaced

/-- Messages at their destination, held and taken, replies and retries at the sender. -/
def Obligations.MessagesArriveAndReply : Prop :=
  Sys2Proof.Claims.MessagesArrive ∧ Sys2Proof.Claims.RepliesAndRetries ∧ Sys2Proof.Claims.MessagesAreHeld

/-- The flag arbiter, what one flag cycle serves, and waits whose time has passed. -/
def Obligations.FlagArbitersAndTimeouts : Prop :=
  Sys2Proof.Claims.WaitsTimeOut ∧ Sys2Proof.Claims.FlagArbiter ∧ Sys2Proof.Claims.FlagCyclesServe

/-- Cross-module slots: prefetch, windows and the frames that leave. -/
def Obligations.CrossModuleSlots : Prop :=
  Sys2Proof.Claims.SlotsArePrefetched ∧ Sys2Proof.Claims.SlotsKeepTheirWindows ∧ Sys2Proof.Claims.FramesLeave

/-- ACK, NAK, replay; 257-bit blocks and where their words go; the order of symbols; symbols and frames carry
good check codes. -/
def Obligations.ReplayAndBlocks : Prop :=
  Sys2Proof.Claims.ReplayKeepsTheLink ∧ Sys2Proof.Claims.BlocksAreTaken ∧ Sys2Proof.Claims.CheckCodesHold ∧
    Sys2Proof.Claims.BlocksCarryTheirWords ∧ Sys2Proof.Claims.BlockWordsGoWhereTheyBelong ∧ Sys2Proof.Claims.SymbolsLeaveInOrder

/-- Frames received: NAKed, dropped, or landed whole through a window. -/
def Obligations.FramesLand : Prop :=
  Sys2Proof.Claims.FramesAreReceived ∧ Sys2Proof.Claims.WindowsGuardMemory ∧ Sys2Proof.Claims.DigestsAreCompared

/-- The frame check: CRC-32C over the SOF's body, the payload and trailer bytes 4 to 7. -/
def Obligations.FrameCheckIsCrc32c : Prop :=
  Sys2Proof.Claims.FrameCheckIsCrc32c

/-- Reduction channels: units form from usable sources, backups replace missing ones. -/
def Obligations.ReductionChannels : Prop :=
  Sys2Proof.Claims.ChannelUnitsForm ∧ Sys2Proof.Claims.ReduceDeadlines ∧ Sys2Proof.Claims.BackupsReplaceMissingUnits

/-- Port states: training, loss, and LINK_CONTROL. -/
def Obligations.PortsTrainAndFail : Prop :=
  Sys2Proof.Claims.PortsTrain ∧ Sys2Proof.Claims.PortsGoDown ∧ Sys2Proof.Claims.LinksAreControlled

/-- The time-stamp exchange: requests, responses, delay and offset. -/
def Obligations.HallTimeStamps : Prop :=
  Sys2Proof.Claims.TimeStampsTravel ∧ Sys2Proof.Claims.TimeStampsSteer

/-- Lock, holdover, the timing tree and HALL_TIME_SET. -/
def Obligations.HallTimeTree : Prop :=
  Sys2Proof.Claims.HallTimeLocksAndDrifts ∧ Sys2Proof.Claims.TreeIsKept ∧ Sys2Proof.Claims.HallTimeIsSet

/-- Rings and their turns, the checks that every host command shares, and replies. -/
def Obligations.RingsAndReplies : Prop :=
  Sys2Proof.Claims.RingsAreWritten ∧ Sys2Proof.Claims.CommandsAreChecked ∧ Sys2Proof.Claims.RepliesAreWritten ∧ Sys2Proof.Claims.RingsTakeTurns

/-- NOP, IDENTIFY, the configuration image, partitions and the row map. -/
def Obligations.ModuleConfiguration : Prop :=
  Sys2Proof.Claims.NopAndIdentify ∧ Sys2Proof.Claims.ConfigurationsApply ∧ Sys2Proof.Claims.PartitionsComeAndGo ∧ Sys2Proof.Claims.RowsSkipColumns

/-- CTX_CREATE, CTX_TEARDOWN, CTX_RESET, the drain and the scrub. -/
def Obligations.ContextsCreatedAndRemoved : Prop :=
  Sys2Proof.Claims.ContextsAreCreated ∧ Sys2Proof.Claims.ContextsAreRemoved

/-- LOAD_SEGMENT, RELOCATE, PATCH, START, HALT and RESUME. -/
def Obligations.ContextsLoadAndRun : Prop :=
  Sys2Proof.Claims.SegmentsLoad ∧ Sys2Proof.Claims.PatchesAndRelocations ∧ Sys2Proof.Claims.ContextsRun ∧ Sys2Proof.Claims.StartBeginsSuperstepZero

/-- DMA_HOST, windows, host flags and samples. -/
def Obligations.HostTransfersWindowsFlags : Prop :=
  Sys2Proof.Claims.HostTransfersMove ∧ Sys2Proof.Claims.WindowsOpenAndClose ∧ Sys2Proof.Claims.HostFlags ∧ Sys2Proof.Claims.SamplesAreTaken

/-- POWER_MODE, BANK_POWER, LIFECYCLE, LOCK and FW_UPDATE. -/
def Obligations.PlatformCommands : Prop :=
  Sys2Proof.Claims.PowerModeChanges ∧ Sys2Proof.Claims.BankGroupsSwitch ∧ Sys2Proof.Claims.LifeCycleAndLocks ∧ Sys2Proof.Claims.FirmwareUpdates

/-- BAR0, BAR2 and BAR4 accesses, register family by register family. -/
def Obligations.RegistersReadAndWritten : Prop :=
  Sys2Proof.Claims.RegistersAreRead ∧ Sys2Proof.Claims.RegistersAreWritten ∧ Sys2Proof.Claims.ApertureReachesMemory ∧
    Sys2Proof.Claims.TimeExchangeAndCloverRead ∧ Sys2Proof.Claims.MemoryFlagsAndWatchRead ∧ Sys2Proof.Claims.LinksEventsAndResetRead ∧
    Sys2Proof.Claims.FunctionsReadTheirBar ∧ Sys2Proof.Claims.DieRegistersAreWritten ∧ Sys2Proof.Claims.FunctionRegistersAreWritten

/-- Which die spaces a function sees in BAR0, and what an access elsewhere does. -/
def Obligations.FunctionsSeeTheirDies : Prop :=
  Sys2Proof.Claims.FunctionsSeeTheirDies

/-- MSI-X moderation, PCIe power states and Function Level Reset. -/
def Obligations.VectorsAndPciePower : Prop :=
  Sys2Proof.Claims.VectorsModerate ∧ Sys2Proof.Claims.PciePowerStates ∧ Sys2Proof.Claims.FunctionLevelResets

/-- Event controllers: raises, storms, claims, HOLD, latches and the control core's writes. -/
def Obligations.EventControllers : Prop :=
  Sys2Proof.Claims.EventsAreRaised ∧ Sys2Proof.Claims.StormsAreMasked ∧ Sys2Proof.Claims.EventsAreClaimed ∧ Sys2Proof.Claims.LatchesPass ∧ Sys2Proof.Claims.CoresWriteTheirControllers

/-- EVC_EOI pops the priority stack, which cannot overflow. -/
def Obligations.EndOfEventPops : Prop :=
  Sys2Proof.Claims.EndOfEventPops

/-- The event log: appends, pages, EVENT_READ and EVENT_ACK. -/
def Obligations.EventLog : Prop :=
  Sys2Proof.Claims.EventsAreReadAndAcknowledged ∧ Sys2Proof.Claims.RecordsAreCopiedInOrder ∧ Sys2Proof.Claims.TheLogIsKept

/-- Power-up, PERST#, PF#, loss of the rails, IDLE and STANDBY, the test port, the management bus and the PCIe
link. -/
def Obligations.PowerAndPins : Prop :=
  Sys2Proof.Claims.PowerUpStarts ∧ Sys2Proof.Claims.PerstResets ∧ Sys2Proof.Claims.PowerFails ∧ Sys2Proof.Claims.PowerStatesChange ∧ Sys2Proof.Claims.LandsAreServed

/-- PF# high again without a loss of the rails performs an L3. -/
def Obligations.PfRiseBeginsL3 : Prop :=
  Sys2Proof.Claims.PfRiseBeginsL3

/-- The power controller: K, THERM#, trips. -/
def Obligations.ThrottleAndTrip : Prop :=
  Sys2Proof.Claims.ThrottleSteps ∧ Sys2Proof.Claims.TripsStopEverything

/-- Watchdogs, the fault records, RESET_ESCALATE, what each reset level does as it begins and as it ends, and
its budget. -/
def Obligations.ResetLevels : Prop :=
  Sys2Proof.Claims.WatchdogsFault ∧ Sys2Proof.Claims.FaultsAreRecorded ∧ Sys2Proof.Claims.ResetsEscalate ∧ Sys2Proof.Claims.ResetsStart ∧ Sys2Proof.Claims.EnginesReset ∧
    Sys2Proof.Claims.ResetsComplete ∧ Sys2Proof.Claims.ResetBudgetsForce

/-- Partition layouts, and the layout of a context handle. -/
def Obligations.PartitionsAndHandles : Prop :=
  Sys2Proof.Claims.PartitionsAndHandles

/-- After a reset the layout is P1 with partition 0, until PART_CREATE. -/
def Obligations.ResetLayoutHoldsUntilPartCreate : Prop :=
  Sys2Proof.Claims.ResetLayoutHoldsUntilPartCreate

/-- The module right after reset, and that it meets the invariants. -/
def Obligations.ResetMeetsTheInvariants : Prop :=
  Sys2Proof.Claims.ResetState ∧ Sys2Proof.Claims.ResetMeetsTheInvariants

/-- Every step keeps HBM, host memory and every SRAM in canonical form. -/
def Obligations.StepsKeepMemoriesCanonical : Prop :=
  Sys2Proof.Claims.StepsKeepMemoriesCanonical

/-- Every step keeps the clusters of the contexts apart, enabled and in their partition. -/
def Obligations.StepsKeepClustersApart : Prop :=
  Sys2Proof.Claims.StepsKeepClustersApart

/-- The fuse words that disable columns and map rows never change, and a lock bit clears only at L3 or a loss
of power. -/
def Obligations.FusesAndLocksHold : Prop :=
  Sys2Proof.Claims.FusesAndLocksHold
end

