-- ==== Sys2Proof/Laws/Exec.lean ====
section
/-!
SUPPORT. The meaning that `exec` calls for each command, and what a step does.
-/

namespace Sys2Proof.Machine

theorem exec_add {r} {f} (s : State) : exec (.add r f) s = execAdd r f s := rfl
theorem exec_sub {r} {f} (s : State) : exec (.sub r f) s = execSub r f s := rfl
theorem exec_and {r} {f} (s : State) : exec (.and r f) s = execAnd r f s := rfl
theorem exec_or {r} {f} (s : State) : exec (.or r f) s = execOr r f s := rfl
theorem exec_xor {r} {f} (s : State) : exec (.xor r f) s = execXor r f s := rfl
theorem exec_shl {r} {f} (s : State) : exec (.shl r f) s = execShl r f s := rfl
theorem exec_shr {r} {f} (s : State) : exec (.shr r f) s = execShr r f s := rfl
theorem exec_sra {r} {f} (s : State) : exec (.sra r f) s = execSra r f s := rfl
theorem exec_mul {r} {f} (s : State) : exec (.mul r f) s = execMul r f s := rfl
theorem exec_mulhu {r} {f} (s : State) : exec (.mulhu r f) s = execMulhu r f s := rfl
theorem exec_mulhs {r} {f} (s : State) : exec (.mulhs r f) s = execMulhs r f s := rfl
theorem exec_min {r} {f} (s : State) : exec (.min r f) s = execMin r f s := rfl
theorem exec_max {r} {f} (s : State) : exec (.max r f) s = execMax r f s := rfl
theorem exec_minu {r} {f} (s : State) : exec (.minu r f) s = execMinu r f s := rfl
theorem exec_maxu {r} {f} (s : State) : exec (.maxu r f) s = execMaxu r f s := rfl
theorem exec_slt {r} {f} (s : State) : exec (.slt r f) s = execSlt r f s := rfl
theorem exec_sltu {r} {f} (s : State) : exec (.sltu r f) s = execSltu r f s := rfl
theorem exec_seq {r} {f} (s : State) : exec (.seq r f) s = execSeq r f s := rfl
theorem exec_sel {r} {f} (s : State) : exec (.sel r f) s = execSel r f s := rfl
theorem exec_clz {r} {f} (s : State) : exec (.clz r f) s = execClz r f s := rfl
theorem exec_popc {r} {f} (s : State) : exec (.popc r f) s = execPopc r f s := rfl
theorem exec_movi {r} {f} (s : State) : exec (.movi r f) s = execMovi r f s := rfl
theorem exec_movhi {r} {f} (s : State) : exec (.movhi r f) s = execMovhi r f s := rfl
theorem exec_rdtid {r} {f} (s : State) : exec (.rdtid r f) s = execRdtid r f s := rfl
theorem exec_rdthr {r} {f} (s : State) : exec (.rdthr r f) s = execRdthr r f s := rfl
theorem exec_rdssn {r} {f} (s : State) : exec (.rdssn r f) s = execRdssn r f s := rfl
theorem exec_rdht {r} {f} (s : State) : exec (.rdht r f) s = execRdht r f s := rfl
theorem exec_beq {r} {f} (s : State) : exec (.beq r f) s = execBeq r f s := rfl
theorem exec_bne {r} {f} (s : State) : exec (.bne r f) s = execBne r f s := rfl
theorem exec_blt {r} {f} (s : State) : exec (.blt r f) s = execBlt r f s := rfl
theorem exec_bge {r} {f} (s : State) : exec (.bge r f) s = execBge r f s := rfl
theorem exec_bltu {r} {f} (s : State) : exec (.bltu r f) s = execBltu r f s := rfl
theorem exec_bgeu {r} {f} (s : State) : exec (.bgeu r f) s = execBgeu r f s := rfl
theorem exec_j {r} {f} (s : State) : exec (.j r f) s = execJ r f s := rfl
theorem exec_jal {r} {f} (s : State) : exec (.jal r f) s = execJal r f s := rfl
theorem exec_jr {r} {f} (s : State) : exec (.jr r f) s = execJr r f s := rfl
theorem exec_ld8 {r} {f} (s : State) : exec (.ld8 r f) s = execLd8 r f s := rfl
theorem exec_ld16 {r} {f} (s : State) : exec (.ld16 r f) s = execLd16 r f s := rfl
theorem exec_ld32 {r} {f} (s : State) : exec (.ld32 r f) s = execLd32 r f s := rfl
theorem exec_ld64 {r} {f} (s : State) : exec (.ld64 r f) s = execLd64 r f s := rfl
theorem exec_lds8 {r} {f} (s : State) : exec (.lds8 r f) s = execLds8 r f s := rfl
theorem exec_lds16 {r} {f} (s : State) : exec (.lds16 r f) s = execLds16 r f s := rfl
theorem exec_lds32 {r} {f} (s : State) : exec (.lds32 r f) s = execLds32 r f s := rfl
theorem exec_st8 {r} {f} (s : State) : exec (.st8 r f) s = execSt8 r f s := rfl
theorem exec_st16 {r} {f} (s : State) : exec (.st16 r f) s = execSt16 r f s := rfl
theorem exec_st32 {r} {f} (s : State) : exec (.st32 r f) s = execSt32 r f s := rfl
theorem exec_st64 {r} {f} (s : State) : exec (.st64 r f) s = execSt64 r f s := rfl
theorem exec_vld {r} {f} (s : State) : exec (.vld r f) s = execVld r f s := rfl
theorem exec_vst {r} {f} (s : State) : exec (.vst r f) s = execVst r f s := rfl
theorem exec_vfma {r} {f} (s : State) : exec (.vfma r f) s = execVfma r f s := rfl
theorem exec_vadd {r} {f} (s : State) : exec (.vadd r f) s = execVadd r f s := rfl
theorem exec_vsub {r} {f} (s : State) : exec (.vsub r f) s = execVsub r f s := rfl
theorem exec_vmul {r} {f} (s : State) : exec (.vmul r f) s = execVmul r f s := rfl
theorem exec_vmax {r} {f} (s : State) : exec (.vmax r f) s = execVmax r f s := rfl
theorem exec_vmin {r} {f} (s : State) : exec (.vmin r f) s = execVmin r f s := rfl
theorem exec_vbcast {r} {f} (s : State) : exec (.vbcast r f) s = execVbcast r f s := rfl
theorem exec_vcvt {r} {f} (s : State) : exec (.vcvt r f) s = execVcvt r f s := rfl
theorem exec_vreds {r} {f} (s : State) : exec (.vreds r f) s = execVreds r f s := rfl
theorem exec_vredm {r} {f} (s : State) : exec (.vredm r f) s = execVredm r f s := rfl
theorem exec_vext {r} {f} (s : State) : exec (.vext r f) s = execVext r f s := rfl
theorem exec_qput {r} {f} (s : State) : exec (.qput r f) s = execQput r f s := rfl
theorem exec_qget {r} {f} (s : State) : exec (.qget r f) s = execQget r f s := rfl
theorem exec_qwait {r} {f} (s : State) : exec (.qwait r f) s = execQwait r f s := rfl
theorem exec_send {r} {f} (s : State) : exec (.send r f) s = execSend r f s := rfl
theorem exec_sendw {r} {f} (s : State) : exec (.sendw r f) s = execSendw r f s := rfl
theorem exec_recv {r} {f} (s : State) : exec (.recv r f) s = execRecv r f s := rfl
theorem exec_poll {r} {f} (s : State) : exec (.poll r f) s = execPoll r f s := rfl
theorem exec_fset {r} {f} (s : State) : exec (.fset r f) s = execFset r f s := rfl
theorem exec_fclr {r} {f} (s : State) : exec (.fclr r f) s = execFclr r f s := rfl
theorem exec_fwait {r} {f} (s : State) : exec (.fwait r f) s = execFwait r f s := rfl
theorem exec_fwaitc {r} {f} (s : State) : exec (.fwaitc r f) s = execFwaitc r f s := rfl
theorem exec_fence {r} {f} (s : State) : exec (.fence r f) s = execFence r f s := rfl
theorem exec_cjob {r} {f} (s : State) : exec (.cjob r f) s = execCjob r f s := rfl
theorem exec_sopen {r} {f} (s : State) : exec (.sopen r f) s = execSopen r f s := rfl
theorem exec_swait {r} {f} (s : State) : exec (.swait r f) s = execSwait r f s := rfl
theorem exec_srelease {r} {f} (s : State) : exec (.srelease r f) s = execSrelease r f s := rfl
theorem exec_updSplit {r} {f} (s : State) : exec (.updSplit r f) s = execUpdSplit r f s := rfl
theorem exec_sync {r} {f} (s : State) : exec (.sync r f) s = execSync r f s := rfl
theorem exec_halt {r} {f} (s : State) : exec (.halt r f) s = execHalt r f s := rfl
theorem exec_nop {r} {f} (s : State) : exec (.nop r f) s = execNop r f s := rfl
theorem exec_coreDataReplay {r} (s : State) : exec (.coreDataReplay r) s = execCoreDataReplay r s := rfl
theorem exec_dmaReplay {tid} {unit} {cyc} (s : State) : exec (.dmaReplay tid unit cyc) s = execDmaReplay tid unit cyc s := rfl
theorem exec_tileArrival {tid} (s : State) : exec (.tileArrival tid) s = execTileArrival tid s := rfl
theorem exec_txPrefetch {port} {entry} (s : State) : exec (.txPrefetch port entry) s = execTxPrefetch port entry s := rfl
theorem exec_exchangeListRead {tid} {cyc} (s : State) : exec (.exchangeListRead tid cyc) s = execExchangeListRead tid cyc s := rfl
theorem exec_barrierComplete {c} (s : State) : exec (.barrierComplete c) s = execBarrierComplete c s := rfl
theorem exec_thsArriveReceive {port} {a} {b} (s : State) : exec (.thsArriveReceive port a b) s = execThsArriveReceive port a b s := rfl
theorem exec_thsCompleteReceive {port} {a} {b} (s : State) : exec (.thsCompleteReceive port a b) s = execThsCompleteReceive port a b s := rfl
theorem exec_computeOverrun {c} (s : State) : exec (.computeOverrun c) s = execComputeOverrun c s := rfl
theorem exec_exchangePhaseStart {c} (s : State) : exec (.exchangePhaseStart c) s = execExchangePhaseStart c s := rfl
theorem exec_exchangeUnitSend {tid} {entry} {k} (s : State) : exec (.exchangeUnitSend tid entry k) s = execExchangeUnitSend tid entry k s := rfl
theorem exec_exchangeUnitHop {u} (s : State) : exec (.exchangeUnitHop u) s = execExchangeUnitHop u s := rfl
theorem exec_exchangeUnitArrival {u} (s : State) : exec (.exchangeUnitArrival u) s = execExchangeUnitArrival u s := rfl
theorem exec_exchangeUnitMissing {tid} {entry} {k} (s : State) : exec (.exchangeUnitMissing tid entry k) s = execExchangeUnitMissing tid entry k s := rfl
theorem exec_exchangePhaseEnd {c} (s : State) : exec (.exchangePhaseEnd c) s = execExchangePhaseEnd c s := rfl
theorem exec_watchStepClose {die} {slot} (s : State) : exec (.watchStepClose die slot) s = execWatchStepClose die slot s := rfl
theorem exec_haltTakesEffect {c} (s : State) : exec (.haltTakesEffect c) s = execHaltTakesEffect c s := rfl
theorem exec_clusterClockStart {cid} (s : State) : exec (.clusterClockStart cid) s = execClusterClockStart cid s := rfl
theorem exec_cloverJobStart {cid} {eng} (s : State) : exec (.cloverJobStart cid eng) s = execCloverJobStart cid eng s := rfl
theorem exec_cloverOutputTileStart {cid} {eng} (s : State) : exec (.cloverOutputTileStart cid eng) s = execCloverOutputTileStart cid eng s := rfl
theorem exec_cloverFeedWindow {cid} {lane} {win} {cyc} (s : State) : exec (.cloverFeedWindow cid lane win cyc) s = execCloverFeedWindow cid lane win cyc s := rfl
theorem exec_cloverWavefrontComplete {cid} {eng} (s : State) : exec (.cloverWavefrontComplete cid eng) s = execCloverWavefrontComplete cid eng s := rfl
theorem exec_cloverDrainWrite {cid} {eng} {row} {unit} (s : State) : exec (.cloverDrainWrite cid eng row unit) s = execCloverDrainWrite cid eng row unit s := rfl
theorem exec_cloverTileDrainComplete {cid} {eng} (s : State) : exec (.cloverTileDrainComplete cid eng) s = execCloverTileDrainComplete cid eng s := rfl
theorem exec_cloverJobComplete {cid} {eng} (s : State) : exec (.cloverJobComplete cid eng) s = execCloverJobComplete cid eng s := rfl
theorem exec_queueRequestComplete {tid} {q} (s : State) : exec (.queueRequestComplete tid q) s = execQueueRequestComplete tid q s := rfl
theorem exec_streamBlockStart {tid} {h} (s : State) : exec (.streamBlockStart tid h) s = execStreamBlockStart tid h s := rfl
theorem exec_dmaUnitMove {tid} {unit} {cyc} {hbmErr} (s : State) : exec (.dmaUnitMove tid unit cyc hbmErr) s = execDmaUnitMove tid unit cyc hbmErr s := rfl
theorem exec_streamBlockComplete {tid} {h} (s : State) : exec (.streamBlockComplete tid h) s = execStreamBlockComplete tid h s := rfl
theorem exec_lateConsumer {tid} {thr} (s : State) : exec (.lateConsumer tid thr) s = execLateConsumer tid thr s := rfl
theorem exec_messageArrival {tid} {thr} (s : State) : exec (.messageArrival tid thr) s = execMessageArrival tid thr s := rfl
theorem exec_messageReplyArrival {tid} {thr} (s : State) : exec (.messageReplyArrival tid thr) s = execMessageReplyArrival tid thr s := rfl
theorem exec_sendwRetry {tid} {thr} (s : State) : exec (.sendwRetry tid thr) s = execSendwRetry tid thr s := rfl
theorem exec_msgRetryExhausted {tid} {thr} (s : State) : exec (.msgRetryExhausted tid thr) s = execMsgRetryExhausted tid thr s := rfl
theorem exec_msgRecvTimeout {tid} {thr} (s : State) : exec (.msgRecvTimeout tid thr) s = execMsgRecvTimeout tid thr s := rfl
theorem exec_flagRequestArrival {q} (s : State) : exec (.flagRequestArrival q) s = execFlagRequestArrival q s := rfl
theorem exec_flagEvaluation {g} (s : State) : exec (.flagEvaluation g) s = execFlagEvaluation g s := rfl
theorem exec_flagTimeout {tid} {thr} (s : State) : exec (.flagTimeout tid thr) s = execFlagTimeout tid thr s := rfl
theorem exec_slotStart {port} {entry} (s : State) : exec (.slotStart port entry) s = execSlotStart port entry s := rfl
theorem exec_frameTransmit {port} (s : State) : exec (.frameTransmit port) s = execFrameTransmit port s := rfl
theorem exec_slotSuspend {port} {entry} (s : State) : exec (.slotSuspend port entry) s = execSlotSuspend port entry s := rfl
theorem exec_slotTail {port} (s : State) : exec (.slotTail port) s = execSlotTail port s := rfl
theorem exec_frameReceive {port} {x} {uncorr} (s : State) : exec (.frameReceive port x uncorr) s = execFrameReceive port x uncorr s := rfl
theorem exec_ackSend {port} (s : State) : exec (.ackSend port) s = execAckSend port s := rfl
theorem exec_ackReceive {port} {x} (s : State) : exec (.ackReceive port x) s = execAckReceive port x s := rfl
theorem exec_nakReceive {port} {x} (s : State) : exec (.nakReceive port x) s = execNakReceive port x s := rfl
theorem exec_replayStart {port} (s : State) : exec (.replayStart port) s = execReplayStart port s := rfl
theorem exec_blockReceive {port} {x} {fec} (s : State) : exec (.blockReceive port x fec) s = execBlockReceive port x fec s := rfl
theorem exec_channelUnitForm {port} {chan} {unit} (s : State) : exec (.channelUnitForm port chan unit) s = execChannelUnitForm port chan unit s := rfl
theorem exec_reduceDeadline {port} {chan} (s : State) : exec (.reduceDeadline port chan) s = execReduceDeadline port chan s := rfl
theorem exec_digestReceive {port} {x} (s : State) : exec (.digestReceive port x) s = execDigestReceive port x s := rfl
theorem exec_tsExchangeStart {sub} (s : State) : exec (.tsExchangeStart sub) s = execTsExchangeStart sub s := rfl
theorem exec_tsReqReceive {port} {x} {t2} {t3} (s : State) : exec (.tsReqReceive port x t2 t3) s = execTsReqReceive port x t2 t3 s := rfl
theorem exec_tsRespReceive {port} {x} (s : State) : exec (.tsRespReceive port x) s = execTsRespReceive port x s := rfl
theorem exec_tsFupReceive {port} {x} {sub} (s : State) : exec (.tsFupReceive port x sub) s = execTsFupReceive port x sub s := rfl
theorem exec_htLock  (s : State) : exec (.htLock) s = execHtLock s := rfl
theorem exec_parentSelect  (s : State) : exec (.parentSelect) s = execParentSelect s := rfl
theorem exec_holdoverRestrictionEnd  (s : State) : exec (.holdoverRestrictionEnd) s = execHoldoverRestrictionEnd s := rfl
theorem exec_holdoverBoundStep  (s : State) : exec (.holdoverBoundStep) s = execHoldoverBoundStep s := rfl
theorem exec_treeSend  (s : State) : exec (.treeSend) s = execTreeSend s := rfl
theorem exec_treeReceive {port} {x} (s : State) : exec (.treeReceive port x) s = execTreeReceive port x s := rfl
theorem exec_hallTimeSet {r} {w} (s : State) : exec (.hallTimeSet r w) s = execHallTimeSet r w s := rfl
theorem exec_htPpsInEdge  (s : State) : exec (.htPpsInEdge) s = execHtPpsInEdge s := rfl
theorem exec_htPpsOutPulse  (s : State) : exec (.htPpsOutPulse) s = execHtPpsOutPulse s := rfl
theorem exec_signalDetect {port} (s : State) : exec (.signalDetect port) s = execSignalDetect port s := rfl
theorem exec_trainingComplete {port} {lanes} {skew} (s : State) : exec (.trainingComplete port lanes skew) s = execTrainingComplete port lanes skew s := rfl
theorem exec_trainTimeout {port} (s : State) : exec (.trainTimeout port) s = execTrainTimeout port s := rfl
theorem exec_alignComplete {port} {txd} {rxd} {cal} (s : State) : exec (.alignComplete port txd rxd cal) s = execAlignComplete port txd rxd cal s := rfl
theorem exec_lossOfSignal {port} (s : State) : exec (.lossOfSignal port) s = execLossOfSignal port s := rfl
theorem exec_laneLockLoss {port} {lane} (s : State) : exec (.laneLockLoss port lane) s = execLaneLockLoss port lane s := rfl
theorem exec_goingAwayReceive {port} {x} (s : State) : exec (.goingAwayReceive port x) s = execGoingAwayReceive port x s := rfl
theorem exec_doorbell {r} {v} (s : State) : exec (.doorbell r v) s = execDoorbell r v s := rfl
theorem exec_ringEnable {r} {v} (s : State) : exec (.ringEnable r v) s = execRingEnable r v s := rfl
theorem exec_ringDisable {r} {v} (s : State) : exec (.ringDisable r v) s = execRingDisable r v s := rfl
theorem exec_nopCommand {r} {w} (s : State) : exec (.nopCommand r w) s = execNopCommand r w s := rfl
theorem exec_identify {r} {w} (s : State) : exec (.identify r w) s = execIdentify r w s := rfl
theorem exec_configApply {r} {w} (s : State) : exec (.configApply r w) s = execConfigApply r w s := rfl
theorem exec_configApplyComplete  (s : State) : exec (.configApplyComplete) s = execConfigApplyComplete s := rfl
theorem exec_configRead {r} {w} (s : State) : exec (.configRead r w) s = execConfigRead r w s := rfl
theorem exec_partCreate {r} {w} (s : State) : exec (.partCreate r w) s = execPartCreate r w s := rfl
theorem exec_partDestroy {r} {w} (s : State) : exec (.partDestroy r w) s = execPartDestroy r w s := rfl
theorem exec_ctxCreate {r} {w} (s : State) : exec (.ctxCreate r w) s = execCtxCreate r w s := rfl
theorem exec_ctxTeardown {r} {w} (s : State) : exec (.ctxTeardown r w) s = execCtxTeardown r w s := rfl
theorem exec_ctxReset {r} {w} (s : State) : exec (.ctxReset r w) s = execCtxReset r w s := rfl
theorem exec_drainComplete {c} (s : State) : exec (.drainComplete c) s = execDrainComplete c s := rfl
theorem exec_scrubComplete {c} (s : State) : exec (.scrubComplete c) s = execScrubComplete c s := rfl
theorem exec_loadSegment {r} {w} (s : State) : exec (.loadSegment r w) s = execLoadSegment r w s := rfl
theorem exec_relocate {r} {w} (s : State) : exec (.relocate r w) s = execRelocate r w s := rfl
theorem exec_patch {r} {w} (s : State) : exec (.patch r w) s = execPatch r w s := rfl
theorem exec_start {r} {w} (s : State) : exec (.start r w) s = execStart r w s := rfl
theorem exec_haltCommand {r} {w} (s : State) : exec (.haltCommand r w) s = execHaltCommand r w s := rfl
theorem exec_resume {r} {w} (s : State) : exec (.resume r w) s = execResume r w s := rfl
theorem exec_dmaHost {r} {w} (s : State) : exec (.dmaHost r w) s = execDmaHost r w s := rfl
theorem exec_dmaHostComplete {r} (s : State) : exec (.dmaHostComplete r) s = execDmaHostComplete r s := rfl
theorem exec_windowOpen {r} {w} (s : State) : exec (.windowOpen r w) s = execWindowOpen r w s := rfl
theorem exec_windowClose {r} {w} (s : State) : exec (.windowClose r w) s = execWindowClose r w s := rfl
theorem exec_flagSet {r} {w} (s : State) : exec (.flagSet r w) s = execFlagSet r w s := rfl
theorem exec_flagRead {r} {w} (s : State) : exec (.flagRead r w) s = execFlagRead r w s := rfl
theorem exec_scratchSample {r} {w} (s : State) : exec (.scratchSample r w) s = execScratchSample r w s := rfl
theorem exec_sampleComplete {c} (s : State) : exec (.sampleComplete c) s = execSampleComplete c s := rfl
theorem exec_eventRead {r} {w} (s : State) : exec (.eventRead r w) s = execEventRead r w s := rfl
theorem exec_eventAck {r} {w} (s : State) : exec (.eventAck r w) s = execEventAck r w s := rfl
theorem exec_powerMode {r} {w} (s : State) : exec (.powerMode r w) s = execPowerMode r w s := rfl
theorem exec_powerModeComplete  (s : State) : exec (.powerModeComplete) s = execPowerModeComplete s := rfl
theorem exec_bankPower {r} {w} (s : State) : exec (.bankPower r w) s = execBankPower r w s := rfl
theorem exec_bankOffComplete {cid} {grp} (s : State) : exec (.bankOffComplete cid grp) s = execBankOffComplete cid grp s := rfl
theorem exec_bankOffTimeout {cid} {grp} (s : State) : exec (.bankOffTimeout cid grp) s = execBankOffTimeout cid grp s := rfl
theorem exec_bankOnComplete {cid} {grp} (s : State) : exec (.bankOnComplete cid grp) s = execBankOnComplete cid grp s := rfl
theorem exec_lifecycle {r} {w} (s : State) : exec (.lifecycle r w) s = execLifecycle r w s := rfl
theorem exec_lock {r} {w} (s : State) : exec (.lock r w) s = execLock r w s := rfl
theorem exec_linkControl {r} {w} (s : State) : exec (.linkControl r w) s = execLinkControl r w s := rfl
theorem exec_resetEscalate {r} {w} (s : State) : exec (.resetEscalate r w) s = execResetEscalate r w s := rfl
theorem exec_fwUpdate {r} {w} (s : State) : exec (.fwUpdate r w) s = execFwUpdate r w s := rfl
theorem exec_functionLevelReset {pf} (s : State) : exec (.functionLevelReset pf) s = execFunctionLevelReset pf s := rfl
theorem exec_bar4Access {pf} {off} {a} (s : State) : exec (.bar4Access pf off a) s = execBar4Access pf off a s := rfl
theorem exec_bar0LowWordRead {pf} {a} (s : State) : exec (.bar0LowWordRead pf a) s = execBar0LowWordRead pf a s := rfl
theorem exec_registerWrite {who} {bar} {off} {v} (s : State) : exec (.registerWrite who bar off v) s = execRegisterWrite who bar off v s := rfl
theorem exec_mmuInval {pf} {die} {v} (s : State) : exec (.mmuInval pf die v) s = execMmuInval pf die v s := rfl
theorem exec_mmuInvalComplete {die} (s : State) : exec (.mmuInvalComplete die) s = execMmuInvalComplete die s := rfl
theorem exec_mmuFaultResume {pf} {die} {rec} {v} (s : State) : exec (.mmuFaultResume pf die rec v) s = execMmuFaultResume pf die rec v s := rfl
theorem exec_mmuFaultAbort {pf} {die} {rec} {v} (s : State) : exec (.mmuFaultAbort pf die rec v) s = execMmuFaultAbort pf die rec v s := rfl
theorem exec_numWctlClear {pf} {die} {slot} {v} (s : State) : exec (.numWctlClear pf die slot v) s = execNumWctlClear pf die slot v s := rfl
theorem exec_msixModerationTimeout {pf} {vec} (s : State) : exec (.msixModerationTimeout pf vec) s = execMsixModerationTimeout pf vec s := rfl
theorem exec_msixUnmask {pf} {vec} (s : State) : exec (.msixUnmask pf vec) s = execMsixUnmask pf vec s := rfl
theorem exec_pcieL1Entry  (s : State) : exec (.pcieL1Entry) s = execPcieL1Entry s := rfl
theorem exec_d3hotEntry {pf} {pmeEn} (s : State) : exec (.d3hotEntry pf pmeEn) s = execD3hotEntry pf pmeEn s := rfl
theorem exec_d0Return {pf} (s : State) : exec (.d0Return pf) s = execD0Return pf s := rfl
theorem exec_pmeTurnOff  (s : State) : exec (.pmeTurnOff) s = execPmeTurnOff s := rfl
theorem exec_eventRaise {die} {src} {x} (s : State) : exec (.eventRaise die src x) s = execEventRaise die src x s := rfl
theorem exec_stormWindow  (s : State) : exec (.stormWindow) s = execStormWindow s := rfl
theorem exec_evcClaim {die} (s : State) : exec (.evcClaim die) s = execEvcClaim die s := rfl
theorem exec_evcEoi {die} (s : State) : exec (.evcEoi die) s = execEvcEoi die s := rfl
theorem exec_evcHoldSet {die} (s : State) : exec (.evcHoldSet die) s = execEvcHoldSet die s := rfl
theorem exec_evcHoldRelease {die} (s : State) : exec (.evcHoldRelease die) s = execEvcHoldRelease die s := rfl
theorem exec_latchTransfer {die} {latch} (s : State) : exec (.latchTransfer die latch) s = execLatchTransfer die latch s := rfl
theorem exec_logAppend  (s : State) : exec (.logAppend) s = execLogAppend s := rfl
theorem exec_pageCommitTimer  (s : State) : exec (.pageCommitTimer) s = execPageCommitTimer s := rfl
theorem exec_pageProgramComplete  (s : State) : exec (.pageProgramComplete) s = execPageProgramComplete s := rfl
theorem exec_powerUp  (s : State) : exec (.powerUp) s = execPowerUp s := rfl
theorem exec_bootSample {boot} (s : State) : exec (.bootSample boot) s = execBootSample boot s := rfl
theorem exec_perstEdge  (s : State) : exec (.perstEdge) s = execPerstEdge s := rfl
theorem exec_perstRise  (s : State) : exec (.perstRise) s = execPerstRise s := rfl
theorem exec_powerFail  (s : State) : exec (.powerFail) s = execPowerFail s := rfl
theorem exec_pfRise  (s : State) : exec (.pfRise) s = execPfRise s := rfl
theorem exec_railLoss  (s : State) : exec (.railLoss) s = execRailLoss s := rfl
theorem exec_idleEntry  (s : State) : exec (.idleEntry) s = execIdleEntry s := rfl
theorem exec_standbyEntry  (s : State) : exec (.standbyEntry) s = execStandbyEntry s := rfl
theorem exec_standbyWake  (s : State) : exec (.standbyWake) s = execStandbyWake s := rfl
theorem exec_throttleStep {t} {power} (s : State) : exec (.throttleStep t power) s = execThrottleStep t power s := rfl
theorem exec_throttleApply {cid} (s : State) : exec (.throttleApply cid) s = execThrottleApply cid s := rfl
theorem exec_tripClear {t} (s : State) : exec (.tripClear t) s = execTripClear t s := rfl
theorem exec_ssWatchdog {c} (s : State) : exec (.ssWatchdog c) s = execSsWatchdog c s := rfl
theorem exec_engineHang {eng} (s : State) : exec (.engineHang eng) s = execEngineHang eng s := rfl
theorem exec_resetBudgetExpiry {q} (s : State) : exec (.resetBudgetExpiry q) s = execResetBudgetExpiry q s := rfl
theorem exec_tileFence {tid} (s : State) : exec (.tileFence tid) s = execTileFence tid s := rfl
theorem exec_resetComplete {q} (s : State) : exec (.resetComplete q) s = execResetComplete q s := rfl
theorem exec_hallTimeSetTimeout  (s : State) : exec (.hallTimeSetTimeout) s = execHallTimeSetTimeout s := rfl
theorem exec_fwUpdateComplete {flashFail} (s : State) : exec (.fwUpdateComplete flashFail) s = execFwUpdateComplete flashFail s := rfl
theorem exec_clusterGating {cid} (s : State) : exec (.clusterGating cid) s = execClusterGating cid s := rfl

end Sys2Proof.Machine
end

