-- ==== Sys2Proof/Laws/Table.lean ====
section
/-!
SUPPORT. Tables and memories: what a read gives after a write, and that every memory operation keeps the
canonical form. -/

namespace Sys2Proof.Machine

/-! ### Tables -/

/-- Reading after setting an entry, for every table. -/
@[simp] theorem sget_sput {α : Type} (d v : α) (m : Sparse α) (k j : Nat) :
    sget d (sput m k v) j = if j = k then v else sget d m j := by
  induction m with
  | nil =>
    simp only [sput, sget]
    repeat' split
    all_goals rfl
  | cons e m ih =>
    obtain ⟨i, x⟩ := e
    simp only [sput]
    repeat' split
    all_goals simp only [sget]
    all_goals repeat' split
    all_goals first | rfl | omega | (rw [ih]; split <;> first | rfl | omega)

/-! ### Memories -/

/-- A memory in canonical form from `lo` reads blank below `lo`. -/
theorem mget_below {m : List Host.Cell} {lo k : Nat} (h : Memory.wfFrom lo m = true) (hk : k < lo) : mget m k = Memory.blank := by
  cases m with
  | nil => rfl
  | cons e m =>
    obtain ⟨i, x⟩ := e
    simp only [Memory.wfFrom, Bool.and_eq_true, decide_eq_true_eq] at h
    simp only [mget]
    split
    · omega
    · split
      · rfl
      · omega

/-- The canonical form from a lower bound. -/
theorem Memory.wfFrom_mono {m : List Host.Cell} {lo lo' : Nat} (hl : lo' ≤ lo) (h : Memory.wfFrom lo m = true) : Memory.wfFrom lo' m = true := by
  cases m with
  | nil => rfl
  | cons e m =>
    obtain ⟨i, x⟩ := e
    simp only [Memory.wfFrom, Bool.and_eq_true, decide_eq_true_eq] at h ⊢
    exact ⟨⟨by omega, h.1.2⟩, h.2⟩

/-- A byte written keeps the canonical form. -/
theorem Memory.wfFrom_mput {m : List Host.Cell} {lo k : Nat} (v : Byte) (hk : lo ≤ k) (h : Memory.wfFrom lo m = true) :
    Memory.wfFrom lo (mput m k v) = true := by
  induction m generalizing lo with
  | nil =>
    simp only [mput]
    split
    · rfl
    · simp only [Memory.wfFrom, Bool.and_eq_true, decide_eq_true_eq]
      exact ⟨⟨hk, by assumption⟩, trivial⟩
  | cons e m ih =>
    obtain ⟨i, x⟩ := e
    simp only [Memory.wfFrom, Bool.and_eq_true, decide_eq_true_eq] at h
    simp only [mput]
    repeat' split
    all_goals try simp only [Memory.wfFrom, Bool.and_eq_true, decide_eq_true_eq]
    · exact h
    · exact ⟨⟨hk, by assumption⟩, ⟨by omega, h.1.2⟩, h.2⟩
    · exact Memory.wfFrom_mono (by omega) h.2
    · refine ⟨⟨hk, by assumption⟩, ?_⟩
      subst_vars
      exact h.2
    · exact ⟨h.1, ih (by omega) h.2⟩

/-- A byte written keeps the canonical form. -/
theorem Memory.wf_mput {m : List Host.Cell} (k : Nat) (v : Byte) (h : Memory.wf m = true) : Memory.wf (mput m k v) = true :=
  Memory.wfFrom_mput v (Nat.zero_le k) h

/-- A byte read after a byte is written. -/
theorem mget_mput_from {m : List Host.Cell} {lo : Nat} (k j : Nat) (v : Byte) (h : Memory.wfFrom lo m = true) :
    mget (mput m k v) j = if j = k then v else mget m j := by
  induction m generalizing lo with
  | nil =>
    simp only [mput]
    repeat' split
    all_goals simp_all [mget]
  | cons e m ih =>
    obtain ⟨i, x⟩ := e
    simp only [Memory.wfFrom, Bool.and_eq_true, decide_eq_true_eq] at h
    have below : ∀ n, n ≤ i → mget m n = Memory.blank := fun n hn => mget_below h.2 (by omega)
    by_cases c1 : k < i
    · by_cases c2 : v = Memory.blank
      · simp only [mput, if_pos c1, if_pos c2]
        split
        · subst_vars
          simp only [mget]
          rw [if_neg (by omega), if_pos c1]
        · rfl
      · simp only [mput, if_pos c1, if_neg c2]
        conv => lhs; unfold mget
        split
        · rfl
        · split
          · simp only [mget]
            rw [if_neg (by omega), if_pos (by omega)]
          · rfl
    · by_cases c3 : k = i
      · subst c3
        by_cases c2 : v = Memory.blank
        · simp only [mput, if_neg c1, if_pos c2, if_true]
          simp only [mget]
          split
          · rw [below j (by omega), c2]
          · split
            · exact below j (by omega)
            · rfl
        · simp only [mput, if_neg c1, if_neg c2, if_true]
          simp only [mget]
          split <;> rfl
      · simp only [mput, if_neg c1, if_neg c3]
        simp only [mget]
        rw [ih h.2]
        split
        · rw [if_neg (by omega)]
        · split
          · rw [if_neg (by omega)]
          · rfl

/-- A byte read after a byte is written. -/
theorem mget_mput {m : List Host.Cell} (k j : Nat) (v : Byte) (h : Memory.wf m = true) :
    mget (mput m k v) j = if j = k then v else mget m j := mget_mput_from k j v h

/-- Bytes written keep the canonical form. -/
theorem Memory.wf_mwrite {m : List Host.Cell} (a : Nat) (bs : List Byte) (h : Memory.wf m = true) : Memory.wf (mwrite m a bs) = true := by
  induction bs generalizing m a with
  | nil => exact h
  | cons b bs ih => exact ih (a + 1) (Memory.wf_mput a b h)

/-- A byte outside the bytes written is as before. -/
theorem mget_mwrite_outside {m : List Host.Cell} (a j : Nat) (bs : List Byte) (h : Memory.wf m = true) (hj : j < a ∨ a + bs.length ≤ j) :
    mget (mwrite m a bs) j = mget m j := by
  induction bs generalizing m a with
  | nil => rfl
  | cons b bs ih =>
    simp only [List.length_cons] at hj
    rw [mwrite, ih (a + 1) (Memory.wf_mput a b h) (by omega), mget_mput a j b h, if_neg (by omega)]

/-- A byte of the bytes written. -/
theorem mget_mwrite_inside {m : List Host.Cell} (a i : Nat) (bs : List Byte) (h : Memory.wf m = true) (hi : i < bs.length) :
    mget (mwrite m a bs) (a + i) = bs[i] := by
  induction bs generalizing m a i with
  | nil => exact absurd hi (Nat.not_lt_zero i)
  | cons b bs ih =>
    cases i with
    | zero =>
      rw [mwrite, mget_mwrite_outside (a + 1) (a + 0) bs (Memory.wf_mput a b h) (Or.inl (by omega)), mget_mput a (a + 0) b h,
        if_pos (by omega)]
      rfl
    | succ i =>
      simp only [List.length_cons] at hi
      have e : a + (i + 1) = a + 1 + i := by omega
      rw [mwrite, e, ih (a + 1) i (Memory.wf_mput a b h) (by omega)]
      rfl

/-- Cells left out keep the canonical form. -/
theorem Memory.wfFrom_filter (p : Host.Cell → Bool) {m : List Host.Cell} {lo : Nat} (h : Memory.wfFrom lo m = true) :
    Memory.wfFrom lo (m.filter p) = true := by
  induction m generalizing lo with
  | nil => rfl
  | cons e m ih =>
    obtain ⟨i, x⟩ := e
    simp only [Memory.wfFrom, Bool.and_eq_true, decide_eq_true_eq] at h
    simp only [List.filter_cons]
    split
    · simp only [Memory.wfFrom, Bool.and_eq_true, decide_eq_true_eq]
      exact ⟨h.1, ih h.2⟩
    · exact Memory.wfFrom_mono (by omega) (ih h.2)

/-- Cells left out keep the canonical form. -/
theorem Memory.wf_filter (p : Host.Cell → Bool) {m : List Host.Cell} (h : Memory.wf m = true) : Memory.wf (m.filter p) = true :=
  Memory.wfFrom_filter p h

/-- A range zeroed keeps the canonical form. -/
theorem Memory.wf_mzero {m : List Host.Cell} (a n : Nat) (h : Memory.wf m = true) : Memory.wf (mzero m a n) = true :=
  Memory.wf_filter _ h

/-- Cells left out read blank, and the others as before. -/
theorem mget_filter_from (p : Nat → Bool) {m : List Host.Cell} {lo : Nat} (j : Nat) (h : Memory.wfFrom lo m = true) :
    mget (m.filter (fun c => p c.1)) j = if p j then mget m j else Memory.blank := by
  induction m generalizing lo with
  | nil => simp [mget]
  | cons e m ih =>
    obtain ⟨i, x⟩ := e
    simp only [Memory.wfFrom, Bool.and_eq_true, decide_eq_true_eq] at h
    have below : ∀ n, n ≤ i → mget (m.filter (fun c => p c.1)) n = Memory.blank :=
      fun n hn => mget_below (Memory.wfFrom_filter _ h.2) (by omega)
    simp only [List.filter_cons, mget]
    by_cases c1 : p i = true
    · simp only [if_pos c1, mget]
      rw [ih h.2]
      split
      · subst_vars
        simp [c1]
      · split <;> split <;> rfl
    · simp only [if_neg c1]
      by_cases c2 : j = i
      · subst c2
        rw [below j (by omega), if_neg c1]
      · by_cases c3 : j < i
        · rw [below j (by omega), if_neg c2, if_pos c3]
          split <;> rfl
        · rw [if_neg c2, if_neg c3]
          exact ih h.2

/-- A byte read after a range is zeroed. -/
theorem mget_mzero {m : List Host.Cell} (a n j : Nat) (h : Memory.wf m = true) :
    mget (mzero m a n) j = if a ≤ j ∧ j < a + n then Memory.blank else mget m j := by
  unfold mzero
  have e := mget_filter_from (fun k => (k < a || a + n ≤ k : Bool)) j h
  simp only [Bool.or_eq_true, decide_eq_true_eq] at e
  rw [e]
  split <;> split <;> first | rfl | omega

/-- `n` bytes are read. -/
@[simp] theorem mread_length (m : List Host.Cell) (a n : Nat) : (mread m a n).length = n := by
  induction n generalizing a with
  | zero => rfl
  | succ n ih => simp [mread, ih]

@[simp] theorem toLE_length (n v : Nat) : (toLE n v).length = n := by
  induction n generalizing v with
  | zero => rfl
  | succ n ih => simp [toLE, ih]

/-- A number put into `n` little-endian bytes and read back (R12). -/
theorem leNat_toLE (n v : Nat) : leNat (toLE n v) = v % 256 ^ n := by
  induction n generalizing v with
  | zero => simp [toLE, leNat, Nat.mod_one]
  | succ n ih =>
    have e : (2 : Nat) ^ 8 = 256 := rfl
    simp only [toLE, leNat, ih, BitVec.toNat_ofNat]
    rw [e, Nat.pow_succ' (m := 256) (n := n), Nat.mod_mul]

end Sys2Proof.Machine
end

