-- ==== Sys2Proof/Laws/Keeps.lean ====
section
/-!
SUPPORT. The relation `Keeps`, how it is built, and that the shared operations are in it.
-/

namespace Sys2Proof.Machine

/-- Bytes written at listed places keep the canonical form. -/
theorem Memory.wf_hbmPut {m : List Host.Cell} (r : List (Nat × Byte)) (h : Memory.wf m = true) : Memory.wf (hbmPut m r) = true := by
  induction r generalizing m with
  | nil => exact h
  | cons e r ih =>
    obtain ⟨k, b⟩ := e
    exact ih (Memory.wf_mput k b h)

/-- What no helper of the meanings changes: the queue, the layout, the partitions, the fuses and the power;
the lock bits stay set; the memories stay in canonical form; no context gains a cluster, and a slot that
becomes free has none. -/
structure Keeps (s t : State) : Prop where
  pending  : t.pending = s.pending
  layout   : t.layout = s.layout
  parts    : t.parts = s.parts
  fuses    : t.fuses = s.fuses
  powered  : t.plat.powered = s.plat.powered
  lock     : ∀ i, s.plat.lock.getLsbD i = true → t.plat.lock.getLsbD i = true
  hbm      : Memory.wf s.hbm = true → Memory.wf t.hbm = true
  hostMem  : Memory.wf s.hostMem = true → Memory.wf t.hostMem = true
  sram     : ∀ k, Memory.wf (s.tile k).sram = true → Memory.wf (t.tile k).sram = true
  mask     : ∀ c i, (t.ctx c).clusters.getLsbD i = true → (s.ctx c).clusters.getLsbD i = true
  free     : ∀ c, (t.ctx c).st = .free → (t.ctx c).clusters = 0 ∨ (s.ctx c).st = .free

theorem Keeps.refl (s : State) : Keeps s s :=
  ⟨rfl, rfl, rfl, rfl, rfl, fun _ h => h, fun h => h, fun h => h, fun _ h => h, fun _ _ h => h, fun _ h => Or.inr h⟩

theorem Keeps.trans {s t u : State} (a : Keeps s t) (b : Keeps t u) : Keeps s u := by
  refine ⟨b.pending.trans a.pending, b.layout.trans a.layout, b.parts.trans a.parts, b.fuses.trans a.fuses,
   b.powered.trans a.powered, fun i h => b.lock i (a.lock i h), fun h => b.hbm (a.hbm h), fun h => b.hostMem (a.hostMem h),
   fun k h => b.sram k (a.sram k h), fun c i h => a.mask c i (b.mask c i h), fun c h => ?_⟩
  rcases b.free c h with e | e
  · exact Or.inl e
  · rcases a.free c e with e' | e'
    · refine Or.inl (BitVec.eq_of_getLsbD_eq (fun i hi => ?_))
      have m := b.mask c i
      rw [e'] at m
      cases e2 : (u.ctx c).clusters.getLsbD i
      · simp
      · exact absurd (m e2) (by simp)
    · exact Or.inr e'

theorem Keeps.ite {z a b : State} {p : Prop} [Decidable p] (h1 : p → Keeps z a) (h2 : ¬p → Keeps z b) :
    Keeps z (if p then a else b) := by
  split
  · exact h1 ‹_›
  · exact h2 ‹_›

/-- A state that differs from `x` in nothing that `Keeps` names. -/
theorem Keeps.upd {z x : State} (h : Keeps z x) {ht cfg pair ctxs clusters dies ports fns wins flights lanes freqs log resets free outs fresh tap i3cDyn pins}
    {pend layout parts fuses} {plat : Plat} {tiles hbm hostMem}
    (e1 : pend = x.pending) (e2 : layout = x.layout) (e3 : parts = x.parts) (e4 : fuses = x.fuses)
    (e5 : plat.powered = x.plat.powered) (e6 : plat.lock = x.plat.lock) (e7 : tiles = x.tiles)
    (e8 : hbm = x.hbm) (e9 : hostMem = x.hostMem) (e10 : ctxs = x.ctxs) :
    Keeps z (State.mk pend ht plat fuses cfg pair layout parts ctxs tiles clusters dies ports fns hbm hostMem wins flights lanes
      freqs log resets free outs fresh tap i3cDyn pins) := by
  subst e1 e2 e3 e4 e7 e8 e9 e10
  exact h.trans ⟨rfl, rfl, rfl, rfl, e5, fun i hi => by rw [e6]; exact hi, fun h => h, fun h => h, fun _ h => h, fun _ _ h => h, fun _ h => Or.inr h⟩

theorem Keeps.hbmW {z x : State} (h : Keeps z x) {m : List Host.Cell} (hm : Memory.wf x.hbm = true → Memory.wf m = true) :
    Keeps z { x with hbm := m } :=
  h.trans ⟨rfl, rfl, rfl, rfl, rfl, fun _ h => h, hm, fun h => h, fun _ h => h, fun _ _ h => h, fun _ h => Or.inr h⟩

theorem Keeps.hostW {z x : State} (h : Keeps z x) {m : List Host.Cell} (hm : Memory.wf x.hostMem = true → Memory.wf m = true) :
    Keeps z { x with hostMem := m } :=
  h.trans ⟨rfl, rfl, rfl, rfl, rfl, fun _ h => h, fun h => h, hm, fun _ h => h, fun _ _ h => h, fun _ h => Or.inr h⟩

theorem Keeps.of_fst {α : Type} {z a : State} {x : State × α} {b : α} (h : Keeps z x.1) (e : x = (a, b)) : Keeps z a := by
  rw [e] at h
  exact h

theorem Keeps.forAll {α : Type} {z x : State} {xs : List α} {f : State → α → State} (h : Keeps z x)
    (hf : ∀ a y, Keeps y (f y a)) : Keeps z (forAll xs f x) := by
  unfold Machine.forAll
  induction xs generalizing x with
  | nil => exact h
  | cons a as ih => exact ih (h.trans (hf a x))

theorem Keeps.foldl {α : Type} {z x : State} {xs : List α} {f : State → α → State} (h : Keeps z x)
    (hf : ∀ a y, Keeps y (f y a)) : Keeps z (xs.foldl f x) := Keeps.forAll h hf

/-- A tile put back with its memory as it was, or in canonical form. -/
theorem Keeps.setTile {z x : State} {t : Nat} {y : Tile} (h : Keeps z x)
    (hy : Memory.wf (x.tile t).sram = true → Memory.wf y.sram = true) : Keeps z (x.setTile t y) := by
  refine h.trans ⟨rfl, rfl, rfl, rfl, rfl, fun _ h => h, fun h => h, fun h => h, fun k hk => ?_, fun _ _ h => h, fun _ h => Or.inr h⟩
  simp only [State.tile, State.setTile, sget_sput] at hy hk ⊢
  split
  · subst_vars; exact hy hk
  · exact hk

/-- An outcome whose next state keeps all of it. -/
def ResKeeps (s : State) (o : Res) : Prop := ∀ t, o = .next t → Keeps s t

theorem ResKeeps.next {s t : State} (h : Keeps s t) : ResKeeps s (.next t) := fun u e => by
  cases e
  exact h

theorem ResKeeps.fault (s : State) (r : Fault) : ResKeeps s (.fault r) := fun _ e => by cases e

theorem ResKeeps.ite {z : State} {a b : Res} {p : Prop} [Decidable p] (h1 : p → ResKeeps z a) (h2 : ¬p → ResKeeps z b) :
    ResKeeps z (if p then a else b) := by
  split
  · exact h1 ‹_›
  · exact h2 ‹_›

theorem ResKeeps.when {s f : State} {b : Bool} (h : b = true → Keeps s f) : ResKeeps s (when_ b s f) := by
  unfold when_
  split
  · exact ResKeeps.next (h ‹_›)
  · exact ResKeeps.next (Keeps.refl s)

/-- An entry of a mapped table: the default, or the image of the entry. -/
theorem sget_map_cases {α : Type} (d : α) (g : Nat → α → α) (m : Sparse α) (k : Nat) :
    sget d (m.map (fun e => (e.1, g e.1 e.2))) k = d ∨ sget d (m.map (fun e => (e.1, g e.1 e.2))) k = g k (sget d m k) := by
  induction m with
  | nil => exact Or.inl rfl
  | cons e m ih =>
    obtain ⟨i, x⟩ := e
    simp only [List.map_cons, sget]
    by_cases c1 : k = i
    · subst c1
      simp
    · by_cases c2 : k < i
      · simp [c1, c2]
      · simp only [if_neg c1, if_neg c2]
        exact ih

/-- Every tile changed, its memory as it was or in canonical form. -/
theorem Keeps.tilesMap {z x : State} (h : Keeps z x) {ht plat cfg pair clusters dies ports fns wins flights lanes freqs log resets free outs fresh tap i3cDyn pins}
    {g : Nat → Tile → Tile} (hp : plat = x.plat) (hg : ∀ k y, Memory.wf y.sram = true → Memory.wf (g k y).sram = true) :
    Keeps z (State.mk x.pending ht plat x.fuses cfg pair x.layout x.parts x.ctxs (x.tiles.map (fun e => (e.1, g e.1 e.2))) clusters dies ports
      fns x.hbm x.hostMem wins flights lanes freqs log resets free outs fresh tap i3cDyn pins) := by
  subst hp
  refine h.trans ⟨rfl, rfl, rfl, rfl, rfl, fun _ h => h, fun h => h, fun h => h, fun k hk => ?_, fun _ _ h => h, fun _ h => Or.inr h⟩
  simp only [State.tile] at hk ⊢
  rcases sget_map_cases {} g x.tiles k with e | e
  · rw [e]; rfl
  · rw [e]; exact hg _ _ hk

/-- Every context changed, none with a cluster more. -/
theorem Keeps.ctxsMap {z x : State} (h : Keeps z x) {ht cfg pair clusters dies ports fns wins flights lanes freqs log resets free outs fresh tap i3cDyn pins}
    {plat : Plat} {g : Nat → Ctx → Ctx} (hp : plat.powered = x.plat.powered) (hl : plat.lock = x.plat.lock)
    (hg : ∀ k y, (∀ i, (g k y).clusters.getLsbD i = true → y.clusters.getLsbD i = true) ∧
      ((g k y).st = .free → (g k y).clusters = 0 ∨ y.st = .free)) :
    Keeps z (State.mk x.pending ht plat x.fuses cfg pair x.layout x.parts (x.ctxs.map (fun e => (e.1, g e.1 e.2))) x.tiles clusters dies ports
      fns x.hbm x.hostMem wins flights lanes freqs log resets free outs fresh tap i3cDyn pins) := by
  refine h.trans ⟨rfl, rfl, rfl, rfl, hp, fun i hi => by rw [hl]; exact hi, fun h => h, fun h => h, fun _ h => h, fun c i hi => ?_, fun c hi => ?_⟩
  · simp only [State.ctx] at hi ⊢
    rcases sget_map_cases {} g x.ctxs (ctxKey c) with e | e
    · rw [e] at hi
      exact absurd hi (by simp)
    · rw [e] at hi
      exact (hg _ _).1 i hi
  · simp only [State.ctx] at hi ⊢
    rcases sget_map_cases {} g x.ctxs (ctxKey c) with e | e
    · rw [e]
      exact Or.inl rfl
    · rw [e] at hi ⊢
      exact (hg _ _).2 hi

theorem ResKeeps.awake {s : State} {r : Res} (h : ResKeeps s r) : ResKeeps s (Machine.awake s r) := by
  unfold Machine.awake
  exact ResKeeps.ite (fun _ => ResKeeps.next (Keeps.refl s)) (fun _ => h)

/-- Every tile and the engines changed, the tiles' memories as they were or in canonical form. -/
theorem Keeps.tiles {z x : State} (h : Keeps z x) (g : Nat → Tile → Tile)
    (hg : ∀ k y, Memory.wf y.sram = true → Memory.wf (g k y).sram = true) :
    Keeps z { x with tiles := x.tiles.map (fun e => (e.1, g e.1 e.2)) } :=
  Keeps.tilesMap (g := g) h rfl hg

theorem State.setTile_keeps {z_ s : State} {t : Nat} {y : Tile} (h_ : Keeps z_ s)
    (hy : Memory.wf (s.tile t).sram = true → Memory.wf y.sram = true) : Keeps z_ (s.setTile t y) := Keeps.setTile h_ hy

theorem State.setCluster_keeps {z_ s : State} {t : Nat} {y : Cluster} (h_ : Keeps z_ s) : Keeps z_ (s.setCluster t y) :=
  h_.trans ⟨rfl, rfl, rfl, rfl, rfl, fun _ h => h, fun h => h, fun h => h, fun _ h => h, fun _ _ h => h, fun _ h => Or.inr h⟩

theorem State.setDie_keeps {z_ s : State} {t : Nat} {y : Die} (h_ : Keeps z_ s) : Keeps z_ (s.setDie t y) :=
  h_.trans ⟨rfl, rfl, rfl, rfl, rfl, fun _ h => h, fun h => h, fun h => h, fun _ h => h, fun _ _ h => h, fun _ h => Or.inr h⟩

theorem State.setPort_keeps {z_ s : State} {t : Nat} {y : Port} (h_ : Keeps z_ s) : Keeps z_ (s.setPort t y) :=
  h_.trans ⟨rfl, rfl, rfl, rfl, rfl, fun _ h => h, fun h => h, fun h => h, fun _ h => h, fun _ _ h => h, fun _ h => Or.inr h⟩

theorem State.setFn_keeps {z_ s : State} {t : Nat} {y : Fn} (h_ : Keeps z_ s) : Keeps z_ (s.setFn t y) :=
  h_.trans ⟨rfl, rfl, rfl, rfl, rfl, fun _ h => h, fun h => h, fun h => h, fun _ h => h, fun _ _ h => h, fun _ h => Or.inr h⟩

theorem State.setWin_keeps {z_ s : State} {t : Nat} {y : Win} (h_ : Keeps z_ s) : Keeps z_ (s.setWin t y) :=
  h_.trans ⟨rfl, rfl, rfl, rfl, rfl, fun _ h => h, fun h => h, fun h => h, fun _ h => h, fun _ _ h => h, fun _ h => Or.inr h⟩

theorem State.setCtx_keeps {z_ s : State} {c : CtxRef} {y : Ctx} (h_ : Keeps z_ s)
    (hy : (∀ i, y.clusters.getLsbD i = true → (s.ctx c).clusters.getLsbD i = true) ∧
      (y.st = .free → y.clusters = 0 ∨ (s.ctx c).st = .free)) : Keeps z_ (s.setCtx c y) := by
  refine h_.trans ⟨rfl, rfl, rfl, rfl, rfl, fun _ h => h, fun h => h, fun h => h, fun _ h => h, fun c' i hi => ?_, fun c' hi => ?_⟩
  · simp only [State.ctx, State.setCtx, sget_sput] at hi hy ⊢
    split at hi
    · rename_i e
      rw [e]
      exact hy.1 i hi
    · exact hi
  · simp only [State.ctx, State.setCtx, sget_sput] at hi hy ⊢
    split at hi
    · rename_i e
      simp only [if_pos e]
      rw [e]
      exact hy.2 hi
    · rename_i e
      simp only [if_neg e]
      exact Or.inr hi

theorem State.setThread_keeps {z_ : State} {s : State} {t : Nat} {n : Nat} {x : Thread} (h_ : Keeps z_ s) : Keeps z_ (State.setThread s t n x) := by
  refine h_.trans ?_; clear h_
  unfold State.setThread; try dsimp only
  repeat' (first | with_reducible exact Keeps.refl _ | with_reducible refine Keeps.setTile ?_ (fun h => h))

theorem State.sramWrite_keeps {z_ s : State} {t a : Nat} {bs : List Byte} (h_ : Keeps z_ s) : Keeps z_ (s.sramWrite t a bs) :=
  Keeps.setTile h_ (Memory.wf_mwrite _ _)

theorem State.setRing_keeps {z_ : State} {s : State} {r : RingRef} {x : Ring} (h_ : Keeps z_ s) : Keeps z_ (State.setRing s r x) := by
  refine h_.trans ?_; clear h_
  unfold State.setRing; try dsimp only
  repeat' (first | with_reducible exact Keeps.refl _ | with_reducible refine State.setFn_keeps ?_)

theorem State.emit_keeps {z_ : State} {s : State} {o : Out} (h_ : Keeps z_ s) : Keeps z_ (State.emit s o) := by
  refine h_.trans ?_; clear h_
  unfold State.emit; try dsimp only
  repeat' (first
    | with_reducible exact Keeps.refl _ | (fail_if_no_progress with_reducible refine Keeps.upd ?_ rfl rfl rfl rfl rfl rfl rfl rfl rfl rfl)
    | split)

theorem State.hwSet_keeps {z_ : State} {s : State} {a : Nat} (h_ : Keeps z_ s) : Keeps z_ (State.hwSet s a) := by
  refine h_.trans ?_; clear h_
  unfold State.hwSet; try dsimp only
  repeat' (first
    | with_reducible exact Keeps.refl _ | (fail_if_no_progress with_reducible refine Keeps.upd ?_ rfl rfl rfl rfl rfl rfl rfl rfl rfl rfl))

theorem State.hwRec_keeps {z_ : State} {s : State} {a : Nat} {r : W64} (h_ : Keeps z_ s) : Keeps z_ (State.hwRec s a r) := by
  refine h_.trans ?_; clear h_
  unfold State.hwRec; try dsimp only
  repeat' (first
    | with_reducible exact Keeps.refl _ | (fail_if_no_progress with_reducible refine Keeps.upd ?_ rfl rfl rfl rfl rfl rfl rfl rfl rfl rfl))

theorem State.setSs_keeps {z_ : State} {s : State} {d : Nat} {c : Nat} {x : SsRegs} (h_ : Keeps z_ s) : Keeps z_ (State.setSs s d c x) := by
  refine h_.trans ?_; clear h_
  unfold State.setSs; try dsimp only
  repeat' (first | with_reducible exact Keeps.refl _ | with_reducible refine State.setDie_keeps ?_)

theorem State.orderMode_keeps {z_ : State} {s : State} {cid : Nat} {env : Bool} (h_ : Keeps z_ s) : Keeps z_ (State.orderMode s cid env) := by
  refine h_.trans ?_; clear h_
  unfold State.orderMode; try dsimp only
  repeat' (first | with_reducible exact Keeps.refl _ | with_reducible refine State.setCluster_keeps ?_)

theorem State.demand_keeps {z_ : State} {s : State} {cid : Nat} (h_ : Keeps z_ s) : Keeps z_ (State.demand s cid) := by
  refine h_.trans ?_; clear h_
  unfold State.demand; try dsimp only
  repeat' (first | with_reducible exact Keeps.refl _ | with_reducible refine State.setCluster_keeps ?_ | split)

theorem State.paWrite_keeps {z_ s : State} {p pa : Nat} {bs : List Byte} (h_ : Keeps z_ s) : Keeps z_ (s.paWrite p pa bs) := by
  induction bs generalizing s pa with
  | nil => exact h_
  | cons b bs ih =>
    unfold State.paWrite
    apply ih
    split
    · exact Keeps.hbmW h_ (Memory.wf_mput _ _)
    · exact h_

theorem State.leafOf_keeps {z_ : State} {s : State} {d : Nat} {c : CtxRef} {va : Nat} (h_ : Keeps z_ s) : Keeps z_ (State.leafOf s d c va).1 := by
  refine h_.trans ?_; clear h_
  unfold State.leafOf; try dsimp only
  repeat' (first
    | with_reducible exact Keeps.refl _ | (fail_if_no_progress with_reducible refine Keeps.upd ?_ rfl rfl rfl rfl rfl rfl rfl rfl rfl rfl)
    | split)

theorem State.remember_keeps {z_ : State} {s : State} {d : Nat} {slot : Nat} {va : Nat} {leaf : W64} {big : Bool} (h_ : Keeps z_ s) : Keeps z_ (State.remember s d slot va leaf big) := by
  refine h_.trans ?_; clear h_
  unfold State.remember; try dsimp only
  repeat' (first
    | with_reducible exact Keeps.refl _ | with_reducible refine State.setDie_keeps ?_
    | with_reducible refine Keeps.ite (fun _ => ?_) (fun _ => ?_))

theorem State.translate_keeps {z_ : State} {s : State} {d : Nat} {c : CtxRef} {va : Nat} {wr : Bool} (h_ : Keeps z_ s) : Keeps z_ (State.translate s d c va wr).1 := by
  refine h_.trans ?_; clear h_
  unfold State.translate; try dsimp only
  repeat' (first
    | with_reducible exact Keeps.refl _ | (with_reducible refine Keeps.of_fst (State.leafOf_keeps ?_) (by assumption))
    | with_reducible refine State.remember_keeps ?_ | split)

theorem State.translateAll_keeps {z_ s : State} {d : Nat} {c : CtxRef} {wr : Bool} {as : List Nat} (h_ : Keeps z_ s) :
    Keeps z_ (s.translateAll d c wr as).1 := by
  induction as generalizing s with
  | nil => exact h_
  | cons a as ih =>
    unfold State.translateAll
    split
    · exact Keeps.of_fst (State.translate_keeps h_) (by assumption)
    · split
      · exact Keeps.of_fst (ih (Keeps.of_fst (State.translate_keeps h_) (by assumption))) (by assumption)
      · exact Keeps.of_fst (ih (Keeps.of_fst (State.translate_keeps h_) (by assumption))) (by assumption)

theorem State.vaWrite_keeps {z_ : State} {s : State} {d : Nat} {c : CtxRef} {va : Nat} {bs : List Byte} (h_ : Keeps z_ s) : Keeps z_ (State.vaWrite s d c va bs).1 := by
  refine h_.trans ?_; clear h_
  unfold State.vaWrite; try dsimp only
  repeat' (first
    | with_reducible exact Keeps.refl _ | (with_reducible refine Keeps.of_fst (State.translateAll_keeps ?_) (by assumption))
    | with_reducible refine Keeps.hbmW ?_ (Memory.wf_hbmPut _) | split)

theorem State.vaRead_keeps {z_ : State} {s : State} {d : Nat} {c : CtxRef} {va : Nat} {n : Nat} (h_ : Keeps z_ s) : Keeps z_ (State.vaRead s d c va n).1 := by
  refine h_.trans ?_; clear h_
  unfold State.vaRead; try dsimp only
  repeat' (first | with_reducible exact Keeps.refl _ | (with_reducible refine Keeps.of_fst (State.translateAll_keeps ?_) (by assumption)) | split)

theorem State.sendVec_keeps {z_ : State} {s : State} {f : Nat} {v : Nat} (h_ : Keeps z_ s) : Keeps z_ (State.sendVec s f v) := by
  refine h_.trans ?_; clear h_
  unfold State.sendVec; try dsimp only
  repeat' (first
    | with_reducible exact Keeps.refl _ | with_reducible refine State.setFn_keeps ?_ | with_reducible refine State.emit_keeps ?_
    | (fail_if_no_progress with_reducible refine Keeps.upd ?_ rfl rfl rfl rfl rfl rfl rfl rfl rfl rfl))

theorem State.fireVec_keeps {z_ : State} {s : State} {f : Nat} {v : Nat} (h_ : Keeps z_ s) : Keeps z_ (State.fireVec s f v) := by
  refine h_.trans ?_; clear h_
  unfold State.fireVec; try dsimp only
  repeat' (first
    | with_reducible exact Keeps.refl _ | with_reducible refine State.setFn_keeps ?_ | with_reducible refine State.sendVec_keeps ?_
    | with_reducible refine Keeps.ite (fun _ => ?_) (fun _ => ?_))

theorem State.countVec_keeps {z_ : State} {s : State} {f : Nat} {v : Nat} (h_ : Keeps z_ s) : Keeps z_ (State.countVec s f v) := by
  refine h_.trans ?_; clear h_
  unfold State.countVec; try dsimp only
  repeat' (first
    | with_reducible exact Keeps.refl _ | with_reducible refine State.setFn_keeps ?_ | with_reducible refine State.fireVec_keeps ?_
    | with_reducible refine Keeps.ite (fun _ => ?_) (fun _ => ?_))

theorem State.pme_keeps {z_ : State} {s : State} {f : Nat} (h_ : Keeps z_ s) : Keeps z_ (State.pme s f) := by
  refine h_.trans ?_; clear h_
  unfold State.pme; try dsimp only
  repeat' (first
    | with_reducible exact Keeps.refl _ | with_reducible refine State.emit_keeps ?_
    | with_reducible refine Keeps.ite (fun _ => ?_) (fun _ => ?_))

theorem State.setAttn_keeps {z_ : State} {s : State} {f : Nat} {b : Nat} (h_ : Keeps z_ s) : Keeps z_ (State.setAttn s f b) := by
  refine h_.trans ?_; clear h_
  unfold State.setAttn; try dsimp only
  repeat' (first
    | with_reducible exact Keeps.refl _ | with_reducible refine State.setFn_keeps ?_ | with_reducible refine State.hwSet_keeps ?_
    | with_reducible refine State.countVec_keeps ?_ | with_reducible refine State.pme_keeps ?_
    | with_reducible refine Keeps.ite (fun _ => ?_) (fun _ => ?_))

theorem State.setAttnM_keeps {z_ : State} {s : State} {b : Nat} (h_ : Keeps z_ s) : Keeps z_ (State.setAttnM s b) := by
  refine h_.trans ?_; clear h_
  unfold State.setAttnM; try dsimp only
  repeat' (first
    | with_reducible exact Keeps.refl _ | with_reducible refine State.setAttn_keeps ?_ | with_reducible refine Keeps.forAll ?_ (fun _ _ => ?_))

theorem State.evcRaise_keeps {z_ : State} {s : State} {d : Nat} {src : Nat} {ht : W64} {offer : Bool} {x : RaiseInfo} (h_ : Keeps z_ s) : Keeps z_ (State.evcRaise s d src ht offer x) := by
  refine h_.trans ?_; clear h_
  unfold State.evcRaise; try dsimp only
  repeat' (first
    | with_reducible exact Keeps.refl _ | with_reducible refine State.setDie_keeps ?_ | with_reducible refine State.hwSet_keeps ?_
    | with_reducible refine Keeps.ite (fun _ => ?_) (fun _ => ?_))

theorem State.latchEdge_keeps {z_ : State} {s : State} {d : Nat} {l : Nat} {x : RaiseInfo} (h_ : Keeps z_ s) : Keeps z_ (State.latchEdge s d l x) := by
  refine h_.trans ?_; clear h_
  unfold State.latchEdge; try dsimp only
  repeat' (first
    | with_reducible exact Keeps.refl _ | with_reducible refine State.setDie_keeps ?_ | with_reducible refine State.hwSet_keeps ?_
    | with_reducible refine Keeps.ite (fun _ => ?_) (fun _ => ?_))

theorem State.raise_keeps {z_ : State} {s : State} {d : Nat} {src : Nat} {x : RaiseInfo} (h_ : Keeps z_ s) : Keeps z_ (State.raise s d src x) := by
  refine h_.trans ?_; clear h_
  unfold State.raise; try dsimp only
  repeat' (first
    | with_reducible exact Keeps.refl _ | with_reducible refine State.setAttn_keeps ?_ | with_reducible refine State.setAttnM_keeps ?_
    | with_reducible refine State.evcRaise_keeps ?_ | with_reducible refine State.latchEdge_keeps ?_
    | with_reducible refine Keeps.forAll ?_ (fun _ _ => ?_) | split)

theorem State.touch_keeps {z_ : State} {s : State} (h_ : Keeps z_ s) : Keeps z_ (State.touch s) := by
  refine h_.trans ?_; clear h_
  unfold State.touch; try dsimp only
  repeat' (first
    | with_reducible exact Keeps.refl _ | (fail_if_no_progress with_reducible refine Keeps.upd ?_ rfl rfl rfl rfl rfl rfl rfl rfl rfl rfl))

theorem State.flush_keeps {z_ : State} {s : State} (h_ : Keeps z_ s) : Keeps z_ (State.flush s) := by
  refine h_.trans ?_; clear h_
  unfold State.flush; try dsimp only
  repeat' (first
    | with_reducible exact Keeps.refl _ | with_reducible refine State.sendVec_keeps ?_ | with_reducible refine Keeps.forAll ?_ (fun _ _ => ?_)
    | with_reducible refine Keeps.ite (fun _ => ?_) (fun _ => ?_))

theorem State.pmeAckIfDone_keeps {z_ : State} {s : State} (h_ : Keeps z_ s) : Keeps z_ (State.pmeAckIfDone s) := by
  refine h_.trans ?_; clear h_
  unfold State.pmeAckIfDone; try dsimp only
  repeat' (first
    | with_reducible exact Keeps.refl _ | with_reducible refine State.emit_keeps ?_ | with_reducible refine State.flush_keeps ?_
    | (fail_if_no_progress with_reducible refine Keeps.upd ?_ rfl rfl rfl rfl rfl rfl rfl rfl rfl rfl) | split)

theorem State.reply_keeps {z_ s : State} {r : RingRef} {code w1 w2 w3 : Nat} (h_ : Keeps z_ s) : Keeps z_ (s.reply r code w1 w2 w3) := by
  refine h_.trans ?_
  unfold State.reply
  dsimp only
  split
  · exact Keeps.refl _
  · refine Keeps.ite (fun _ => State.setRing_keeps (Keeps.refl _)) (fun _ => ?_)
    refine State.pmeAckIfDone_keeps (State.touch_keeps (State.pme_keeps ?_))
    refine Keeps.ite (fun _ => State.countVec_keeps ?_) (fun _ => ?_)
    all_goals exact Keeps.hostW (State.setRing_keeps (Keeps.refl _)) (fun h => Memory.wf_mwrite _ _ (Memory.wf_mwrite _ _ h))

theorem State.replyCode_keeps {z_ : State} {s : State} {r : RingRef} {code : Nat} (h_ : Keeps z_ s) : Keeps z_ (State.replyCode s r code) := by
  refine h_.trans ?_; clear h_
  unfold State.replyCode; try dsimp only
  repeat' (first | with_reducible exact Keeps.refl _ | with_reducible refine State.reply_keeps ?_)

theorem State.replyTo_keeps {z_ : State} {s : State} {r : Option RingRef} {code : Nat} {w1 : Nat} {w2 : Nat} {w3 : Nat} (h_ : Keeps z_ s) : Keeps z_ (State.replyTo s r code w1 w2 w3) := by
  refine h_.trans ?_; clear h_
  unfold State.replyTo; try dsimp only
  repeat' (first | with_reducible exact Keeps.refl _ | with_reducible refine State.reply_keeps ?_ | split)

theorem State.passTurn_keeps {z_ : State} {s : State} {r : RingRef} (h_ : Keeps z_ s) : Keeps z_ (State.passTurn s r) := by
  refine h_.trans ?_; clear h_
  unfold State.passTurn; try dsimp only
  repeat' (first | with_reducible exact Keeps.refl _ | with_reducible refine State.setFn_keeps ?_)

theorem State.take_keeps {z_ : State} {s : State} {r : RingRef} {w : CmdWords} (h_ : Keeps z_ s) : Keeps z_ (State.take s r w) := by
  refine h_.trans ?_; clear h_
  unfold State.take; try dsimp only
  repeat' (first
    | with_reducible exact Keeps.refl _ | with_reducible refine State.setFn_keeps ?_ | with_reducible refine State.setRing_keeps ?_
    | with_reducible refine State.touch_keeps ?_ | with_reducible refine State.passTurn_keeps ?_)

theorem hostCmd_keeps {s : State} {r : RingRef} {w : CmdWords} {k : CmdSpec} {body : State → State}
    (hb : ∀ y, Keeps y (body y)) : ResKeeps s (hostCmd s r w k body) := by
  unfold hostCmd
  refine ResKeeps.ite (fun _ => ResKeeps.fault _ _) (fun _ => ResKeeps.ite (fun _ => ResKeeps.next (Keeps.refl _)) (fun _ =>
    ResKeeps.ite (fun _ => ResKeeps.next (State.passTurn_keeps (Keeps.refl _))) (fun _ => ?_)))
  dsimp only
  split
  · exact ResKeeps.next (State.replyCode_keeps (State.take_keeps (Keeps.refl _)))
  · exact ResKeeps.next ((State.take_keeps (Keeps.refl _)).trans (hb _))

theorem hostCtxCmd_keeps {s : State} {r : RingRef} {w : CmdWords} {k : CmdSpec} {body : State → CtxRef → State}
    (hb : ∀ y c, Keeps y (body y c)) : ResKeeps s (hostCtxCmd s r w k body) := by
  unfold hostCtxCmd
  refine hostCmd_keeps (fun y => ?_)
  split
  · exact State.replyCode_keeps (Keeps.refl _)
  · exact hb _ _

theorem State.setBank_keeps {z_ : State} {s : State} {cid : Nat} {g : Nat} {b : Bank} (h_ : Keeps z_ s) : Keeps z_ (State.setBank s cid g b) := by
  refine h_.trans ?_; clear h_
  unfold State.setBank; try dsimp only
  repeat' (first
    | with_reducible exact Keeps.refl _ | with_reducible refine State.setCluster_keeps ?_
    | with_reducible refine Keeps.ite (fun _ => ?_) (fun _ => ?_))

theorem State.sampleDie_keeps {z_ : State} {s : State} {c : CtxRef} {d : Nat} {off : Nat} {len : Nat} {auto : Bool} (h_ : Keeps z_ s) : Keeps z_ (State.sampleDie s c d off len auto) := by
  refine h_.trans ?_; clear h_
  unfold State.sampleDie; try dsimp only
  repeat' (first
    | with_reducible exact Keeps.refl _ | with_reducible refine State.setDie_keeps ?_ | with_reducible refine State.hwSet_keeps ?_
    | with_reducible refine State.paWrite_keeps ?_ | with_reducible refine Keeps.forAll ?_ (fun _ _ => ?_)
    | with_reducible refine Keeps.ite (fun _ => ?_) (fun _ => ?_))

theorem State.autoSample_keeps {z_ : State} {s : State} {c : CtxRef} (h_ : Keeps z_ s) : Keeps z_ (State.autoSample s c) := by
  refine h_.trans ?_; clear h_
  unfold State.autoSample; try dsimp only
  repeat' (first
    | with_reducible exact Keeps.refl _ | with_reducible refine State.sampleDie_keeps ?_ | with_reducible refine Keeps.forAll ?_ (fun _ _ => ?_)
    | with_reducible refine Keeps.ite (fun _ => ?_) (fun _ => ?_))

theorem State.faultDie_keeps {z_ : State} {s : State} {c : CtxRef} {cause : Nat} {src : Nat} {d : Nat} (h_ : Keeps z_ s) : Keeps z_ (State.faultDie s c cause src d) := by
  refine h_.trans ?_; clear h_
  unfold State.faultDie; try dsimp only
  repeat' (first
    | with_reducible exact Keeps.refl _ | with_reducible refine State.setDie_keeps ?_ | with_reducible refine State.hwSet_keeps ?_
    | with_reducible refine State.hwRec_keeps ?_ | with_reducible refine Keeps.ite (fun _ => ?_) (fun _ => ?_))

theorem State.stopJobs_keeps {z_ : State} {s : State} {cid : Nat} (h_ : Keeps z_ s) : Keeps z_ (State.stopJobs s cid) := by
  refine h_.trans ?_; clear h_
  unfold State.stopJobs; try dsimp only
  repeat' (first
    | with_reducible exact Keeps.refl _ | with_reducible refine State.setCluster_keeps ?_
    | with_reducible refine Keeps.ite (fun _ => ?_) (fun _ => ?_))

theorem State.faultCtx_keeps {z_ : State} {s : State} {c : CtxRef} {cause : Nat} {src : Nat} (h_ : Keeps z_ s) : Keeps z_ (State.faultCtx s c cause src) := by
  refine h_.trans ?_; clear h_
  unfold State.faultCtx; try dsimp only
  repeat' (first
    | with_reducible exact Keeps.refl _ | with_reducible refine State.setPort_keeps ?_ | with_reducible refine State.raise_keeps ?_
    | with_reducible refine State.replyCode_keeps ?_ | with_reducible refine State.autoSample_keeps ?_
    | with_reducible refine State.faultDie_keeps ?_ | with_reducible refine State.stopJobs_keeps ?_
    | with_reducible refine Keeps.forAll ?_ (fun _ _ => ?_)
    | (fail_if_no_progress with_reducible refine Keeps.upd ?_ rfl rfl rfl rfl rfl rfl rfl rfl rfl rfl)
    | (refine State.setCtx_keeps ?_ ?_; rotate_left; exact ⟨fun _ h => h, fun h => by cases h⟩) | split)

theorem State.faultEvent_keeps {z_ : State} {s : State} {c : CtxRef} {src : Nat} (h_ : Keeps z_ s) : Keeps z_ (State.faultEvent s c src) := by
  refine h_.trans ?_; clear h_
  unfold State.faultEvent; try dsimp only
  repeat' (first | with_reducible exact Keeps.refl _ | with_reducible refine State.faultCtx_keeps ?_)

theorem State.trapNamed_keeps {z_ : State} {s : State} {c : CtxRef} {t : Nat} {n : Nat} {src : Nat} {detail : W64} {names : List Nat} (h_ : Keeps z_ s) : Keeps z_ (State.trapNamed s c t n src detail names) := by
  refine h_.trans ?_; clear h_
  unfold State.trapNamed; try dsimp only
  repeat' (first
    | with_reducible exact Keeps.refl _ | with_reducible refine State.raise_keeps ?_ | with_reducible refine State.faultEvent_keeps ?_
    | with_reducible refine Keeps.setTile ?_ (fun h => h) | split)

theorem State.trapWith_keeps {z_ : State} {s : State} {c : CtxRef} {t : Nat} {n : Nat} {src : Nat} {detail : W64} (h_ : Keeps z_ s) : Keeps z_ (State.trapWith s c t n src detail) := by
  refine h_.trans ?_; clear h_
  unfold State.trapWith; try dsimp only
  repeat' (first | with_reducible exact Keeps.refl _ | with_reducible refine State.trapNamed_keeps ?_)

theorem State.trap_keeps {z_ : State} {s : State} {c : CtxRef} {t : Nat} {n : Nat} {src : Nat} {sram : Nat} {unit : Nat} {slot : Nat} (h_ : Keeps z_ s) : Keeps z_ (State.trap s c t n src sram unit slot) := by
  refine h_.trans ?_; clear h_
  unfold State.trap; try dsimp only
  repeat' (first | with_reducible exact Keeps.refl _ | with_reducible refine State.trapWith_keeps ?_)

theorem State.bankOff_keeps {z_ : State} {s : State} {c : CtxRef} {t : Nat} {a : Nat} {unit : Nat} (h_ : Keeps z_ s) : Keeps z_ (State.bankOff s c t a unit) := by
  refine h_.trans ?_; clear h_
  unfold State.bankOff; try dsimp only
  repeat' (first | with_reducible exact Keeps.refl _ | with_reducible refine State.raise_keeps ?_ | with_reducible refine State.faultEvent_keeps ?_)

theorem State.queueOn_keeps {z_ : State} {s : State} {p : Nat} {w : W64} (h_ : Keeps z_ s) : Keeps z_ (State.queueOn s p w) := by
  refine h_.trans ?_; clear h_
  unfold State.queueOn; try dsimp only
  repeat' (first | with_reducible exact Keeps.refl _ | with_reducible refine State.setPort_keeps ?_)

theorem State.sendSym_keeps {z_ : State} {s : State} {p : Nat} {w : W64} (h_ : Keeps z_ s) : Keeps z_ (State.sendSym s p w) := by
  refine h_.trans ?_; clear h_
  unfold State.sendSym; try dsimp only
  repeat' (first
    | with_reducible exact Keeps.refl _ | with_reducible refine State.queueOn_keeps ?_
    | with_reducible refine Keeps.ite (fun _ => ?_) (fun _ => ?_))

theorem State.flushSyms_keeps {z_ : State} {s : State} {p : Nat} (h_ : Keeps z_ s) : Keeps z_ (State.flushSyms s p) := by
  refine h_.trans ?_; clear h_
  unfold State.flushSyms; try dsimp only
  repeat' (first
    | with_reducible exact Keeps.refl _ | with_reducible refine State.setPort_keeps ?_ | with_reducible refine State.emit_keeps ?_
    | with_reducible refine Keeps.forAll ?_ (fun _ _ => ?_) | with_reducible refine Keeps.ite (fun _ => ?_) (fun _ => ?_))

theorem State.sendThs_keeps {z_ : State} {s : State} {p : Nat} {w : W64} (h_ : Keeps z_ s) : Keeps z_ (State.sendThs s p w) := by
  refine h_.trans ?_; clear h_
  unfold State.sendThs; try dsimp only
  repeat' (first
    | with_reducible exact Keeps.refl _ | with_reducible refine State.sendSym_keeps ?_
    | with_reducible refine Keeps.ite (fun _ => ?_) (fun _ => ?_))

theorem State.symErr_keeps {z_ : State} {s : State} {p : Nat} (h_ : Keeps z_ s) : Keeps z_ (State.symErr s p) := by
  refine h_.trans ?_; clear h_
  unfold State.symErr; try dsimp only
  repeat' (first | with_reducible exact Keeps.refl _ | with_reducible refine State.setPort_keeps ?_)

theorem State.countCopy_keeps {z_ : State} {s : State} {p : Nat} {w : W64} (h_ : Keeps z_ s) : Keeps z_ (State.countCopy s p w) := by
  refine h_.trans ?_; clear h_
  unfold State.countCopy; try dsimp only
  repeat' (first
    | with_reducible exact Keeps.refl _ | with_reducible refine State.symErr_keeps ?_
    | with_reducible refine Keeps.ite (fun _ => ?_) (fun _ => ?_))

theorem State.recordMiss_keeps {z_ : State} {s : State} {c : CtxRef} {d : Nat} {cause : Nat} {ns : Nat} (h_ : Keeps z_ s) : Keeps z_ (State.recordMiss s c d cause ns) := by
  refine h_.trans ?_; clear h_
  unfold State.recordMiss; try dsimp only
  repeat' (first | with_reducible exact Keeps.refl _ | with_reducible refine State.setSs_keeps ?_ | with_reducible refine State.raise_keeps ?_)

theorem State.setMissBits_keeps {z_ : State} {s : State} {c : CtxRef} {bits : Nat} (h_ : Keeps z_ s) : Keeps z_ (State.setMissBits s c bits) := by
  refine h_.trans ?_; clear h_
  unfold State.setMissBits; try dsimp only
  repeat' (first
    | with_reducible exact Keeps.refl _ | with_reducible refine State.setDie_keeps ?_ | with_reducible refine Keeps.forAll ?_ (fun _ _ => ?_))

theorem State.missFault_keeps {z_ : State} {s : State} {c : CtxRef} {bits : Nat} (h_ : Keeps z_ s) : Keeps z_ (State.missFault s c bits) := by
  refine h_.trans ?_; clear h_
  unfold State.missFault; try dsimp only
  repeat' (first
    | with_reducible exact Keeps.refl _ | with_reducible refine State.faultEvent_keeps ?_ | with_reducible refine State.setMissBits_keeps ?_
    | with_reducible refine Keeps.ite (fun _ => ?_) (fun _ => ?_))

theorem State.instantMiss_keeps {z_ : State} {s : State} {c : CtxRef} {cause : Nat} {ns : Nat → Nat} {ds : List Nat} (h_ : Keeps z_ s) : Keeps z_ (State.instantMiss s c cause ns ds) := by
  refine h_.trans ?_; clear h_
  unfold State.instantMiss; try dsimp only
  repeat' (first | with_reducible exact Keeps.refl _ | (refine State.setCtx_keeps ?_ ?_; rotate_left; exact ⟨fun _ h => h, fun h => Or.inr h⟩))

theorem State.endInstant_keeps {z_ : State} {s : State} {c : CtxRef} (h_ : Keeps z_ s) : Keeps z_ (State.endInstant s c) := by
  refine h_.trans ?_; clear h_
  unfold State.endInstant; try dsimp only
  repeat' (first
    | with_reducible exact Keeps.refl _ | with_reducible refine State.recordMiss_keeps ?_ | with_reducible refine State.missFault_keeps ?_
    | with_reducible refine Keeps.forAll ?_ (fun _ _ => ?_) | with_reducible refine Keeps.ite (fun _ => ?_) (fun _ => ?_)
    | (refine State.setCtx_keeps ?_ ?_; rotate_left; exact ⟨fun _ h => h, fun h => Or.inr h⟩))

theorem State.addStretch_keeps {z_ : State} {s : State} {c : CtxRef} {d : Nat} {ns : Nat} (h_ : Keeps z_ s) : Keeps z_ (State.addStretch s c d ns) := by
  refine h_.trans ?_; clear h_
  unfold State.addStretch; try dsimp only
  repeat' (first | with_reducible exact Keeps.refl _ | with_reducible refine State.setSs_keeps ?_)

end Sys2Proof.Machine
end

