-- ==== Sys2Proof/Laws/KeepsTile.lean ====
section
/-!
SUPPORT. `Keeps` for the tile instructions, the streams, messages, flags and the Clover.
-/

namespace Sys2Proof.Machine

theorem State.setEngine_keeps {z_ : State} {s : State} {cid : Nat} {e : Nat} {y : Engine} (h_ : Keeps z_ s) : Keeps z_ (State.setEngine s cid e y) := by
  refine h_.trans ?_; clear h_
  unfold State.setEngine; try dsimp only
  repeat' (first | with_reducible exact Keeps.refl _ | with_reducible refine State.setCluster_keeps ?_)

theorem State.clvErr_keeps {z_ : State} {s : State} {cid : Nat} {cause : Nat} {check : Nat} {eng : Nat} {seq : Nat} {lane : Nat} {thr : Nat} {dma : Bool} {addr : Nat} (h_ : Keeps z_ s) : Keeps z_ (State.clvErr s cid cause check eng seq lane thr dma addr) := by
  refine h_.trans ?_; clear h_
  unfold State.clvErr; try dsimp only
  repeat' (first
    | with_reducible exact Keeps.refl _ | with_reducible refine State.setCluster_keeps ?_ | with_reducible refine State.hwSet_keeps ?_
    | with_reducible refine State.hwRec_keeps ?_ | with_reducible refine Keeps.ite (fun _ => ?_) (fun _ => ?_))

theorem State.noteErr_keeps {z_ : State} {s : State} {t : Nat} {thr : Nat} {a : Nat} {dma : Bool} {e : AccErr} (h_ : Keeps z_ s) : Keeps z_ (State.noteErr s t thr a dma e) := by
  refine h_.trans ?_; clear h_
  unfold State.noteErr; try dsimp only
  repeat' (first | with_reducible exact Keeps.refl _ | with_reducible refine State.clvErr_keeps ?_ | split)

theorem State.accTrap_keeps {z_ : State} {s : State} {c : CtxRef} {t : Nat} {n : Nat} {a : Nat} {e : AccErr} (h_ : Keeps z_ s) : Keeps z_ (State.accTrap s c t n a e) := by
  refine h_.trans ?_; clear h_
  unfold State.accTrap; try dsimp only
  repeat' (first | with_reducible exact Keeps.refl _ | with_reducible refine State.trapNamed_keeps ?_ | with_reducible refine State.noteErr_keeps ?_)

theorem State.countReplay_keeps {z_ : State} {s : State} {d : Nat} (h_ : Keeps z_ s) : Keeps z_ (State.countReplay s d) := by
  refine h_.trans ?_; clear h_
  unfold State.countReplay; try dsimp only
  repeat' (first | with_reducible exact Keeps.refl _ | with_reducible refine State.setDie_keeps ?_)

theorem State.modThread_keeps {z_ : State} {s : State} {t : Nat} {n : Nat} {g : Thread → Thread} (h_ : Keeps z_ s) : Keeps z_ (State.modThread s t n g) := by
  refine h_.trans ?_; clear h_
  unfold State.modThread; try dsimp only
  repeat' (first | with_reducible exact Keeps.refl _ | with_reducible refine State.setThread_keeps ?_)

theorem State.passSlot_keeps {z_ : State} {s : State} {r : IssueRef} (h_ : Keeps z_ s) : Keeps z_ (State.passSlot s r) := by
  refine h_.trans ?_; clear h_
  unfold State.passSlot; try dsimp only
  repeat' (first | with_reducible exact Keeps.refl _ | with_reducible refine Keeps.setTile ?_ (fun h => h))

theorem issue_keeps {s : State} {r : IssueRef} {cls op : Nat} {f : Fields} {body : State → CtxRef → State}
    (hb : ∀ y c, Keeps y (body y c)) : ResKeeps s (issue s r cls op f body) := by
  have h1 : Keeps s (s.passSlot r) := State.passSlot_keeps (Keeps.refl _)
  unfold issue
  refine ResKeeps.ite (fun _ => ResKeeps.fault _ _) (fun _ => ?_)
  split
  · exact ResKeeps.next (Keeps.refl _)
  · dsimp only
    refine ResKeeps.ite (fun _ => ResKeeps.next (Keeps.refl _)) (fun _ => ?_)
    refine ResKeeps.ite (fun _ => ResKeeps.next (State.trap_keeps h1)) (fun _ => ?_)
    split
    · exact ResKeeps.next (State.accTrap_keeps h1)
    · refine ResKeeps.ite (fun _ => ResKeeps.next (State.countReplay_keeps h1)) (fun _ => ?_)
      have h2 := h1.trans (Keeps.setTile (y := { ((s.passSlot r).tile r.tid).grant r.cyc prioFetch (narrowMask (s.thread r.tid r.thr).pc.toNat) with pmAt := none })
        (t := r.tid) (Keeps.refl _) (fun h => h))
      refine ResKeeps.ite (fun _ => ResKeeps.next (State.trap_keeps h2)) (fun _ => ?_)
      refine ResKeeps.ite (fun _ => ResKeeps.next (Keeps.refl _)) (fun _ => ?_)
      exact ResKeeps.next (h2.trans (hb _ _))

theorem State.sramTrap_keeps {z_ : State} {s : State} {r : IssueRef} {c : CtxRef} {a : W64} {unit : Nat} (h_ : Keeps z_ s) : Keeps z_ (State.sramTrap s r c a unit) := by
  refine h_.trans ?_; clear h_
  unfold State.sramTrap; try dsimp only
  repeat' (first | with_reducible exact Keeps.refl _ | with_reducible refine State.trap_keeps ?_)

theorem State.hold_keeps {z_ : State} {s : State} {r : IssueRef} {op : DataOp} {f : Fields} {k : Nat} {got : List Byte} (h_ : Keeps z_ s) : Keeps z_ (State.hold s r op f k got) := by
  refine h_.trans ?_; clear h_
  unfold State.hold; try dsimp only
  repeat' (first | with_reducible exact Keeps.refl _ | with_reducible refine State.modThread_keeps ?_)

/-- A tile whose memory is put back as it was in the state before. -/
theorem Keeps.restore {z x : State} {t : Nat} (h : Keeps z x) {y : Tile} (e : y.sram = (z.tile t).sram) : Keeps z (x.setTile t y) := by
  refine ⟨h.pending, h.layout, h.parts, h.fuses, h.powered, h.lock, h.hbm, h.hostMem, fun k hk => ?_, h.mask, h.free⟩
  have hs := h.sram k hk
  simp only [State.tile, State.setTile, sget_sput] at hk hs e ⊢
  split
  · subst_vars
    rw [e]
    exact hk
  · exact hs

theorem State.dataStage_keeps {z_ s : State} {r : IssueRef} {c : CtxRef} {op : DataOp} {f : Fields} {j : Nat} {got : List Byte} {wide wr : Bool}
    {a n : Nat} {k : State → State} (h_ : Keeps z_ s) (hk : ∀ y, Keeps y (k y)) : Keeps z_ (s.dataStage r c op f j got wide wr a n k) := by
  refine h_.trans ?_
  unfold State.dataStage
  split
  · dsimp only
    refine Keeps.ite (fun _ => ?_) (fun _ => State.accTrap_keeps (Keeps.refl _))
    exact State.bankOff_keeps (Keeps.restore (Keeps.trans (State.modThread_keeps (Keeps.refl _)) (hk _)) rfl)
  · dsimp only
    refine Keeps.ite (fun _ => ?_) (fun _ => ?_)
    · refine Keeps.trans ?_ (hk _)
      exact State.modThread_keeps (Keeps.setTile (Keeps.refl _) (fun h => h))
    · exact State.hold_keeps (State.countReplay_keeps (Keeps.refl _))

theorem State.readStage_keeps {z_ s : State} {r : IssueRef} {c : CtxRef} {op : DataOp} {f : Fields} {j : Nat} {got : List Byte}
    {a unit : Nat} {k : State → List Byte → State} (h_ : Keeps z_ s) (hk : ∀ y b, Keeps y (k y b)) :
    Keeps z_ (s.readStage r c op f j got a unit k) := by
  unfold State.readStage
  exact Keeps.ite (fun _ => State.trap_keeps h_) (fun _ => State.dataStage_keeps h_ (fun _ => hk _ _))

theorem execQput_keeps {r : IssueRef} {f : Fields} {s : State} : ResKeeps s (execQput r f s) := by
  unfold execQput; try dsimp only
  repeat' (first
    | with_reducible exact Keeps.refl _ | with_reducible refine State.trap_keeps ?_ | with_reducible refine issue_keeps (fun _ _ => ?_)
    | with_reducible refine Keeps.ite (fun _ => ?_) (fun _ => ?_) | (refine Keeps.setTile ?_ ?_; rotate_left; exact fun h => h))

theorem execQget_keeps {r : IssueRef} {f : Fields} {s : State} : ResKeeps s (execQget r f s) := by
  unfold execQget; try dsimp only
  repeat' (first
    | with_reducible exact Keeps.refl _ | with_reducible refine State.trap_keeps ?_ | with_reducible refine State.modThread_keeps ?_
    | with_reducible refine issue_keeps (fun _ _ => ?_) | split)

theorem execQwait_keeps {r : IssueRef} {f : Fields} {s : State} : ResKeeps s (execQwait r f s) := by
  unfold execQwait; try dsimp only
  repeat' (first
    | with_reducible exact Keeps.refl _ | with_reducible refine State.trap_keeps ?_ | with_reducible refine State.modThread_keeps ?_
    | with_reducible refine issue_keeps (fun _ _ => ?_) | split)

theorem Tile.afterQueue_sram (cyc : Nat) (x : Tile) (n : Nat) : (Tile.afterQueue cyc x n).sram = x.sram := by
  unfold Tile.afterQueue
  dsimp only
  split
  all_goals first | rfl | (split <;> rfl)

theorem Tile.foldl_sram {α : Type} (g : Tile → α → Tile) (hg : ∀ x a, (g x a).sram = x.sram) (xs : List α) (x : Tile) :
    (xs.foldl g x).sram = x.sram := by
  induction xs generalizing x with
  | nil => rfl
  | cons a as ih => exact (ih _).trans (hg x a)

theorem execQueueRequestComplete_keeps {tid q : Nat} {s : State} : ResKeeps s (execQueueRequestComplete tid q s) := by
  unfold execQueueRequestComplete
  dsimp only
  refine ResKeeps.ite (fun _ => ResKeeps.fault _ _) (fun _ => ?_)
  split
  · exact ResKeeps.next (Keeps.refl _)
  · refine ResKeeps.ite (fun _ => ResKeeps.next (Keeps.setTile (Keeps.refl _) (fun h => ?_))) (fun _ => ResKeeps.next (Keeps.refl _))
    split
    · rw [Tile.foldl_sram _ (Tile.afterQueue_sram _)]
      exact h
    · exact h

theorem State.afterSlot_keeps {z_ : State} {s : State} {c : CtxRef} {t : Nat} {n : Nat} (h_ : Keeps z_ s) : Keeps z_ (State.afterSlot s c t n) := by
  refine h_.trans ?_; clear h_
  unfold State.afterSlot; try dsimp only
  repeat' (first
    | with_reducible exact Keeps.refl _ | with_reducible refine State.trap_keeps ?_ | with_reducible refine State.modThread_keeps ?_ | split)

theorem State.afterSlots_keeps {z_ : State} {s : State} {t : Nat} (h_ : Keeps z_ s) : Keeps z_ (State.afterSlots s t) := by
  refine h_.trans ?_; clear h_
  unfold State.afterSlots; try dsimp only
  repeat' (first
    | with_reducible exact Keeps.refl _ | with_reducible refine State.afterSlot_keeps ?_ | with_reducible refine Keeps.forAll ?_ (fun _ _ => ?_)
    | split)

theorem State.setChk_keeps {z_ : State} {s : State} {d : Nat} {u : Nat} {x : Chk} (h_ : Keeps z_ s) : Keeps z_ (State.setChk s d u x) := by
  refine h_.trans ?_; clear h_
  unfold State.setChk; try dsimp only
  repeat' (first | with_reducible exact Keeps.refl _ | with_reducible refine State.setDie_keeps ?_)

theorem State.setLink_keeps {z_ : State} {s : State} {d : Nat} {l : Nat} {x : Link} (h_ : Keeps z_ s) : Keeps z_ (State.setLink s d l x) := by
  refine h_.trans ?_; clear h_
  unfold State.setLink; try dsimp only
  repeat' (first | with_reducible exact Keeps.refl _ | with_reducible refine State.setDie_keeps ?_)

theorem State.stageSopen_keeps {z_ : State} {s : State} {r : IssueRef} {c : CtxRef} {f : Fields} {k : Nat} {got : List Byte} (h_ : Keeps z_ s) : Keeps z_ (State.stageSopen s r c f k got) := by
  refine h_.trans ?_; clear h_
  unfold State.stageSopen; try dsimp only
  repeat' (first
    | with_reducible exact Keeps.refl _ | with_reducible refine State.trap_keeps ?_ | with_reducible refine State.sramTrap_keeps ?_
    | with_reducible refine State.readStage_keeps ?_ (fun _ _ => ?_) | (refine Keeps.setTile ?_ ?_; rotate_left; exact fun h => h) | split)

theorem execSopen_keeps {r : IssueRef} {f : Fields} {s : State} : ResKeeps s (execSopen r f s) := by
  unfold execSopen; try dsimp only
  repeat' (first
    | with_reducible exact Keeps.refl _ | with_reducible refine State.stageSopen_keeps ?_ | with_reducible refine issue_keeps (fun _ _ => ?_))

theorem execSwait_keeps {r : IssueRef} {f : Fields} {s : State} : ResKeeps s (execSwait r f s) := by
  unfold execSwait; try dsimp only
  repeat' (first
    | with_reducible exact Keeps.refl _ | with_reducible refine State.trap_keeps ?_ | with_reducible refine State.modThread_keeps ?_
    | with_reducible refine issue_keeps (fun _ _ => ?_) | split)

theorem execSrelease_keeps {r : IssueRef} {f : Fields} {s : State} : ResKeeps s (execSrelease r f s) := by
  unfold execSrelease; try dsimp only
  repeat' (first
    | with_reducible exact Keeps.refl _ | with_reducible refine State.trap_keeps ?_ | with_reducible refine State.afterSlots_keeps ?_
    | with_reducible refine State.setLink_keeps ?_ | with_reducible refine issue_keeps (fun _ _ => ?_)
    | (refine Keeps.setTile ?_ ?_; rotate_left; exact fun h => h) | split)

theorem execLateConsumer_keeps {tid : Nat} {thr : Nat} {s : State} : ResKeeps s (execLateConsumer tid thr s) := by
  unfold execLateConsumer; try dsimp only
  repeat' (first
    | with_reducible exact Keeps.refl _ | with_reducible exact ResKeeps.fault _ _ | with_reducible refine ResKeeps.next ?_
    | with_reducible refine State.modThread_keeps ?_ | (refine State.setCtx_keeps ?_ ?_; rotate_left; exact ⟨fun _ h => h, fun h => Or.inr h⟩)
    | split)

theorem State.setStop_keeps {z_ : State} {s : State} {t : Nat} {u : Nat} {st : Stop} (h_ : Keeps z_ s) : Keeps z_ (State.setStop s t u st) := by
  refine h_.trans ?_; clear h_
  unfold State.setStop; try dsimp only
  repeat' (first | with_reducible exact Keeps.refl _ | (refine Keeps.setTile ?_ ?_; rotate_left; exact fun h => h) | split)

theorem State.setFrec_keeps {z_ : State} {s : State} {d : Nat} {f : Nat} {x : FaultRec} (h_ : Keeps z_ s) : Keeps z_ (State.setFrec s d f x) := by
  refine h_.trans ?_; clear h_
  unfold State.setFrec; try dsimp only
  repeat' (first | with_reducible exact Keeps.refl _ | with_reducible refine State.setDie_keeps ?_)

theorem State.takeRec_keeps {z_ : State} {s : State} {c : CtxRef} {t : Nat} {u : Nat} {va : Nat} {cause : Nat} (h_ : Keeps z_ s) : Keeps z_ (State.takeRec s c t u va cause) := by
  refine h_.trans ?_; clear h_
  unfold State.takeRec; try dsimp only
  repeat' (first
    | with_reducible exact Keeps.refl _ | with_reducible refine State.setDie_keeps ?_ | with_reducible refine State.raise_keeps ?_
    | with_reducible refine State.setStop_keeps ?_ | with_reducible refine State.setFrec_keeps ?_ | split)

theorem State.serveWait_keeps {z_ : State} {s : State} {d : Nat} (h_ : Keeps z_ s) : Keeps z_ (State.serveWait s d) := by
  refine h_.trans ?_; clear h_
  unfold State.serveWait; try dsimp only
  repeat' (first
    | with_reducible exact Keeps.refl _ | with_reducible refine State.setDie_keeps ?_ | with_reducible refine State.takeRec_keeps ?_ | split)

theorem State.freeFrec_keeps {z_ : State} {s : State} {d : Nat} {f : Nat} (h_ : Keeps z_ s) : Keeps z_ (State.freeFrec s d f) := by
  refine h_.trans ?_; clear h_
  unfold State.freeFrec; try dsimp only
  repeat' (first | with_reducible exact Keeps.refl _ | with_reducible refine State.setFrec_keeps ?_ | with_reducible refine State.serveWait_keeps ?_)

theorem State.fresResume_keeps {z_ : State} {s : State} {d : Nat} {f : Nat} (h_ : Keeps z_ s) : Keeps z_ (State.fresResume s d f) := by
  refine h_.trans ?_; clear h_
  unfold State.fresResume; try dsimp only
  repeat' (first
    | with_reducible exact Keeps.refl _ | with_reducible refine State.setStop_keeps ?_ | with_reducible refine State.freeFrec_keeps ?_ | split)

theorem State.fresAbort_keeps {z_ : State} {s : State} {d : Nat} {f : Nat} (h_ : Keeps z_ s) : Keeps z_ (State.fresAbort s d f) := by
  refine h_.trans ?_; clear h_
  unfold State.fresAbort; try dsimp only
  repeat' (first
    | with_reducible exact Keeps.refl _ | with_reducible refine State.faultEvent_keeps ?_ | with_reducible refine State.setStop_keeps ?_
    | with_reducible refine State.freeFrec_keeps ?_ | split)

theorem State.mmuInval_keeps {z_ : State} {s : State} {d : Nat} {v : W32} (h_ : Keeps z_ s) : Keeps z_ (State.mmuInval s d v) := by
  refine h_.trans ?_; clear h_
  unfold State.mmuInval; try dsimp only
  repeat' (first
    | with_reducible exact Keeps.refl _ | with_reducible refine State.setDie_keeps ?_
    | with_reducible refine Keeps.ite (fun _ => ?_) (fun _ => ?_))

theorem execMmuFaultResume_keeps {pf : Nat} {die : Nat} {rec : Nat} {v : W32} {s : State} : ResKeeps s (execMmuFaultResume pf die rec v s) := by
  unfold execMmuFaultResume; try dsimp only
  repeat' (first
    | with_reducible exact Keeps.refl _ | with_reducible exact ResKeeps.fault _ _ | with_reducible refine ResKeeps.when (fun _ => ?_)
    | with_reducible refine State.fresResume_keeps ?_ | with_reducible refine ResKeeps.ite (fun _ => ?_) (fun _ => ?_))

theorem execMmuFaultAbort_keeps {pf : Nat} {die : Nat} {rec : Nat} {v : W32} {s : State} : ResKeeps s (execMmuFaultAbort pf die rec v s) := by
  unfold execMmuFaultAbort; try dsimp only
  repeat' (first
    | with_reducible exact Keeps.refl _ | with_reducible exact ResKeeps.fault _ _ | with_reducible refine ResKeeps.when (fun _ => ?_)
    | with_reducible refine State.fresAbort_keeps ?_ | with_reducible refine ResKeeps.ite (fun _ => ?_) (fun _ => ?_))

theorem execMmuInval_keeps {pf : Nat} {die : Nat} {v : W32} {s : State} : ResKeeps s (execMmuInval pf die v s) := by
  unfold execMmuInval; try dsimp only
  repeat' (first
    | with_reducible exact Keeps.refl _ | with_reducible exact ResKeeps.fault _ _ | with_reducible refine ResKeeps.when (fun _ => ?_)
    | with_reducible refine State.mmuInval_keeps ?_ | with_reducible refine ResKeeps.ite (fun _ => ?_) (fun _ => ?_))

theorem execMmuInvalComplete_keeps {die : Nat} {s : State} : ResKeeps s (execMmuInvalComplete die s) := by
  unfold execMmuInvalComplete; try dsimp only
  repeat' (first
    | with_reducible exact Keeps.refl _ | with_reducible exact ResKeeps.fault _ _ | with_reducible refine ResKeeps.next ?_
    | with_reducible refine State.setDie_keeps ?_ | with_reducible refine ResKeeps.awake ?_ | split)

theorem State.fold_keeps {z_ : State} {s : State} {d : Nat} {u : Option Nat} {bs : List Byte} (h_ : Keeps z_ s) : Keeps z_ (State.fold s d u bs) := by
  refine h_.trans ?_; clear h_
  unfold State.fold; try dsimp only
  repeat' (first | with_reducible exact Keeps.refl _ | with_reducible refine State.setChk_keeps ?_ | split)

theorem State.chkEnd_keeps {z_ : State} {s : State} {c : CtxRef} {t : Nat} {h : Nat} {u : Option Nat} (h_ : Keeps z_ s) : Keeps z_ (State.chkEnd s c t h u) := by
  refine h_.trans ?_; clear h_
  unfold State.chkEnd; try dsimp only
  repeat' (first
    | with_reducible exact Keeps.refl _ | with_reducible refine State.hwSet_keeps ?_ | with_reducible refine State.raise_keeps ?_
    | with_reducible refine State.faultEvent_keeps ?_ | with_reducible refine State.setChk_keeps ?_ | split)

theorem State.advance_keeps {z_ : State} {s : State} {t : Nat} {u : Nat} {cyc : Nat} {n : Nat} (h_ : Keeps z_ s) : Keeps z_ (State.advance s t u cyc n) := by
  refine h_.trans ?_; clear h_
  unfold State.advance; try dsimp only
  repeat' (first | with_reducible exact Keeps.refl _ | (refine Keeps.setTile ?_ ?_; rotate_left; exact fun h => h) | split)

theorem State.killUnit_keeps {z_ : State} {s : State} {c : CtxRef} {t : Nat} {u : Nat} {ev : Nat} {detail : W64} {names : List Nat} (h_ : Keeps z_ s) : Keeps z_ (State.killUnit s c t u ev detail names) := by
  refine h_.trans ?_; clear h_
  unfold State.killUnit; try dsimp only
  repeat' (first
    | with_reducible exact Keeps.refl _ | with_reducible refine State.raise_keeps ?_ | with_reducible refine State.faultEvent_keeps ?_
    | with_reducible refine State.setStop_keeps ?_)

theorem State.killAcc_keeps {z_ : State} {s : State} {c : CtxRef} {t : Nat} {u : Nat} {a : Nat} {e : AccErr} (h_ : Keeps z_ s) : Keeps z_ (State.killAcc s c t u a e) := by
  refine h_.trans ?_; clear h_
  unfold State.killAcc; try dsimp only
  repeat' (first | with_reducible exact Keeps.refl _ | with_reducible refine State.noteErr_keeps ?_ | with_reducible refine State.killUnit_keeps ?_)

theorem State.hbmError_keeps {z_ : State} {s : State} {c : CtxRef} {t : Nat} {u : Nat} {va : Nat} {key : Nat} (h_ : Keeps z_ s) : Keeps z_ (State.hbmError s c t u va key) := by
  refine h_.trans ?_; clear h_
  unfold State.hbmError; try dsimp only
  repeat' (first | with_reducible exact Keeps.refl _ | with_reducible refine State.killUnit_keeps ?_)

theorem State.place_keeps {z_ : State} {s : State} {t : Nat} {u : Nat} {cyc : Nat} {x : Unit32} {ks : List Nat} {fill : Option Byte} (h_ : Keeps z_ s) : Keeps z_ (State.place s t u cyc x ks fill) := by
  refine h_.trans ?_; clear h_
  unfold State.place; try dsimp only
  repeat' (first
    | with_reducible exact Keeps.refl _ | with_reducible refine State.sramWrite_keeps ?_ | with_reducible refine State.fold_keeps ?_
    | with_reducible refine State.advance_keeps ?_ | with_reducible refine Keeps.hbmW ?_ (Memory.wf_hbmPut _)
    | with_reducible refine Keeps.ite (fun _ => ?_) (fun _ => ?_))

theorem State.queueHbm_keeps {z_ : State} {s : State} {h : BitVec 16} {st : Nat} {wr : Bool} (h_ : Keeps z_ s) : Keeps z_ (State.queueHbm s h st wr) := by
  refine h_.trans ?_; clear h_
  unfold State.queueHbm; try dsimp only
  repeat' (first | with_reducible exact Keeps.refl _ | with_reducible refine State.setDie_keeps ?_)

theorem State.unitMoved_keeps {z_ : State} {s : State} {c : CtxRef} {t : Nat} {x : Unit32} {ks : List Nat} {born : Nat} (h_ : Keeps z_ s) : Keeps z_ (State.unitMoved s c t x ks born) := by
  refine h_.trans ?_; clear h_
  unfold State.unitMoved; try dsimp only
  repeat' (first
    | with_reducible exact Keeps.refl _ | with_reducible refine State.setDie_keeps ?_ | with_reducible refine State.queueHbm_keeps ?_
    | with_reducible refine Keeps.forAll ?_ (fun _ _ => ?_))

theorem State.placeEnd_keeps {z_ : State} {s : State} {c : CtxRef} {t : Nat} {u : Nat} {cyc : Nat} {x : Unit32} {ks : List Nat} {fill : Option Byte} (h_ : Keeps z_ s) : Keeps z_ (State.placeEnd s c t u cyc x ks fill) := by
  refine h_.trans ?_; clear h_
  unfold State.placeEnd; try dsimp only
  repeat' (first
    | with_reducible exact Keeps.refl _ | with_reducible refine State.chkEnd_keeps ?_ | with_reducible refine State.place_keeps ?_ | split)

theorem State.moveUnit_keeps {z_ : State} {s : State} {c : CtxRef} {t : Nat} {u : Nat} {cyc : Nat} {x : Unit32} {hbmErr : Bool} (h_ : Keeps z_ s) : Keeps z_ (State.moveUnit s c t u cyc x hbmErr) := by
  refine h_.trans ?_; clear h_
  unfold State.moveUnit; try dsimp only
  repeat' (first
    | with_reducible exact Keeps.refl _ | (with_reducible refine Keeps.of_fst (State.translateAll_keeps ?_) (by assumption))
    | with_reducible refine State.takeRec_keeps ?_ | with_reducible refine State.killAcc_keeps ?_
    | with_reducible refine State.hbmError_keeps ?_ | with_reducible refine State.unitMoved_keeps ?_
    | with_reducible refine State.placeEnd_keeps ?_ | (refine Keeps.setTile ?_ ?_; rotate_left; exact fun h => h) | split)

theorem execDmaUnitMove_keeps {tid : Nat} {unit : Nat} {cyc : Nat} {hbmErr : Bool} {s : State} : ResKeeps s (execDmaUnitMove tid unit cyc hbmErr s) := by
  unfold execDmaUnitMove; try dsimp only
  repeat' (first
    | with_reducible exact Keeps.refl _ | with_reducible exact ResKeeps.fault _ _ | with_reducible refine ResKeeps.next ?_
    | with_reducible refine State.demand_keeps ?_ | with_reducible refine State.moveUnit_keeps ?_ | split)

theorem execDmaReplay_keeps {tid : Nat} {unit : Nat} {cyc : Nat} {s : State} : ResKeeps s (execDmaReplay tid unit cyc s) := by
  unfold execDmaReplay; try dsimp only
  repeat' (first
    | with_reducible exact Keeps.refl _ | with_reducible exact ResKeeps.fault _ _ | with_reducible refine ResKeeps.next ?_
    | with_reducible refine State.moveUnit_keeps ?_ | with_reducible refine Keeps.setTile ?_ (fun h => h) | split)

theorem execStreamBlockStart_keeps {tid : Nat} {h : Nat} {s : State} : ResKeeps s (execStreamBlockStart tid h s) := by
  unfold execStreamBlockStart; try dsimp only
  repeat' (first
    | with_reducible exact Keeps.refl _ | with_reducible exact ResKeeps.fault _ _ | with_reducible refine ResKeeps.next ?_
    | with_reducible refine ResKeeps.when (fun _ => ?_) | with_reducible refine State.demand_keeps ?_
    | (refine Keeps.setTile ?_ ?_; rotate_left; exact fun h => h) | split)

theorem execStreamBlockComplete_keeps {tid : Nat} {h : Nat} {s : State} : ResKeeps s (execStreamBlockComplete tid h s) := by
  unfold execStreamBlockComplete; try dsimp only
  repeat' (first
    | with_reducible exact Keeps.refl _ | with_reducible exact ResKeeps.fault _ _ | with_reducible refine ResKeeps.next ?_
    | with_reducible refine State.afterSlots_keeps ?_ | with_reducible refine State.setLink_keeps ?_
    | (refine Keeps.setTile ?_ ?_; rotate_left; exact fun h => h) | split)

theorem State.setThs_keeps {z_ : State} {s : State} {c : CtxRef} {x : Ths} (h_ : Keeps z_ s) : Keeps z_ (State.setThs s c x) := by
  refine h_.trans ?_; clear h_
  unfold State.setThs; try dsimp only
  repeat' (first | with_reducible exact Keeps.refl _ | with_reducible refine State.setDie_keeps ?_)

theorem State.thsTry_keeps {z_ : State} {s : State} {c : CtxRef} (h_ : Keeps z_ s) : Keeps z_ (State.thsTry s c) := by
  refine h_.trans ?_; clear h_
  unfold State.thsTry; try dsimp only
  repeat' (first
    | with_reducible exact Keeps.refl _ | with_reducible refine State.sendThs_keeps ?_ | with_reducible refine State.setThs_keeps ?_
    | with_reducible refine Keeps.forAll ?_ (fun _ _ => ?_) | with_reducible refine Keeps.ite (fun _ => ?_) (fun _ => ?_))

theorem State.compareDigest_keeps {z_ : State} {s : State} {c : CtxRef} {twin : List W64} (h_ : Keeps z_ s) : Keeps z_ (State.compareDigest s c twin) := by
  refine h_.trans ?_; clear h_
  unfold State.compareDigest; try dsimp only
  repeat' (first
    | with_reducible exact Keeps.refl _ | with_reducible refine State.hwSet_keeps ?_ | with_reducible refine State.raise_keeps ?_
    | with_reducible refine State.faultEvent_keeps ?_
    | (fail_if_no_progress with_reducible refine Keeps.upd ?_ rfl rfl rfl rfl rfl rfl rfl rfl rfl rfl)
    | (refine State.setCtx_keeps ?_ ?_; rotate_left; exact ⟨fun _ h => h, fun h => Or.inr h⟩) | split)

theorem State.openInbox_keeps {z_ : State} {s : State} {c : CtxRef} (h_ : Keeps z_ s) : Keeps z_ (State.openInbox s c) := by
  refine h_.trans ?_; clear h_
  unfold State.openInbox; try dsimp only
  repeat' (first | with_reducible exact Keeps.refl _ | with_reducible refine State.compareDigest_keeps ?_ | split)

theorem State.barrierDone_keeps {z_ : State} {s : State} {c : CtxRef} {tbc : W64} (h_ : Keeps z_ s) : Keeps z_ (State.barrierDone s c tbc) := by
  refine h_.trans ?_; clear h_
  unfold State.barrierDone; try dsimp only
  repeat' (first
    | with_reducible exact Keeps.refl _ | with_reducible refine State.openInbox_keeps ?_
    | (refine State.setCtx_keeps ?_ ?_; rotate_left; exact ⟨fun _ h => h, fun h => Or.inr h⟩))

theorem execBarrierComplete_keeps {c : CtxRef} {s : State} : ResKeeps s (execBarrierComplete c s) := by
  unfold execBarrierComplete; try dsimp only
  repeat' (first
    | with_reducible exact Keeps.refl _ | with_reducible exact ResKeeps.fault _ _ | with_reducible refine ResKeeps.next ?_
    | with_reducible refine State.sendThs_keeps ?_ | with_reducible refine State.barrierDone_keeps ?_
    | with_reducible refine Keeps.forAll ?_ (fun _ _ => ?_) | with_reducible refine ResKeeps.ite (fun _ => ?_) (fun _ => ?_))

theorem State.symLost_keeps {z_ : State} {s : State} {p : Nat} {a : W64} (h_ : Keeps z_ s) : Keeps z_ (State.symLost s p a) := by
  refine h_.trans ?_; clear h_
  unfold State.symLost; try dsimp only
  repeat' (first
    | with_reducible exact Keeps.refl _ | with_reducible refine State.raise_keeps ?_ | with_reducible refine State.faultEvent_keeps ?_ | split)

theorem State.thsSeq_keeps {z_ : State} {s : State} {c : CtxRef} {p : Nat} (h_ : Keeps z_ s) : Keeps z_ (State.thsSeq s c p) := by
  refine h_.trans ?_; clear h_
  unfold State.thsSeq; try dsimp only
  repeat' (first | with_reducible exact Keeps.refl _ | with_reducible refine State.raise_keeps ?_ | with_reducible refine State.faultEvent_keeps ?_)

theorem State.takeArrive_keeps {z_ : State} {s : State} {c : CtxRef} {p : Nat} {ssn : W32} (h_ : Keeps z_ s) : Keeps z_ (State.takeArrive s c p ssn) := by
  refine h_.trans ?_; clear h_
  unfold State.takeArrive; try dsimp only
  repeat' (first
    | with_reducible exact Keeps.refl _ | with_reducible refine State.setThs_keeps ?_ | with_reducible refine State.thsTry_keeps ?_
    | with_reducible refine State.thsSeq_keeps ?_ | with_reducible refine Keeps.ite (fun _ => ?_) (fun _ => ?_))

theorem State.arriveCore_keeps {z_ : State} {s : State} {port : Nat} {a : W64} {b : W64} (h_ : Keeps z_ s) : Keeps z_ (State.arriveCore s port a b) := by
  refine h_.trans ?_; clear h_
  unfold State.arriveCore; try dsimp only
  repeat' (first
    | with_reducible exact Keeps.refl _ | with_reducible refine State.symLost_keeps ?_ | with_reducible refine State.takeArrive_keeps ?_ | split)

theorem State.countCopies_keeps {z_ : State} {s : State} {port : Nat} {a : W64} {b : W64} (h_ : Keeps z_ s) : Keeps z_ (State.countCopies s port a b) := by
  refine h_.trans ?_; clear h_
  unfold State.countCopies; try dsimp only
  repeat' (first
    | with_reducible exact Keeps.refl _ | with_reducible refine State.countCopy_keeps ?_
    | with_reducible refine Keeps.ite (fun _ => ?_) (fun _ => ?_))

theorem execThsArriveReceive_keeps {port : Nat} {a : BitVec 64} {b : BitVec 64} {s : State} : ResKeeps s (execThsArriveReceive port a b s) := by
  unfold execThsArriveReceive; try dsimp only
  repeat' (first
    | with_reducible exact Keeps.refl _ | with_reducible exact ResKeeps.fault _ _ | with_reducible refine ResKeeps.next ?_
    | with_reducible refine State.arriveCore_keeps ?_ | with_reducible refine State.countCopies_keeps ?_
    | with_reducible refine ResKeeps.ite (fun _ => ?_) (fun _ => ?_))

theorem State.takeComplete_keeps {z_ : State} {s : State} {c : CtxRef} {p : Nat} {ssn8 : Nat} {t24 : Nat} (h_ : Keeps z_ s) : Keeps z_ (State.takeComplete s c p ssn8 t24) := by
  refine h_.trans ?_; clear h_
  unfold State.takeComplete; try dsimp only
  repeat' (first
    | with_reducible exact Keeps.refl _ | with_reducible refine State.raise_keeps ?_ | with_reducible refine State.faultEvent_keeps ?_
    | with_reducible refine State.sendThs_keeps ?_ | with_reducible refine State.barrierDone_keeps ?_
    | with_reducible refine State.thsSeq_keeps ?_ | with_reducible refine Keeps.forAll ?_ (fun _ _ => ?_)
    | with_reducible refine Keeps.ite (fun _ => ?_) (fun _ => ?_))

theorem State.completeCore_keeps {z_ : State} {s : State} {port : Nat} {a : W64} {b : W64} (h_ : Keeps z_ s) : Keeps z_ (State.completeCore s port a b) := by
  refine h_.trans ?_; clear h_
  unfold State.completeCore; try dsimp only
  repeat' (first
    | with_reducible exact Keeps.refl _ | with_reducible refine State.symLost_keeps ?_ | with_reducible refine State.takeComplete_keeps ?_
    | split)

theorem execThsCompleteReceive_keeps {port : Nat} {a : BitVec 64} {b : BitVec 64} {s : State} : ResKeeps s (execThsCompleteReceive port a b s) := by
  unfold execThsCompleteReceive; try dsimp only
  repeat' (first
    | with_reducible exact Keeps.refl _ | with_reducible exact ResKeeps.fault _ _ | with_reducible refine ResKeeps.next ?_
    | with_reducible refine State.countCopies_keeps ?_ | with_reducible refine State.completeCore_keeps ?_
    | with_reducible refine ResKeeps.ite (fun _ => ?_) (fun _ => ?_))

theorem State.setHt_keeps {z_ : State} {s : State} {h : HallTime} (h_ : Keeps z_ s) : Keeps z_ (State.setHt s h) := by
  refine h_.trans ?_; clear h_
  unfold State.setHt; try dsimp only
  repeat' (first
    | with_reducible exact Keeps.refl _ | (fail_if_no_progress with_reducible refine Keeps.upd ?_ rfl rfl rfl rfl rfl rfl rfl rfl rfl rfl))

theorem State.setPortHt_keeps {z_ : State} {s : State} {p : Nat} {h : PortHt} (h_ : Keeps z_ s) : Keeps z_ (State.setPortHt s p h) := by
  refine h_.trans ?_; clear h_
  unfold State.setPortHt; try dsimp only
  repeat' (first | with_reducible exact Keeps.refl _ | with_reducible refine State.setPort_keeps ?_)

theorem State.parentLost_keeps {z_ : State} {s : State} (h_ : Keeps z_ s) : Keeps z_ (State.parentLost s) := by
  refine h_.trans ?_; clear h_
  unfold State.parentLost; try dsimp only
  repeat' (first | with_reducible exact Keeps.refl _ | with_reducible refine State.setHt_keeps ?_)

theorem State.htPortDown_keeps {z_ : State} {s : State} {p : Nat} (h_ : Keeps z_ s) : Keeps z_ (State.htPortDown s p) := by
  refine h_.trans ?_; clear h_
  unfold State.htPortDown; try dsimp only
  repeat' (first
    | with_reducible exact Keeps.refl _ | with_reducible refine State.setPortHt_keeps ?_ | with_reducible refine State.parentLost_keeps ?_
    | with_reducible refine Keeps.ite (fun _ => ?_) (fun _ => ?_))

theorem execParentSelect_keeps {s : State} : ResKeeps s (execParentSelect s) := by
  unfold execParentSelect; try dsimp only
  repeat' (first | with_reducible exact Keeps.refl _ | with_reducible refine ResKeeps.next ?_ | with_reducible refine State.setHt_keeps ?_ | split)

theorem execHoldoverRestrictionEnd_keeps {s : State} : ResKeeps s (execHoldoverRestrictionEnd s) := by
  unfold execHoldoverRestrictionEnd; try dsimp only
  repeat' (first | with_reducible exact Keeps.refl _ | with_reducible refine ResKeeps.when (fun _ => ?_) | with_reducible refine State.setHt_keeps ?_)

theorem execTreeSend_keeps {s : State} : ResKeeps s (execTreeSend s) := by
  unfold execTreeSend; try dsimp only
  repeat' (first
    | with_reducible exact Keeps.refl _ | with_reducible refine ResKeeps.when (fun _ => ?_) | with_reducible refine State.queueOn_keeps ?_
    | with_reducible refine Keeps.forAll ?_ (fun _ _ => ?_))

theorem State.parentTree_keeps {z_ : State} {s : State} {p : Nat} (h_ : Keeps z_ s) : Keeps z_ (State.parentTree s p) := by
  refine h_.trans ?_; clear h_
  unfold State.parentTree; try dsimp only
  repeat' (first
    | with_reducible exact Keeps.refl _ | with_reducible refine State.setHt_keeps ?_ | with_reducible refine State.parentLost_keeps ?_
    | with_reducible refine Keeps.ite (fun _ => ?_) (fun _ => ?_))

theorem State.treeIn_keeps {z_ : State} {s : State} {port : Nat} {x : W64} (h_ : Keeps z_ s) : Keeps z_ (State.treeIn s port x) := by
  refine h_.trans ?_; clear h_
  unfold State.treeIn; try dsimp only
  repeat' (first
    | with_reducible exact Keeps.refl _ | with_reducible refine State.symErr_keeps ?_ | with_reducible refine State.setPortHt_keeps ?_
    | with_reducible refine State.parentTree_keeps ?_ | with_reducible refine Keeps.ite (fun _ => ?_) (fun _ => ?_))

theorem execTreeReceive_keeps {port : Nat} {x : BitVec 64} {s : State} : ResKeeps s (execTreeReceive port x s) := by
  unfold execTreeReceive; try dsimp only
  repeat' (first
    | with_reducible exact Keeps.refl _ | with_reducible exact ResKeeps.fault _ _ | with_reducible refine ResKeeps.next ?_
    | with_reducible refine State.treeIn_keeps ?_ | with_reducible refine ResKeeps.ite (fun _ => ?_) (fun _ => ?_))

theorem State.exchangeMissed_keeps {z_ : State} {s : State} (h_ : Keeps z_ s) : Keeps z_ (State.exchangeMissed s) := by
  refine h_.trans ?_; clear h_
  unfold State.exchangeMissed; try dsimp only
  repeat' (first
    | with_reducible exact Keeps.refl _ | with_reducible refine State.setHt_keeps ?_ | with_reducible refine State.parentLost_keeps ?_
    | with_reducible refine Keeps.ite (fun _ => ?_) (fun _ => ?_))

theorem execTsExchangeStart_keeps {sub : BitVec 4} {s : State} : ResKeeps s (execTsExchangeStart sub s) := by
  unfold execTsExchangeStart; try dsimp only
  repeat' (first
    | with_reducible exact Keeps.refl _ | with_reducible refine ResKeeps.next ?_ | with_reducible refine State.sendSym_keeps ?_
    | with_reducible refine State.setPortHt_keeps ?_ | with_reducible refine State.exchangeMissed_keeps ?_
    | with_reducible refine Keeps.forAll ?_ (fun _ _ => ?_) | with_reducible refine ResKeeps.ite (fun _ => ?_) (fun _ => ?_))

theorem State.tsReqIn_keeps {z_ : State} {s : State} {port : Nat} {x : W64} {t2 : BitVec 4} {t3 : BitVec 4} (h_ : Keeps z_ s) : Keeps z_ (State.tsReqIn s port x t2 t3) := by
  refine h_.trans ?_; clear h_
  unfold State.tsReqIn; try dsimp only
  repeat' (first
    | with_reducible exact Keeps.refl _ | with_reducible refine State.sendSym_keeps ?_ | with_reducible refine State.symErr_keeps ?_
    | with_reducible refine Keeps.ite (fun _ => ?_) (fun _ => ?_))

theorem execTsReqReceive_keeps {port : Nat} {x : BitVec 64} {t2 : BitVec 4} {t3 : BitVec 4} {s : State} : ResKeeps s (execTsReqReceive port x t2 t3 s) := by
  unfold execTsReqReceive; try dsimp only
  repeat' (first
    | with_reducible exact Keeps.refl _ | with_reducible exact ResKeeps.fault _ _ | with_reducible refine ResKeeps.next ?_
    | with_reducible refine State.tsReqIn_keeps ?_ | with_reducible refine ResKeeps.ite (fun _ => ?_) (fun _ => ?_))

theorem State.tsRespIn_keeps {z_ : State} {s : State} {port : Nat} {x : W64} (h_ : Keeps z_ s) : Keeps z_ (State.tsRespIn s port x) := by
  refine h_.trans ?_; clear h_
  unfold State.tsRespIn; try dsimp only
  repeat' (first
    | with_reducible exact Keeps.refl _ | with_reducible refine State.symErr_keeps ?_ | with_reducible refine State.setPortHt_keeps ?_
    | with_reducible refine Keeps.ite (fun _ => ?_) (fun _ => ?_))

theorem execTsRespReceive_keeps {port : Nat} {x : BitVec 64} {s : State} : ResKeeps s (execTsRespReceive port x s) := by
  unfold execTsRespReceive; try dsimp only
  repeat' (first
    | with_reducible exact Keeps.refl _ | with_reducible exact ResKeeps.fault _ _ | with_reducible refine ResKeeps.next ?_
    | with_reducible refine State.tsRespIn_keeps ?_ | with_reducible refine ResKeeps.ite (fun _ => ?_) (fun _ => ?_))

theorem State.checkBound_keeps {z_ : State} {s : State} (h_ : Keeps z_ s) : Keeps z_ (State.checkBound s) := by
  refine h_.trans ?_; clear h_
  unfold State.checkBound; try dsimp only
  repeat' (first
    | with_reducible exact Keeps.refl _ | with_reducible refine State.hwSet_keeps ?_ | with_reducible refine State.raise_keeps ?_
    | with_reducible refine State.setHt_keeps ?_ | with_reducible refine Keeps.ite (fun _ => ?_) (fun _ => ?_))

theorem State.acquire_keeps {z_ : State} {s : State} {t4 : Nat} {o : Int} (h_ : Keeps z_ s) : Keeps z_ (State.acquire s t4 o) := by
  refine h_.trans ?_; clear h_
  unfold State.acquire; try dsimp only
  repeat' (first | with_reducible exact Keeps.refl _ | with_reducible refine State.setHt_keeps ?_)

theorem State.renewBound_keeps {z_ : State} {s : State} {o : Int} {plocked : Bool} (h_ : Keeps z_ s) : Keeps z_ (State.renewBound s o plocked) := by
  refine h_.trans ?_; clear h_
  unfold State.renewBound; try dsimp only
  repeat' (first
    | with_reducible exact Keeps.refl _ | with_reducible refine State.setHt_keeps ?_ | with_reducible refine State.checkBound_keeps ?_
    | with_reducible refine Keeps.ite (fun _ => ?_) (fun _ => ?_))

theorem State.steer_keeps {z_ : State} {s : State} {t4 : Nat} {o : Int} {plocked : Bool} (h_ : Keeps z_ s) : Keeps z_ (State.steer s t4 o plocked) := by
  refine h_.trans ?_; clear h_
  unfold State.steer; try dsimp only
  repeat' (first
    | with_reducible exact Keeps.refl _ | with_reducible refine State.raise_keeps ?_ | with_reducible refine State.setHt_keeps ?_
    | with_reducible refine State.acquire_keeps ?_ | with_reducible refine State.renewBound_keeps ?_ | split)

theorem State.tsFupIn_keeps {z_ : State} {s : State} {port : Nat} {x : W64} {sub : BitVec 4} (h_ : Keeps z_ s) : Keeps z_ (State.tsFupIn s port x sub) := by
  refine h_.trans ?_; clear h_
  unfold State.tsFupIn; try dsimp only
  repeat' (first
    | with_reducible exact Keeps.refl _ | with_reducible refine State.symErr_keeps ?_ | with_reducible refine State.setPortHt_keeps ?_
    | with_reducible refine State.steer_keeps ?_ | split)

theorem execTsFupReceive_keeps {port : Nat} {x : BitVec 64} {sub : BitVec 4} {s : State} : ResKeeps s (execTsFupReceive port x sub s) := by
  unfold execTsFupReceive; try dsimp only
  repeat' (first
    | with_reducible exact Keeps.refl _ | with_reducible exact ResKeeps.fault _ _ | with_reducible refine ResKeeps.next ?_
    | with_reducible refine State.tsFupIn_keeps ?_ | with_reducible refine ResKeeps.ite (fun _ => ?_) (fun _ => ?_))

theorem execHtLock_keeps {s : State} : ResKeeps s (execHtLock s) := by
  unfold execHtLock; try dsimp only
  repeat' (first
    | with_reducible exact Keeps.refl _ | with_reducible refine ResKeeps.when (fun _ => ?_) | with_reducible refine State.setHt_keeps ?_
    | with_reducible refine State.checkBound_keeps ?_)

theorem execHoldoverBoundStep_keeps {s : State} : ResKeeps s (execHoldoverBoundStep s) := by
  unfold execHoldoverBoundStep; try dsimp only
  repeat' (first
    | with_reducible exact Keeps.refl _ | with_reducible refine ResKeeps.when (fun _ => ?_) | with_reducible refine State.setHt_keeps ?_
    | with_reducible refine State.checkBound_keeps ?_)

theorem execHallTimeSet_keeps {r : RingRef} {w : CmdWords} {s : State} : ResKeeps s (execHallTimeSet r w s) := by
  unfold execHallTimeSet; try dsimp only
  repeat' (first
    | with_reducible exact Keeps.refl _ | with_reducible refine State.replyCode_keeps ?_ | with_reducible refine State.setHt_keeps ?_
    | with_reducible refine hostCmd_keeps (fun _ => ?_) | with_reducible refine Keeps.ite (fun _ => ?_) (fun _ => ?_))

theorem State.setAtEdge_keeps {z_ : State} {s : State} {q : Option RingRef × W64 × Nat} (h_ : Keeps z_ s) : Keeps z_ (State.setAtEdge s q) := by
  refine h_.trans ?_; clear h_
  unfold State.setAtEdge; try dsimp only
  repeat' (first
    | with_reducible exact Keeps.refl _ | with_reducible refine State.replyTo_keeps ?_ | with_reducible refine State.setHt_keeps ?_
    | with_reducible refine Keeps.ite (fun _ => ?_) (fun _ => ?_))

theorem execHtPpsInEdge_keeps {s : State} : ResKeeps s (execHtPpsInEdge s) := by
  unfold execHtPpsInEdge; try dsimp only
  repeat' (first
    | with_reducible exact Keeps.refl _ | with_reducible refine ResKeeps.next ?_ | with_reducible refine State.setHt_keeps ?_
    | with_reducible refine State.setAtEdge_keeps ?_ | with_reducible refine Keeps.forAll ?_ (fun _ _ => ?_)
    | with_reducible refine ResKeeps.ite (fun _ => ?_) (fun _ => ?_))

theorem execHtPpsOutPulse_keeps {s : State} : ResKeeps s (execHtPpsOutPulse s) := by
  unfold execHtPpsOutPulse; try dsimp only
  repeat' (first | with_reducible exact Keeps.refl _ | with_reducible refine ResKeeps.when (fun _ => ?_) | with_reducible refine State.setHt_keeps ?_)

theorem execHallTimeSetTimeout_keeps {s : State} : ResKeeps s (execHallTimeSetTimeout s) := by
  unfold execHallTimeSetTimeout; try dsimp only
  repeat' (first
    | with_reducible exact Keeps.refl _ | with_reducible refine ResKeeps.next ?_ | with_reducible refine State.replyTo_keeps ?_
    | with_reducible refine State.setHt_keeps ?_ | with_reducible refine ResKeeps.awake ?_
    | with_reducible refine Keeps.forAll ?_ (fun _ _ => ?_))

theorem State.postJob_keeps {z_ : State} {s : State} {cid : Nat} {e : Nat} {cyc : Nat} {place : Nat} {w : List W64} (h_ : Keeps z_ s) : Keeps z_ (State.postJob s cid e cyc place w) := by
  refine h_.trans ?_; clear h_
  unfold State.postJob; try dsimp only
  repeat' (first | with_reducible exact Keeps.refl _ | with_reducible refine State.setCluster_keeps ?_)

theorem State.cjobPost_keeps {z_ : State} {s : State} {r : IssueRef} {c : CtxRef} {f : Fields} {a : Nat} {w : List W64} (h_ : Keeps z_ s) : Keeps z_ (State.cjobPost s r c f a w) := by
  refine h_.trans ?_; clear h_
  unfold State.cjobPost; try dsimp only
  repeat' (first
    | with_reducible exact Keeps.refl _ | with_reducible refine State.demand_keeps ?_ | with_reducible refine State.trap_keeps ?_
    | with_reducible refine State.clvErr_keeps ?_ | with_reducible refine State.modThread_keeps ?_
    | with_reducible refine State.postJob_keeps ?_ | split)

theorem State.stageCjob_keeps {z_ : State} {s : State} {r : IssueRef} {c : CtxRef} {f : Fields} {k : Nat} {got : List Byte} (h_ : Keeps z_ s) : Keeps z_ (State.stageCjob s r c f k got) := by
  refine h_.trans ?_; clear h_
  unfold State.stageCjob; try dsimp only
  repeat' (first
    | with_reducible exact Keeps.refl _ | with_reducible refine State.sramTrap_keeps ?_ | with_reducible refine State.hold_keeps ?_
    | with_reducible refine State.cjobPost_keeps ?_ | with_reducible refine State.readStage_keeps ?_ (fun _ _ => ?_)
    | with_reducible refine Keeps.ite (fun _ => ?_) (fun _ => ?_))

theorem execCjob_keeps {r : IssueRef} {f : Fields} {s : State} : ResKeeps s (execCjob r f s) := by
  unfold execCjob; try dsimp only
  repeat' (first
    | with_reducible exact Keeps.refl _ | with_reducible refine State.stageCjob_keeps ?_ | with_reducible refine issue_keeps (fun _ _ => ?_))

theorem cloverStep_keeps {s : State} {cid e : Nat} {body : CtxRef → State} (hb : ∀ c, Keeps s (body c)) :
    ResKeeps s (cloverStep s cid e body) := by
  unfold cloverStep
  refine ResKeeps.ite (fun _ => ResKeeps.fault _ _) (fun _ => ?_)
  split
  · exact ResKeeps.next (Keeps.refl _)
  · exact ResKeeps.next (hb _)

theorem execCloverJobStart_keeps {cid : Nat} {eng : Nat} {s : State} : ResKeeps s (execCloverJobStart cid eng s) := by
  unfold execCloverJobStart; try dsimp only
  repeat' (first
    | with_reducible exact Keeps.refl _ | with_reducible refine State.setEngine_keeps ?_ | with_reducible refine cloverStep_keeps (fun _ => ?_))

theorem execCloverOutputTileStart_keeps {cid : Nat} {eng : Nat} {s : State} : ResKeeps s (execCloverOutputTileStart cid eng s) := by
  unfold execCloverOutputTileStart; try dsimp only
  repeat' (first
    | with_reducible exact Keeps.refl _ | with_reducible refine State.setEngine_keeps ?_ | with_reducible refine cloverStep_keeps (fun _ => ?_))

theorem execCloverFeedWindow_keeps {cid lane win cyc : Nat} {s : State} : ResKeeps s (execCloverFeedWindow cid lane win cyc s) := by
  unfold execCloverFeedWindow
  dsimp only
  refine ResKeeps.ite (fun _ => ResKeeps.fault _ _) (fun _ => ?_)
  split
  · exact ResKeeps.next (Keeps.refl _)
  · refine ResKeeps.ite (fun _ => ResKeeps.next ?_) (fun _ => ResKeeps.next (Keeps.refl _))
    exact Keeps.setTile (Keeps.upd (Keeps.refl s) rfl rfl rfl rfl rfl rfl rfl rfl rfl rfl) (fun h => h)

theorem execCloverWavefrontComplete_keeps {cid : Nat} {eng : Nat} {s : State} : ResKeeps s (execCloverWavefrontComplete cid eng s) := by
  unfold execCloverWavefrontComplete; try dsimp only
  repeat' (first
    | with_reducible exact Keeps.refl _ | with_reducible refine State.setEngine_keeps ?_ | with_reducible refine cloverStep_keeps (fun _ => ?_)
    | (fail_if_no_progress with_reducible refine Keeps.upd ?_ rfl rfl rfl rfl rfl rfl rfl rfl rfl rfl) | split)

theorem State.watchAdd_keeps {z_ : State} {s : State} {c : CtxRef} {d : Nat} {n : Nat} {code : Nat} {xs : List Stored} (h_ : Keeps z_ s) : Keeps z_ (State.watchAdd s c d n code xs) := by
  refine h_.trans ?_; clear h_
  unfold State.watchAdd; try dsimp only
  repeat' (first
    | with_reducible exact Keeps.refl _ | with_reducible refine State.setDie_keeps ?_ | with_reducible refine State.hwSet_keeps ?_
    | with_reducible refine State.raise_keeps ?_ | with_reducible refine Keeps.forAll ?_ (fun _ _ => ?_)
    | with_reducible refine Keeps.ite (fun _ => ?_) (fun _ => ?_))

theorem State.drainPut_keeps {z_ : State} {s : State} {c : CtxRef} {t : Nat} {a : Nat} {bs : List Byte} (h_ : Keeps z_ s) : Keeps z_ (State.drainPut s c t a bs).1 := by
  refine h_.trans ?_; clear h_
  unfold State.drainPut; try dsimp only
  repeat' (first
    | with_reducible exact Keeps.refl _ | with_reducible refine State.sramWrite_keeps ?_ | with_reducible refine State.bankOff_keeps ?_ | split)

theorem State.drainUnit_keeps {z_ : State} {s : State} {c : CtxRef} {cid : Nat} {e : Nat} {row : Nat} {unit : Nat} {j : Job} {n : Nat} (h_ : Keeps z_ s) : Keeps z_ (State.drainUnit s c cid e row unit j n) := by
  refine h_.trans ?_; clear h_
  unfold State.drainUnit; try dsimp only
  repeat' (first
    | with_reducible exact Keeps.refl _ | with_reducible refine State.setEngine_keeps ?_ | with_reducible refine State.watchAdd_keeps ?_
    | with_reducible refine State.drainPut_keeps ?_ | with_reducible refine Keeps.ite (fun _ => ?_) (fun _ => ?_))

theorem State.zoutUnit_keeps {z_ : State} {s : State} {c : CtxRef} {cid : Nat} {e : Nat} {row : Nat} {unit : Nat} {j : Job} {n : Nat} (h_ : Keeps z_ s) : Keeps z_ (State.zoutUnit s c cid e row unit j n) := by
  refine h_.trans ?_; clear h_
  unfold State.zoutUnit; try dsimp only
  repeat' (first | with_reducible exact Keeps.refl _ | with_reducible refine State.setEngine_keeps ?_ | with_reducible refine State.drainPut_keeps ?_)

theorem execCloverDrainWrite_keeps {cid : Nat} {eng : Nat} {row : Nat} {unit : Nat} {s : State} : ResKeeps s (execCloverDrainWrite cid eng row unit s) := by
  unfold execCloverDrainWrite; try dsimp only
  repeat' (first
    | with_reducible exact Keeps.refl _ | with_reducible exact ResKeeps.fault _ _ | with_reducible refine State.drainUnit_keeps ?_
    | with_reducible refine State.zoutUnit_keeps ?_ | with_reducible refine cloverStep_keeps (fun _ => ?_) | split)

theorem State.scaleUpdate_keeps {z_ : State} {s : State} {c : CtxRef} {cid : Nat} {j : Job} {n : Nat} {k : TileStat} (h_ : Keeps z_ s) : Keeps z_ (State.scaleUpdate s c cid j n k) := by
  refine h_.trans ?_; clear h_
  unfold State.scaleUpdate; try dsimp only
  repeat' (first
    | with_reducible exact Keeps.refl _ | with_reducible refine State.setCluster_keeps ?_ | with_reducible refine State.hwSet_keeps ?_ | split)

theorem State.dropLines_keeps {z_ s : State} {cid e order n : Nat} (h_ : Keeps z_ s) : Keeps z_ (s.dropLines cid e order n) := by
  refine h_.trans ?_
  unfold State.dropLines
  exact Keeps.tiles (Keeps.refl _)
    (fun k y => if cidOfTile k = cid then { y with feed := y.feed.filter (fun l => l.eng ≠ e || order < l.job || (l.job = order && n ≤ l.n)) } else y)
    (fun k y h => by split; exacts [h, h])

theorem execCloverTileDrainComplete_keeps {cid : Nat} {eng : Nat} {s : State} : ResKeeps s (execCloverTileDrainComplete cid eng s) := by
  unfold execCloverTileDrainComplete; try dsimp only
  repeat' (first
    | with_reducible exact Keeps.refl _ | with_reducible refine State.setEngine_keeps ?_ | with_reducible refine State.scaleUpdate_keeps ?_
    | with_reducible refine State.dropLines_keeps ?_ | with_reducible refine cloverStep_keeps (fun _ => ?_) | split)

theorem State.doneFlags_keeps {z_ : State} {s : State} {c : CtxRef} {cid : Nat} {n : Nat} {cyc : Nat} {order : Nat} (h_ : Keeps z_ s) : Keeps z_ (State.doneFlags s c cid n cyc order) := by
  refine h_.trans ?_; clear h_
  unfold State.doneFlags; try dsimp only
  repeat' (first
    | with_reducible exact Keeps.refl _ | (fail_if_no_progress with_reducible refine Keeps.upd ?_ rfl rfl rfl rfl rfl rfl rfl rfl rfl rfl))

theorem execCloverJobComplete_keeps {cid : Nat} {eng : Nat} {s : State} : ResKeeps s (execCloverJobComplete cid eng s) := by
  unfold execCloverJobComplete; try dsimp only
  repeat' (first
    | with_reducible exact Keeps.refl _ | with_reducible refine State.setEngine_keeps ?_ | with_reducible refine State.doneFlags_keeps ?_
    | with_reducible refine cloverStep_keeps (fun _ => ?_) | split)

theorem execClusterClockStart_keeps {cid : Nat} {s : State} : ResKeeps s (execClusterClockStart cid s) := by
  unfold execClusterClockStart; try dsimp only
  repeat' (first
    | with_reducible exact Keeps.refl _ | with_reducible exact ResKeeps.fault _ _ | with_reducible refine ResKeeps.when (fun _ => ?_)
    | with_reducible refine State.setCluster_keeps ?_ | with_reducible refine ResKeeps.ite (fun _ => ?_) (fun _ => ?_))

theorem execClusterGating_keeps {cid : Nat} {s : State} : ResKeeps s (execClusterGating cid s) := by
  unfold execClusterGating; try dsimp only
  repeat' (first
    | with_reducible exact Keeps.refl _ | with_reducible exact ResKeeps.fault _ _ | with_reducible refine ResKeeps.next ?_
    | with_reducible refine ResKeeps.when (fun _ => ?_) | with_reducible refine State.setCluster_keeps ?_ | split)

theorem State.setFlag_keeps {z_ : State} {s : State} {g : FlagRef} {b : Bool} (h_ : Keeps z_ s) : Keeps z_ (State.setFlag s g b) := by
  refine h_.trans ?_; clear h_
  unfold State.setFlag; try dsimp only
  repeat' (first
    | with_reducible exact Keeps.refl _ | with_reducible refine State.setDie_keeps ?_ | with_reducible refine Keeps.setTile ?_ (fun h => h)
    | split)

theorem State.misuse_keeps {z_ : State} {s : State} {g : FlagRef} {q : FlagReq} {cause : Nat} (h_ : Keeps z_ s) : Keeps z_ (State.misuse s g q cause) := by
  refine h_.trans ?_; clear h_
  unfold State.misuse; try dsimp only
  repeat' (first
    | with_reducible exact Keeps.refl _ | with_reducible refine State.setDie_keeps ?_ | with_reducible refine State.hwSet_keeps ?_
    | with_reducible refine State.hwRec_keeps ?_ | with_reducible refine State.raise_keeps ?_
    | with_reducible refine Keeps.ite (fun _ => ?_) (fun _ => ?_))

theorem State.misuseReq_keeps {z_ : State} {s : State} {g : FlagRef} {q : FlagReq} {cause : Nat} (h_ : Keeps z_ s) : Keeps z_ (State.misuseReq s g q cause) := by
  refine h_.trans ?_; clear h_
  unfold State.misuseReq; try dsimp only
  repeat' (first
    | with_reducible exact Keeps.refl _ | with_reducible refine State.misuse_keeps ?_
    | (fail_if_no_progress with_reducible refine Keeps.upd ?_ rfl rfl rfl rfl rfl rfl rfl rfl rfl rfl) | split)

theorem State.releaseReq_keeps {z_ : State} {c : Nat} {s : State} {q : FlagReq} (h_ : Keeps z_ s) : Keeps z_ (State.releaseReq c s q) := by
  refine h_.trans ?_; clear h_
  unfold State.releaseReq; try dsimp only
  repeat' (first | with_reducible exact Keeps.refl _ | with_reducible refine State.modThread_keeps ?_ | split)

theorem State.setFlagAt_keeps {z_ : State} {s : State} {g : FlagRef} {c : Nat} (h_ : Keeps z_ s) : Keeps z_ (State.setFlagAt s g c) := by
  refine h_.trans ?_; clear h_
  unfold State.setFlagAt; try dsimp only
  repeat' (first
    | with_reducible exact Keeps.refl _ | with_reducible refine State.setDie_keeps ?_ | with_reducible refine Keeps.setTile ?_ (fun h => h)
    | split)

theorem State.evalAt_keeps {z_ : State} {s : State} {g : FlagRef} {c : Nat} (h_ : Keeps z_ s) : Keeps z_ (State.evalAt s g c) := by
  refine h_.trans ?_; clear h_
  unfold State.evalAt; try dsimp only
  repeat' (first
    | with_reducible exact Keeps.refl _ | with_reducible refine State.replyTo_keeps ?_ | with_reducible refine State.setFlag_keeps ?_
    | with_reducible refine State.misuseReq_keeps ?_ | with_reducible refine State.releaseReq_keeps ?_
    | with_reducible refine State.setFlagAt_keeps ?_ | with_reducible refine Keeps.forAll ?_ (fun _ _ => ?_)
    | with_reducible refine Keeps.ite (fun _ => ?_) (fun _ => ?_)
    | (fail_if_no_progress with_reducible refine Keeps.upd ?_ rfl rfl rfl rfl rfl rfl rfl rfl rfl rfl))

theorem State.evalHost_keeps {z_ : State} {s : State} {g : FlagRef} (h_ : Keeps z_ s) : Keeps z_ (State.evalHost s g) := by
  refine h_.trans ?_; clear h_
  unfold State.evalHost; try dsimp only
  repeat' (first
    | with_reducible exact Keeps.refl _ | with_reducible refine State.replyTo_keeps ?_ | with_reducible refine State.setFlag_keeps ?_
    | with_reducible refine Keeps.forAll ?_ (fun _ _ => ?_)
    | (fail_if_no_progress with_reducible refine Keeps.upd ?_ rfl rfl rfl rfl rfl rfl rfl rfl rfl rfl))

theorem State.evalFlag_keeps {z_ : State} {s : State} {g : FlagRef} (h_ : Keeps z_ s) : Keeps z_ (State.evalFlag s g) := by
  refine h_.trans ?_; clear h_
  unfold State.evalFlag; try dsimp only
  repeat' (first
    | with_reducible exact Keeps.refl _ | with_reducible refine State.evalAt_keeps ?_ | with_reducible refine State.evalHost_keeps ?_ | split)

theorem State.postReq_keeps {z_ : State} {s : State} {r : IssueRef} {c : CtxRef} {g : FlagRef} {k : FlagKind} (h_ : Keeps z_ s) : Keeps z_ (State.postReq s r c g k) := by
  refine h_.trans ?_; clear h_
  unfold State.postReq; try dsimp only
  repeat' (first
    | with_reducible exact Keeps.refl _ | (fail_if_no_progress with_reducible refine Keeps.upd ?_ rfl rfl rfl rfl rfl rfl rfl rfl rfl rfl))

theorem State.flagInstr_keeps {z_ : State} {s : State} {r : IssueRef} {c : CtxRef} {f : Fields} {k : FlagKind} {g' : Thread → Thread} (h_ : Keeps z_ s) : Keeps z_ (State.flagInstr s r c f k g') := by
  refine h_.trans ?_; clear h_
  unfold State.flagInstr; try dsimp only
  repeat' (first
    | with_reducible exact Keeps.refl _ | with_reducible refine State.trapWith_keeps ?_ | with_reducible refine State.modThread_keeps ?_
    | with_reducible refine State.postReq_keeps ?_ | with_reducible refine Keeps.ite (fun _ => ?_) (fun _ => ?_))

theorem execFset_keeps {r : IssueRef} {f : Fields} {s : State} : ResKeeps s (execFset r f s) := by
  unfold execFset; try dsimp only
  repeat' (first
    | with_reducible exact Keeps.refl _ | with_reducible refine State.flagInstr_keeps ?_ | with_reducible refine issue_keeps (fun _ _ => ?_))

theorem execFclr_keeps {r : IssueRef} {f : Fields} {s : State} : ResKeeps s (execFclr r f s) := by
  unfold execFclr; try dsimp only
  repeat' (first
    | with_reducible exact Keeps.refl _ | with_reducible refine State.flagInstr_keeps ?_ | with_reducible refine issue_keeps (fun _ _ => ?_))

theorem execFwait_keeps {r : IssueRef} {f : Fields} {s : State} : ResKeeps s (execFwait r f s) := by
  unfold execFwait; try dsimp only
  repeat' (first
    | with_reducible exact Keeps.refl _ | with_reducible refine State.flagInstr_keeps ?_ | with_reducible refine issue_keeps (fun _ _ => ?_))

theorem execFwaitc_keeps {r : IssueRef} {f : Fields} {s : State} : ResKeeps s (execFwaitc r f s) := by
  unfold execFwaitc; try dsimp only
  repeat' (first
    | with_reducible exact Keeps.refl _ | with_reducible refine State.flagInstr_keeps ?_ | with_reducible refine issue_keeps (fun _ _ => ?_))

theorem execFence_keeps {r : IssueRef} {f : Fields} {s : State} : ResKeeps s (execFence r f s) := by
  unfold execFence; try dsimp only
  repeat' (first
    | with_reducible exact Keeps.refl _ | with_reducible refine State.modThread_keeps ?_ | with_reducible refine issue_keeps (fun _ _ => ?_))

theorem execFlagRequestArrival_keeps {q : Nat} {s : State} : ResKeeps s (execFlagRequestArrival q s) := by
  unfold execFlagRequestArrival; try dsimp only
  repeat' (first
    | with_reducible exact Keeps.refl _ | with_reducible refine ResKeeps.next ?_ | with_reducible refine State.replyTo_keeps ?_
    | (fail_if_no_progress with_reducible refine Keeps.upd ?_ rfl rfl rfl rfl rfl rfl rfl rfl rfl rfl) | split)

theorem execFlagEvaluation_keeps {g : FlagRef} {s : State} : ResKeeps s (execFlagEvaluation g s) := by
  unfold execFlagEvaluation; try dsimp only
  repeat' (first
    | with_reducible exact Keeps.refl _ | with_reducible exact ResKeeps.fault _ _ | with_reducible refine ResKeeps.next ?_
    | with_reducible refine State.evalFlag_keeps ?_ | with_reducible refine ResKeeps.awake ?_
    | with_reducible refine ResKeeps.ite (fun _ => ?_) (fun _ => ?_))

theorem State.evalUpTo_keeps {z_ s : State} {n : Nat} {g : FlagRef} {e : Nat} (h_ : Keeps z_ s) : Keeps z_ (State.evalUpTo n s g e) := by
  induction n generalizing s with
  | zero => exact h_
  | succ n ih =>
    unfold State.evalUpTo
    split
    · exact h_
    · exact Keeps.ite (fun _ => ih (State.evalAt_keeps h_)) (fun _ => h_)

theorem execFlagTimeout_keeps {tid thr : Nat} {s : State} : ResKeeps s (execFlagTimeout tid thr s) := by
  unfold execFlagTimeout; dsimp only
  refine ResKeeps.ite (fun _ => ResKeeps.fault _ _) (fun _ => ?_)
  split
  · refine ResKeeps.ite (fun _ => ?_) (fun _ => ResKeeps.next (Keeps.refl _))
    refine ResKeeps.ite (fun _ => ResKeeps.next (State.trapWith_keeps ?_)) (fun _ => ResKeeps.next (State.evalUpTo_keeps (Keeps.refl _)))
    exact Keeps.upd (State.evalUpTo_keeps (Keeps.refl s)) rfl rfl rfl rfl rfl rfl rfl rfl rfl rfl
  · exact ResKeeps.next (Keeps.refl _)

theorem State.countMsg_keeps {z_ : State} {s : State} {d : Nat} {code : Nat} (h_ : Keeps z_ s) : Keeps z_ (State.countMsg s d code) := by
  refine h_.trans ?_; clear h_
  unfold State.countMsg; try dsimp only
  repeat' (first | with_reducible exact Keeps.refl _ | with_reducible refine State.setDie_keeps ?_)

theorem State.depart_keeps {z_ : State} {s : State} {c : CtxRef} {t : Nat} {n : Nat} {d : BitVec 5} {m : Msg} {retry : Bool} {attempts : Nat} {t0 : Nat} {limit : Nat} (h_ : Keeps z_ s) : Keeps z_ (State.depart s c t n d m retry attempts t0 limit) := by
  refine h_.trans ?_; clear h_
  unfold State.depart; try dsimp only
  repeat' (first
    | with_reducible exact Keeps.refl _ | with_reducible refine State.modThread_keeps ?_ | with_reducible refine State.countMsg_keeps ?_
    | with_reducible refine Keeps.ite (fun _ => ?_) (fun _ => ?_))

theorem State.stageSend_keeps {z_ : State} {s : State} {r : IssueRef} {c : CtxRef} {f : Fields} {retry : Bool} {k : Nat} {got : List Byte} (h_ : Keeps z_ s) : Keeps z_ (State.stageSend s r c f retry k got) := by
  refine h_.trans ?_; clear h_
  unfold State.stageSend; try dsimp only
  repeat' (first
    | with_reducible exact Keeps.refl _ | with_reducible refine State.sramTrap_keeps ?_ | with_reducible refine State.hold_keeps ?_
    | with_reducible refine State.depart_keeps ?_ | with_reducible refine State.readStage_keeps ?_ (fun _ _ => ?_)
    | with_reducible refine Keeps.ite (fun _ => ?_) (fun _ => ?_))

theorem execSend_keeps {r : IssueRef} {f : Fields} {s : State} : ResKeeps s (execSend r f s) := by
  unfold execSend; try dsimp only
  repeat' (first
    | with_reducible exact Keeps.refl _ | with_reducible refine State.stageSend_keeps ?_ | with_reducible refine issue_keeps (fun _ _ => ?_))

theorem execSendw_keeps {r : IssueRef} {f : Fields} {s : State} : ResKeeps s (execSendw r f s) := by
  unfold execSendw; try dsimp only
  repeat' (first
    | with_reducible exact Keeps.refl _ | with_reducible refine State.stageSend_keeps ?_ | with_reducible refine issue_keeps (fun _ _ => ?_))

theorem State.pairUp_keeps {z_ : State} {s : State} {t : Nat} (h_ : Keeps z_ s) : Keeps z_ (State.pairUp s t) := by
  refine h_.trans ?_; clear h_
  unfold State.pairUp; try dsimp only
  repeat' (first
    | with_reducible exact Keeps.refl _ | with_reducible refine State.modThread_keeps ?_ | with_reducible refine Keeps.setTile ?_ (fun h => h)
    | split)

theorem State.stageCopy_keeps {z_ : State} {s : State} {r : IssueRef} {c : CtxRef} {f : Fields} {k : Nat} {m : Held} (h_ : Keeps z_ s) : Keeps z_ (State.stageCopy s r c f k m) := by
  refine h_.trans ?_; clear h_
  unfold State.stageCopy; try dsimp only
  repeat' (first
    | with_reducible exact Keeps.refl _ | with_reducible refine State.sramWrite_keeps ?_ | with_reducible refine State.sramTrap_keeps ?_
    | with_reducible refine State.pairUp_keeps ?_ | with_reducible refine State.dataStage_keeps ?_ (fun _ => ?_)
    | with_reducible refine Keeps.ite (fun _ => ?_) (fun _ => ?_) | (refine Keeps.setTile ?_ ?_; rotate_left; exact fun h => h))

theorem State.stageRecv_keeps {z_ : State} {s : State} {r : IssueRef} {c : CtxRef} {f : Fields} {k : Nat} (h_ : Keeps z_ s) : Keeps z_ (State.stageRecv s r c f k) := by
  refine h_.trans ?_; clear h_
  unfold State.stageRecv; try dsimp only
  repeat' (first | with_reducible exact Keeps.refl _ | with_reducible refine State.stageCopy_keeps ?_ | split)

theorem State.issueRecv_keeps {z_ : State} {s : State} {r : IssueRef} {c : CtxRef} {f : Fields} (h_ : Keeps z_ s) : Keeps z_ (State.issueRecv s r c f) := by
  refine h_.trans ?_; clear h_
  unfold State.issueRecv; try dsimp only
  repeat' (first
    | with_reducible exact Keeps.refl _ | with_reducible refine State.modThread_keeps ?_ | with_reducible refine State.sramTrap_keeps ?_
    | with_reducible refine State.pairUp_keeps ?_ | with_reducible refine State.stageRecv_keeps ?_
    | with_reducible refine Keeps.setTile ?_ (fun h => h) | with_reducible refine Keeps.ite (fun _ => ?_) (fun _ => ?_))

theorem execRecv_keeps {r : IssueRef} {f : Fields} {s : State} : ResKeeps s (execRecv r f s) := by
  unfold execRecv; try dsimp only
  repeat' (first
    | with_reducible exact Keeps.refl _ | with_reducible refine State.issueRecv_keeps ?_ | with_reducible refine issue_keeps (fun _ _ => ?_))

theorem execPoll_keeps {r : IssueRef} {f : Fields} {s : State} : ResKeeps s (execPoll r f s) := by
  unfold execPoll; try dsimp only
  repeat' (first
    | with_reducible exact Keeps.refl _ | with_reducible refine State.modThread_keeps ?_ | with_reducible refine issue_keeps (fun _ _ => ?_))

theorem State.assign_keeps {z_ : State} {s : State} {t : Nat} {m : Held} (h_ : Keeps z_ s) : Keeps z_ (State.assign s t m) := by
  refine h_.trans ?_; clear h_
  unfold State.assign; try dsimp only
  repeat' (first
    | with_reducible exact Keeps.refl _ | with_reducible refine State.pairUp_keeps ?_ | with_reducible refine Keeps.setTile ?_ (fun h => h))

theorem State.header_keeps {z_ : State} {s : State} {tid : Nat} {thr : Nat} {d : BitVec 5} {m : Msg} {retry : Bool} {attempts : Nat} {t0 : Nat} {limit : Nat} (h_ : Keeps z_ s) : Keeps z_ (State.header s tid thr d m retry attempts t0 limit) := by
  refine h_.trans ?_; clear h_
  unfold State.header; try dsimp only
  repeat' (first
    | with_reducible exact Keeps.refl _ | with_reducible refine State.modThread_keeps ?_ | with_reducible refine State.countMsg_keeps ?_
    | with_reducible refine Keeps.setTile ?_ (fun h => h) | split)

theorem execMessageArrival_keeps {tid : Nat} {thr : Nat} {s : State} : ResKeeps s (execMessageArrival tid thr s) := by
  unfold execMessageArrival; try dsimp only
  repeat' (first
    | with_reducible exact Keeps.refl _ | with_reducible exact ResKeeps.fault _ _ | with_reducible refine ResKeeps.next ?_
    | with_reducible refine State.assign_keeps ?_ | with_reducible refine State.header_keeps ?_ | with_reducible refine ResKeeps.awake ?_
    | split)

theorem State.exhaust_keeps {z_ : State} {s : State} {c : CtxRef} {t : Nat} {n : Nat} {m : Msg} {attempts : Nat} (h_ : Keeps z_ s) : Keeps z_ (State.exhaust s c t n m attempts) := by
  refine h_.trans ?_; clear h_
  unfold State.exhaust; try dsimp only
  repeat' (first | with_reducible exact Keeps.refl _ | with_reducible refine State.trapWith_keeps ?_)

theorem execMessageReplyArrival_keeps {tid : Nat} {thr : Nat} {s : State} : ResKeeps s (execMessageReplyArrival tid thr s) := by
  unfold execMessageReplyArrival; try dsimp only
  repeat' (first
    | with_reducible exact Keeps.refl _ | with_reducible exact ResKeeps.fault _ _ | with_reducible refine ResKeeps.next ?_
    | with_reducible refine State.modThread_keeps ?_ | with_reducible refine State.exhaust_keeps ?_ | with_reducible refine ResKeeps.awake ?_
    | split)

theorem execSendwRetry_keeps {tid : Nat} {thr : Nat} {s : State} : ResKeeps s (execSendwRetry tid thr s) := by
  unfold execSendwRetry; try dsimp only
  repeat' (first
    | with_reducible exact Keeps.refl _ | with_reducible exact ResKeeps.fault _ _ | with_reducible refine ResKeeps.next ?_
    | with_reducible refine ResKeeps.when (fun _ => ?_) | with_reducible refine State.depart_keeps ?_ | with_reducible refine ResKeeps.awake ?_
    | split)

theorem execMsgRetryExhausted_keeps {tid : Nat} {thr : Nat} {s : State} : ResKeeps s (execMsgRetryExhausted tid thr s) := by
  unfold execMsgRetryExhausted; try dsimp only
  repeat' (first
    | with_reducible exact Keeps.refl _ | with_reducible exact ResKeeps.fault _ _ | with_reducible refine ResKeeps.next ?_
    | with_reducible refine ResKeeps.when (fun _ => ?_) | with_reducible refine State.exhaust_keeps ?_ | with_reducible refine ResKeeps.awake ?_
    | split)

theorem execMsgRecvTimeout_keeps {tid : Nat} {thr : Nat} {s : State} : ResKeeps s (execMsgRecvTimeout tid thr s) := by
  unfold execMsgRecvTimeout; try dsimp only
  repeat' (first
    | with_reducible exact Keeps.refl _ | with_reducible exact ResKeeps.fault _ _ | with_reducible refine ResKeeps.next ?_
    | with_reducible refine ResKeeps.when (fun _ => ?_) | with_reducible refine State.trapWith_keeps ?_
    | with_reducible refine ResKeeps.awake ?_ | split)

theorem State.setXch_keeps {z_ : State} {s : State} {p : Nat} {x : PortXch} (h_ : Keeps z_ s) : Keeps z_ (State.setXch s p x) := by
  refine h_.trans ?_; clear h_
  unfold State.setXch; try dsimp only
  repeat' (first | with_reducible exact Keeps.refl _ | with_reducible refine State.setPort_keeps ?_)

theorem ScatRun.put_keeps {z_ : State} {r : ScatRun} {c : CtxRef} {d va : Nat} {bs : List Byte} (h_ : Keeps z_ r.s) :
    Keeps z_ (r.put c d va bs).s := by
  unfold ScatRun.put
  split
  · exact h_
  · split
    · exact Keeps.of_fst (State.vaWrite_keeps h_) (by assumption)
    · exact Keeps.of_fst (State.vaWrite_keeps h_) (by assumption)

theorem ScatRun.get_keeps {z_ : State} {r : ScatRun} {c : CtxRef} {d va n : Nat} (h_ : Keeps z_ r.s) :
    Keeps z_ (r.get c d va n).1.s := by
  unfold ScatRun.get
  split
  · exact h_
  · split
    · exact Keeps.of_fst (State.vaRead_keeps h_) (by assumption)
    · exact Keeps.of_fst (State.vaRead_keeps h_) (by assumption)

theorem ScatRun.choice_keeps {z_ : State} {r : ScatRun} {c : CtxRef} {d : Nat} {x : Scat} {t k : Nat} (h_ : Keeps z_ r.s) :
    Keeps z_ (r.choice c d x t k).1.s := by
  have h1 := ScatRun.get_keeps (c := c) (d := d) (va := x.route + 2 * (t * x.topk + k)) (n := 2) h_
  unfold ScatRun.choice
  dsimp only
  split
  · exact h1
  · split
    · exact h1
    · split
      · exact ScatRun.put_keeps (ScatRun.put_keeps (ScatRun.get_keeps h1))
      · exact h1

theorem ScatRun.foldl_keeps {α : Type} {z_ : State} {g : ScatRun → α → ScatRun} (hg : ∀ r a, Keeps z_ r.s → Keeps z_ (g r a).s)
    (xs : List α) {r : ScatRun} (h_ : Keeps z_ r.s) : Keeps z_ (xs.foldl g r).s := by
  induction xs generalizing r with
  | nil => exact h_
  | cons a as ih => exact ih (hg r a h_)

theorem ScatRun.token_keeps {z_ : State} {r : ScatRun} {c : CtxRef} {d : Nat} {x : Scat} {t : Nat} (h_ : Keeps z_ r.s) :
    Keeps z_ (r.token c d x t).s := by
  unfold ScatRun.token
  refine ScatRun.put_keeps ?_
  have key : ∀ (xs : List Nat) (a : ScatRun × Nat), Keeps z_ a.1.s →
      Keeps z_ (xs.foldl (fun (a : ScatRun × Nat) k => ((a.1.choice c d x t k).1, a.2 + b1 (a.1.choice c d x t k).2 * 2 ^ k)) a).1.s := by
    intro xs
    induction xs with
    | nil => exact fun _ h => h
    | cons k ks ih => exact fun a h => ih _ (ScatRun.choice_keeps h)
  exact key _ _ h_

theorem ScatRun.finish_keeps {z_ : State} {r : ScatRun} {c : CtxRef} {d : Nat} {x : Scat} {t : Nat} (h_ : Keeps z_ r.s) :
    Keeps z_ (r.finish c d x t).s := by
  unfold ScatRun.finish
  exact ScatRun.put_keeps (ScatRun.put_keeps (ScatRun.put_keeps h_))

theorem State.scatRun_keeps {z_ s : State} {c : CtxRef} {d j : Nat} (h_ : Keeps z_ s) : Keeps z_ (s.scatRun c d j) := by
  refine h_.trans ?_
  unfold State.scatRun
  dsimp only
  have h := ScatRun.foldl_keeps (z_ := s) (fun r e => ScatRun.finish_keeps (r := r) (c := c) (d := d) (x := sget {} (s.die d).str.scat j) (t := e))
    (List.range (sget {} (s.die d).str.scat j).nexp)
    (ScatRun.foldl_keeps (z_ := s) (fun r e => ScatRun.token_keeps (r := r) (c := c) (d := d) (x := sget {} (s.die d).str.scat j) (t := e))
      (List.range (sget {} (s.die d).str.scat j).ntok) (r := { s := s }) (Keeps.refl s))
  split
  · exact State.faultEvent_keeps (State.raise_keeps (State.setDie_keeps h))
  · exact State.setDie_keeps h

theorem State.scatterAll_keeps {z_ : State} {s : State} {c : CtxRef} (h_ : Keeps z_ s) : Keeps z_ (State.scatterAll s c) := by
  refine h_.trans ?_; clear h_
  unfold State.scatterAll; try dsimp only
  repeat' (first
    | with_reducible exact Keeps.refl _ | with_reducible refine State.scatRun_keeps ?_ | with_reducible refine Keeps.forAll ?_ (fun _ _ => ?_)
    | with_reducible refine Keeps.ite (fun _ => ?_) (fun _ => ?_))

theorem State.stageLoad_keeps {z_ : State} {s : State} {r : IssueRef} {c : CtxRef} {f : Fields} {n : Nat} {sx : Bool} (h_ : Keeps z_ s) : Keeps z_ (State.stageLoad s r c f n sx) := by
  refine h_.trans ?_; clear h_
  unfold State.stageLoad; try dsimp only
  repeat' (first
    | with_reducible exact Keeps.refl _ | with_reducible refine State.modThread_keeps ?_ | with_reducible refine State.sramTrap_keeps ?_
    | with_reducible refine State.dataStage_keeps ?_ (fun _ => ?_) | with_reducible refine Keeps.ite (fun _ => ?_) (fun _ => ?_))

theorem State.stageStore_keeps {z_ : State} {s : State} {r : IssueRef} {c : CtxRef} {f : Fields} {n : Nat} (h_ : Keeps z_ s) : Keeps z_ (State.stageStore s r c f n) := by
  refine h_.trans ?_; clear h_
  unfold State.stageStore; try dsimp only
  repeat' (first
    | with_reducible exact Keeps.refl _ | with_reducible refine State.sramWrite_keeps ?_ | with_reducible refine State.modThread_keeps ?_
    | with_reducible refine State.sramTrap_keeps ?_ | with_reducible refine State.dataStage_keeps ?_ (fun _ => ?_)
    | with_reducible refine Keeps.ite (fun _ => ?_) (fun _ => ?_))

theorem execLd8_keeps {r : IssueRef} {f : Fields} {s : State} : ResKeeps s (execLd8 r f s) := by
  unfold execLd8; try dsimp only
  repeat' (first
    | with_reducible exact Keeps.refl _ | with_reducible refine State.stageLoad_keeps ?_ | with_reducible refine issue_keeps (fun _ _ => ?_))

theorem execLd16_keeps {r : IssueRef} {f : Fields} {s : State} : ResKeeps s (execLd16 r f s) := by
  unfold execLd16; try dsimp only
  repeat' (first
    | with_reducible exact Keeps.refl _ | with_reducible refine State.stageLoad_keeps ?_ | with_reducible refine issue_keeps (fun _ _ => ?_))

theorem execLd32_keeps {r : IssueRef} {f : Fields} {s : State} : ResKeeps s (execLd32 r f s) := by
  unfold execLd32; try dsimp only
  repeat' (first
    | with_reducible exact Keeps.refl _ | with_reducible refine State.stageLoad_keeps ?_ | with_reducible refine issue_keeps (fun _ _ => ?_))

theorem execLd64_keeps {r : IssueRef} {f : Fields} {s : State} : ResKeeps s (execLd64 r f s) := by
  unfold execLd64; try dsimp only
  repeat' (first
    | with_reducible exact Keeps.refl _ | with_reducible refine State.stageLoad_keeps ?_ | with_reducible refine issue_keeps (fun _ _ => ?_))

theorem execLds8_keeps {r : IssueRef} {f : Fields} {s : State} : ResKeeps s (execLds8 r f s) := by
  unfold execLds8; try dsimp only
  repeat' (first
    | with_reducible exact Keeps.refl _ | with_reducible refine State.stageLoad_keeps ?_ | with_reducible refine issue_keeps (fun _ _ => ?_))

theorem execLds16_keeps {r : IssueRef} {f : Fields} {s : State} : ResKeeps s (execLds16 r f s) := by
  unfold execLds16; try dsimp only
  repeat' (first
    | with_reducible exact Keeps.refl _ | with_reducible refine State.stageLoad_keeps ?_ | with_reducible refine issue_keeps (fun _ _ => ?_))

theorem execLds32_keeps {r : IssueRef} {f : Fields} {s : State} : ResKeeps s (execLds32 r f s) := by
  unfold execLds32; try dsimp only
  repeat' (first
    | with_reducible exact Keeps.refl _ | with_reducible refine State.stageLoad_keeps ?_ | with_reducible refine issue_keeps (fun _ _ => ?_))

theorem execSt8_keeps {r : IssueRef} {f : Fields} {s : State} : ResKeeps s (execSt8 r f s) := by
  unfold execSt8; try dsimp only
  repeat' (first
    | with_reducible exact Keeps.refl _ | with_reducible refine State.stageStore_keeps ?_ | with_reducible refine issue_keeps (fun _ _ => ?_))

theorem execSt16_keeps {r : IssueRef} {f : Fields} {s : State} : ResKeeps s (execSt16 r f s) := by
  unfold execSt16; try dsimp only
  repeat' (first
    | with_reducible exact Keeps.refl _ | with_reducible refine State.stageStore_keeps ?_ | with_reducible refine issue_keeps (fun _ _ => ?_))

theorem execSt32_keeps {r : IssueRef} {f : Fields} {s : State} : ResKeeps s (execSt32 r f s) := by
  unfold execSt32; try dsimp only
  repeat' (first
    | with_reducible exact Keeps.refl _ | with_reducible refine State.stageStore_keeps ?_ | with_reducible refine issue_keeps (fun _ _ => ?_))

theorem execSt64_keeps {r : IssueRef} {f : Fields} {s : State} : ResKeeps s (execSt64 r f s) := by
  unfold execSt64; try dsimp only
  repeat' (first
    | with_reducible exact Keeps.refl _ | with_reducible refine State.stageStore_keeps ?_ | with_reducible refine issue_keeps (fun _ _ => ?_))

theorem State.updAccess_keeps {z_ : State} {s : State} {r : IssueRef} {c : CtxRef} {f : Fields} {u : UpdRec} {k : Nat} {g : Nat} {i : Nat} {got : List Byte} (h_ : Keeps z_ s) : Keeps z_ (State.updAccess s r c f u k g i got) := by
  refine h_.trans ?_; clear h_
  unfold State.updAccess; try dsimp only
  repeat' (first
    | with_reducible exact Keeps.refl _ | with_reducible refine State.sramWrite_keeps ?_ | with_reducible refine State.modThread_keeps ?_
    | with_reducible refine State.hold_keeps ?_ | with_reducible refine State.dataStage_keeps ?_ (fun _ => ?_)
    | with_reducible refine State.readStage_keeps ?_ (fun _ _ => ?_) | split)

theorem State.updCheck_keeps {z_ : State} {s : State} {r : IssueRef} {c : CtxRef} {f : Fields} {a : Nat} {got : List Byte} (h_ : Keeps z_ s) : Keeps z_ (State.updCheck s r c f a got) := by
  refine h_.trans ?_; clear h_
  unfold State.updCheck; try dsimp only
  repeat' (first
    | with_reducible exact Keeps.refl _ | with_reducible refine State.trap_keeps ?_ | with_reducible refine State.sramTrap_keeps ?_
    | with_reducible refine State.hold_keeps ?_ | split)

theorem State.stageUpd_keeps {z_ : State} {s : State} {r : IssueRef} {c : CtxRef} {f : Fields} {k : Nat} {got : List Byte} (h_ : Keeps z_ s) : Keeps z_ (State.stageUpd s r c f k got) := by
  refine h_.trans ?_; clear h_
  unfold State.stageUpd; try dsimp only
  repeat' (first
    | with_reducible exact Keeps.refl _ | with_reducible refine State.sramTrap_keeps ?_ | with_reducible refine State.hold_keeps ?_
    | with_reducible refine State.updAccess_keeps ?_ | with_reducible refine State.updCheck_keeps ?_
    | with_reducible refine State.readStage_keeps ?_ (fun _ _ => ?_) | with_reducible refine Keeps.ite (fun _ => ?_) (fun _ => ?_))

theorem execUpdSplit_keeps {r : IssueRef} {f : Fields} {s : State} : ResKeeps s (execUpdSplit r f s) := by
  unfold execUpdSplit; try dsimp only
  repeat' (first
    | with_reducible exact Keeps.refl _ | with_reducible refine State.stageUpd_keeps ?_ | with_reducible refine issue_keeps (fun _ _ => ?_))

theorem State.stageVld_keeps {z_ : State} {s : State} {r : IssueRef} {c : CtxRef} {f : Fields} (h_ : Keeps z_ s) : Keeps z_ (State.stageVld s r c f) := by
  refine h_.trans ?_; clear h_
  unfold State.stageVld; try dsimp only
  repeat' (first
    | with_reducible exact Keeps.refl _ | with_reducible refine State.modThread_keeps ?_ | with_reducible refine State.sramTrap_keeps ?_
    | with_reducible refine State.dataStage_keeps ?_ (fun _ => ?_) | with_reducible refine Keeps.ite (fun _ => ?_) (fun _ => ?_))

theorem State.stageVst_keeps {z_ : State} {s : State} {r : IssueRef} {c : CtxRef} {f : Fields} (h_ : Keeps z_ s) : Keeps z_ (State.stageVst s r c f) := by
  refine h_.trans ?_; clear h_
  unfold State.stageVst; try dsimp only
  repeat' (first
    | with_reducible exact Keeps.refl _ | with_reducible refine State.sramWrite_keeps ?_ | with_reducible refine State.modThread_keeps ?_
    | with_reducible refine State.sramTrap_keeps ?_ | with_reducible refine State.dataStage_keeps ?_ (fun _ => ?_)
    | with_reducible refine Keeps.ite (fun _ => ?_) (fun _ => ?_))

theorem State.valu_keeps {z_ : State} {s : State} {r : IssueRef} {f : Fields} {g : Thread → W256} (h_ : Keeps z_ s) : Keeps z_ (State.valu s r f g) := by
  refine h_.trans ?_; clear h_
  unfold State.valu; try dsimp only
  repeat' (first | with_reducible exact Keeps.refl _ | with_reducible refine State.modThread_keeps ?_)

theorem State.vtos_keeps {z_ : State} {s : State} {r : IssueRef} {f : Fields} {g : W256 → W32} (h_ : Keeps z_ s) : Keeps z_ (State.vtos s r f g) := by
  refine h_.trans ?_; clear h_
  unfold State.vtos; try dsimp only
  repeat' (first | with_reducible exact Keeps.refl _ | with_reducible refine State.modThread_keeps ?_)

theorem execVld_keeps {r : IssueRef} {f : Fields} {s : State} : ResKeeps s (execVld r f s) := by
  unfold execVld; try dsimp only
  repeat' (first
    | with_reducible exact Keeps.refl _ | with_reducible refine State.stageVld_keeps ?_ | with_reducible refine issue_keeps (fun _ _ => ?_))

theorem execVst_keeps {r : IssueRef} {f : Fields} {s : State} : ResKeeps s (execVst r f s) := by
  unfold execVst; try dsimp only
  repeat' (first
    | with_reducible exact Keeps.refl _ | with_reducible refine State.stageVst_keeps ?_ | with_reducible refine issue_keeps (fun _ _ => ?_))

theorem execVfma_keeps {r : IssueRef} {f : Fields} {s : State} : ResKeeps s (execVfma r f s) := by
  unfold execVfma; try dsimp only
  repeat' (first | with_reducible exact Keeps.refl _ | with_reducible refine State.valu_keeps ?_ | with_reducible refine issue_keeps (fun _ _ => ?_))

theorem execVadd_keeps {r : IssueRef} {f : Fields} {s : State} : ResKeeps s (execVadd r f s) := by
  unfold execVadd; try dsimp only
  repeat' (first | with_reducible exact Keeps.refl _ | with_reducible refine State.valu_keeps ?_ | with_reducible refine issue_keeps (fun _ _ => ?_))

theorem execVsub_keeps {r : IssueRef} {f : Fields} {s : State} : ResKeeps s (execVsub r f s) := by
  unfold execVsub; try dsimp only
  repeat' (first | with_reducible exact Keeps.refl _ | with_reducible refine State.valu_keeps ?_ | with_reducible refine issue_keeps (fun _ _ => ?_))

theorem execVmul_keeps {r : IssueRef} {f : Fields} {s : State} : ResKeeps s (execVmul r f s) := by
  unfold execVmul; try dsimp only
  repeat' (first | with_reducible exact Keeps.refl _ | with_reducible refine State.valu_keeps ?_ | with_reducible refine issue_keeps (fun _ _ => ?_))

theorem execVmax_keeps {r : IssueRef} {f : Fields} {s : State} : ResKeeps s (execVmax r f s) := by
  unfold execVmax; try dsimp only
  repeat' (first | with_reducible exact Keeps.refl _ | with_reducible refine State.valu_keeps ?_ | with_reducible refine issue_keeps (fun _ _ => ?_))

theorem execVmin_keeps {r : IssueRef} {f : Fields} {s : State} : ResKeeps s (execVmin r f s) := by
  unfold execVmin; try dsimp only
  repeat' (first | with_reducible exact Keeps.refl _ | with_reducible refine State.valu_keeps ?_ | with_reducible refine issue_keeps (fun _ _ => ?_))

theorem execVbcast_keeps {r : IssueRef} {f : Fields} {s : State} : ResKeeps s (execVbcast r f s) := by
  unfold execVbcast; try dsimp only
  repeat' (first | with_reducible exact Keeps.refl _ | with_reducible refine State.valu_keeps ?_ | with_reducible refine issue_keeps (fun _ _ => ?_))

theorem execVcvt_keeps {r : IssueRef} {f : Fields} {s : State} : ResKeeps s (execVcvt r f s) := by
  unfold execVcvt; try dsimp only
  repeat' (first | with_reducible exact Keeps.refl _ | with_reducible refine State.valu_keeps ?_ | with_reducible refine issue_keeps (fun _ _ => ?_))

theorem execVreds_keeps {r : IssueRef} {f : Fields} {s : State} : ResKeeps s (execVreds r f s) := by
  unfold execVreds; try dsimp only
  repeat' (first | with_reducible exact Keeps.refl _ | with_reducible refine State.vtos_keeps ?_ | with_reducible refine issue_keeps (fun _ _ => ?_))

theorem execVredm_keeps {r : IssueRef} {f : Fields} {s : State} : ResKeeps s (execVredm r f s) := by
  unfold execVredm; try dsimp only
  repeat' (first | with_reducible exact Keeps.refl _ | with_reducible refine State.vtos_keeps ?_ | with_reducible refine issue_keeps (fun _ _ => ?_))

theorem execVext_keeps {r : IssueRef} {f : Fields} {s : State} : ResKeeps s (execVext r f s) := by
  unfold execVext; try dsimp only
  repeat' (first | with_reducible exact Keeps.refl _ | with_reducible refine State.vtos_keeps ?_ | with_reducible refine issue_keeps (fun _ _ => ?_))

end Sys2Proof.Machine
end

