-- ==== Sys2Proof/Laws/KeepsExchange.lean ====
section
/-!
SUPPORT. `Keeps` for supersteps, exchanges, ports, hall time and the removal of contexts.
-/

namespace Sys2Proof.Machine

theorem execSync_keeps {r : IssueRef} {f : Fields} {s : State} : ResKeeps s (execSync r f s) := by
  unfold execSync; try dsimp only
  repeat' (first
    | with_reducible exact Keeps.refl _ | with_reducible refine State.modThread_keeps ?_ | with_reducible refine issue_keeps (fun _ _ => ?_)
    | (refine State.setCtx_keeps ?_ ?_; rotate_left; exact ⟨fun _ h => h, fun h => Or.inr h⟩))

theorem execNop_keeps {r : IssueRef} {f : Fields} {s : State} : ResKeeps s (execNop r f s) := by
  unfold execNop; try dsimp only
  repeat' (first
    | with_reducible exact Keeps.refl _ | with_reducible refine State.modThread_keeps ?_ | with_reducible refine issue_keeps (fun _ _ => ?_))

theorem State.flagLeft_keeps {z_ : State} {s : State} {c : CtxRef} {d : Nat} (h_ : Keeps z_ s) : Keeps z_ (State.flagLeft s c d) := by
  refine h_.trans ?_; clear h_
  unfold State.flagLeft; try dsimp only
  repeat' (first
    | with_reducible exact Keeps.refl _ | with_reducible refine State.setDie_keeps ?_ | with_reducible refine State.raise_keeps ?_ | split)

theorem State.enterDone_keeps {z_ : State} {s : State} {c : CtxRef} (h_ : Keeps z_ s) : Keeps z_ (State.enterDone s c) := by
  refine h_.trans ?_; clear h_
  unfold State.enterDone; try dsimp only
  repeat' (first
    | with_reducible exact Keeps.refl _ | with_reducible refine State.replyCode_keeps ?_ | with_reducible refine State.flagLeft_keeps ?_
    | with_reducible refine Keeps.forAll ?_ (fun _ _ => ?_)
    | (refine State.setCtx_keeps ?_ ?_; rotate_left; exact ⟨fun _ h => h, fun h => by cases h⟩))

theorem State.doneIf_keeps {z_ : State} {s : State} {c : CtxRef} (h_ : Keeps z_ s) : Keeps z_ (State.doneIf s c) := by
  refine h_.trans ?_; clear h_
  unfold State.doneIf; try dsimp only
  repeat' (first
    | with_reducible exact Keeps.refl _ | with_reducible refine State.enterDone_keeps ?_
    | with_reducible refine Keeps.ite (fun _ => ?_) (fun _ => ?_))

theorem execHalt_keeps {r : IssueRef} {f : Fields} {s : State} : ResKeeps s (execHalt r f s) := by
  unfold execHalt; try dsimp only
  repeat' (first
    | with_reducible exact Keeps.refl _ | with_reducible refine State.modThread_keeps ?_ | with_reducible refine State.doneIf_keeps ?_
    | with_reducible refine issue_keeps (fun _ _ => ?_))

theorem State.restage_keeps {z_ : State} {s : State} {r : IssueRef} {c : CtxRef} {op : DataOp} {f : Fields} {k : Nat} {got : List Byte} (h_ : Keeps z_ s) : Keeps z_ (State.restage s r c op f k got) := by
  refine h_.trans ?_; clear h_
  unfold State.restage; try dsimp only
  repeat' (first
    | with_reducible exact Keeps.refl _ | with_reducible refine State.stageSopen_keeps ?_ | with_reducible refine State.stageCjob_keeps ?_
    | with_reducible refine State.stageSend_keeps ?_ | with_reducible refine State.stageRecv_keeps ?_
    | with_reducible refine State.stageLoad_keeps ?_ | with_reducible refine State.stageStore_keeps ?_
    | with_reducible refine State.stageUpd_keeps ?_ | with_reducible refine State.stageVld_keeps ?_
    | with_reducible refine State.stageVst_keeps ?_ | split)

theorem execCoreDataReplay_keeps {r : IssueRef} {s : State} : ResKeeps s (execCoreDataReplay r s) := by
  unfold execCoreDataReplay; try dsimp only
  repeat' (first
    | with_reducible exact Keeps.refl _ | with_reducible exact ResKeeps.fault _ _ | with_reducible refine ResKeeps.next ?_
    | with_reducible refine State.passSlot_keeps ?_ | with_reducible refine State.restage_keeps ?_ | split)

theorem State.arriveCtx_keeps {z_ : State} {s : State} {c : CtxRef} (h_ : Keeps z_ s) : Keeps z_ (State.arriveCtx s c) := by
  refine h_.trans ?_; clear h_
  unfold State.arriveCtx; try dsimp only
  repeat' (first
    | with_reducible exact Keeps.refl _ | with_reducible refine State.setThs_keeps ?_ | with_reducible refine State.thsTry_keeps ?_
    | with_reducible refine State.setXch_keeps ?_ | with_reducible refine State.scatterAll_keeps ?_
    | with_reducible refine Keeps.forAll ?_ (fun _ _ => ?_) | with_reducible refine Keeps.ite (fun _ => ?_) (fun _ => ?_)
    | (refine State.setCtx_keeps ?_ ?_; rotate_left; exact ⟨fun _ h => h, fun h => Or.inr h⟩))

theorem execTileArrival_keeps {tid : Nat} {s : State} : ResKeeps s (execTileArrival tid s) := by
  unfold execTileArrival; try dsimp only
  repeat' (first
    | with_reducible exact Keeps.refl _ | with_reducible exact ResKeeps.fault _ _ | with_reducible refine ResKeeps.next ?_
    | with_reducible refine State.arriveCtx_keeps ?_ | with_reducible refine Keeps.setTile ?_ (fun h => h) | split)

theorem execComputeOverrun_keeps {c : CtxRef} {s : State} : ResKeeps s (execComputeOverrun c s) := by
  unfold execComputeOverrun; try dsimp only
  repeat' (first
    | with_reducible exact Keeps.refl _ | with_reducible exact ResKeeps.fault _ _ | with_reducible refine ResKeeps.next ?_
    | with_reducible refine State.instantMiss_keeps ?_ | with_reducible refine ResKeeps.ite (fun _ => ?_) (fun _ => ?_))

theorem State.settleDie_keeps {z_ : State} {s : State} {c : CtxRef} {exc : Nat} {d : Nat} (h_ : Keeps z_ s) : Keeps z_ (State.settleDie s c exc d) := by
  refine h_.trans ?_; clear h_
  unfold State.settleDie; try dsimp only
  repeat' (first
    | with_reducible exact Keeps.refl _ | with_reducible refine State.recordMiss_keeps ?_ | with_reducible refine State.addStretch_keeps ?_
    | with_reducible refine Keeps.ite (fun _ => ?_) (fun _ => ?_))

theorem State.settle_keeps {z_ : State} {s : State} {c : CtxRef} {exc : Nat} (h_ : Keeps z_ s) : Keeps z_ (State.settle s c exc) := by
  refine h_.trans ?_; clear h_
  unfold State.settle; try dsimp only
  repeat' (first
    | with_reducible exact Keeps.refl _ | with_reducible refine State.missFault_keeps ?_ | with_reducible refine State.settleDie_keeps ?_
    | with_reducible refine Keeps.forAll ?_ (fun _ _ => ?_) | with_reducible refine Keeps.ite (fun _ => ?_) (fun _ => ?_))

theorem State.countWatch_keeps {z_ : State} {s : State} {c : CtxRef} {d : Nat} (h_ : Keeps z_ s) : Keeps z_ (State.countWatch s c d) := by
  refine h_.trans ?_; clear h_
  unfold State.countWatch; try dsimp only
  repeat' (first | with_reducible exact Keeps.refl _ | with_reducible refine State.setDie_keeps ?_)

theorem State.followMode_keeps {z_ : State} {s : State} {cid : Nat} (h_ : Keeps z_ s) : Keeps z_ (State.followMode s cid) := by
  refine h_.trans ?_; clear h_
  unfold State.followMode; try dsimp only
  repeat' (first | with_reducible exact Keeps.refl _ | with_reducible refine State.orderMode_keeps ?_ | split)

theorem State.nextSuperstep_keeps {z_ : State} {s : State} {c : CtxRef} (h_ : Keeps z_ s) : Keeps z_ (State.nextSuperstep s c) := by
  refine h_.trans ?_; clear h_
  unfold State.nextSuperstep; try dsimp only
  repeat' (first
    | with_reducible exact Keeps.refl _ | with_reducible refine State.setThs_keeps ?_ | with_reducible refine State.setXch_keeps ?_
    | with_reducible refine State.countWatch_keeps ?_ | with_reducible refine State.followMode_keeps ?_
    | with_reducible refine Keeps.forAll ?_ (fun _ _ => ?_)
    | (refine State.setCtx_keeps ?_ ?_; rotate_left; exact ⟨fun _ h => h, fun h => Or.inr h⟩)
    | (refine Keeps.setTile ?_ ?_; rotate_left; exact fun h => h))

theorem execHaltTakesEffect_keeps {c : CtxRef} {s : State} : ResKeeps s (execHaltTakesEffect c s) := by
  unfold execHaltTakesEffect; try dsimp only
  repeat' (first
    | with_reducible exact Keeps.refl _ | with_reducible exact ResKeeps.fault _ _ | with_reducible refine ResKeeps.next ?_
    | with_reducible refine State.replyCode_keeps ?_ | with_reducible refine Keeps.forAll ?_ (fun _ _ => ?_)
    | with_reducible refine ResKeeps.ite (fun _ => ?_) (fun _ => ?_)
    | (refine State.setCtx_keeps ?_ ?_; rotate_left; exact ⟨fun _ h => h, fun h => by cases h⟩))

theorem execWatchStepClose_keeps {die : Nat} {slot : Nat} {s : State} : ResKeeps s (execWatchStepClose die slot s) := by
  unfold execWatchStepClose; try dsimp only
  repeat' (first
    | with_reducible exact Keeps.refl _ | with_reducible exact ResKeeps.fault _ _ | with_reducible refine ResKeeps.next ?_
    | with_reducible refine State.setDie_keeps ?_ | with_reducible refine State.hwSet_keeps ?_ | with_reducible refine State.raise_keeps ?_
    | split)

theorem execExchangeListRead_keeps {tid cyc : Nat} {s : State} : ResKeeps s (execExchangeListRead tid cyc s) := by
  unfold execExchangeListRead
  dsimp only
  refine ResKeeps.ite (fun _ => ResKeeps.fault _ _) (fun _ => ?_)
  split
  · refine ResKeeps.ite (fun _ => ResKeeps.next ?_) (fun _ => ResKeeps.next (Keeps.refl _))
    exact Keeps.setTile (Keeps.upd (Keeps.refl s) rfl rfl rfl rfl rfl rfl rfl rfl rfl rfl) (fun h => h)
  · exact ResKeeps.next (Keeps.refl _)

theorem State.xchRecord_keeps {z_ : State} {s : State} {d : Nat} {w0 : Nat} {w1 : Nat} (h_ : Keeps z_ s) : Keeps z_ (State.xchRecord s d w0 w1) := by
  refine h_.trans ?_; clear h_
  unfold State.xchRecord; try dsimp only
  repeat' (first | with_reducible exact Keeps.refl _ | with_reducible refine State.setDie_keeps ?_)

theorem State.listError_keeps {z_ : State} {s : State} {c : CtxRef} {d : Nat} {tid : Nat} {cause : Nat} {cycle : Nat} (h_ : Keeps z_ s) : Keeps z_ (State.listError s c d tid cause cycle) := by
  refine h_.trans ?_; clear h_
  unfold State.listError; try dsimp only
  repeat' (first | with_reducible exact Keeps.refl _ | with_reducible refine State.raise_keeps ?_ | with_reducible refine State.xchRecord_keeps ?_)

theorem State.checkLists_keeps {z_ : State} {s : State} {c : CtxRef} (h_ : Keeps z_ s) : Keeps z_ (State.checkLists s c) := by
  refine h_.trans ?_; clear h_
  unfold State.checkLists; try dsimp only
  repeat' (first
    | with_reducible exact Keeps.refl _ | with_reducible refine State.faultEvent_keeps ?_ | with_reducible refine State.listError_keeps ?_
    | with_reducible refine Keeps.forAll ?_ (fun _ _ => ?_) | with_reducible refine Keeps.ite (fun _ => ?_) (fun _ => ?_))

theorem execExchangeUnitSend_keeps {tid : Nat} {entry : Nat} {k : Nat} {s : State} : ResKeeps s (execExchangeUnitSend tid entry k s) := by
  unfold execExchangeUnitSend; try dsimp only
  repeat' (first
    | with_reducible exact Keeps.refl _ | with_reducible exact ResKeeps.fault _ _ | with_reducible refine ResKeeps.next ?_
    | (fail_if_no_progress with_reducible refine Keeps.upd ?_ rfl rfl rfl rfl rfl rfl rfl rfl rfl rfl)
    | (refine Keeps.setTile ?_ ?_; rotate_left; exact fun h => h) | split)

theorem State.collide_keeps {z_ : State} {s : State} {f : Flight} {u : LaneUse} {o : Nat} {cycle : Nat} {lane : Nat} (h_ : Keeps z_ s) : Keeps z_ (State.collide s f u o cycle lane) := by
  refine h_.trans ?_; clear h_
  unfold State.collide; try dsimp only
  repeat' (first
    | with_reducible exact Keeps.refl _ | with_reducible refine State.raise_keeps ?_ | with_reducible refine State.faultEvent_keeps ?_
    | with_reducible refine State.xchRecord_keeps ?_
    | (fail_if_no_progress with_reducible refine Keeps.upd ?_ rfl rfl rfl rfl rfl rfl rfl rfl rfl rfl))

theorem State.hop_keeps {z_ : State} {s : State} {f : Flight} (h_ : Keeps z_ s) : Keeps z_ (State.hop s f) := by
  refine h_.trans ?_; clear h_
  unfold State.hop; try dsimp only
  repeat' (first
    | with_reducible exact Keeps.refl _ | with_reducible refine State.collide_keeps ?_
    | (fail_if_no_progress with_reducible refine Keeps.upd ?_ rfl rfl rfl rfl rfl rfl rfl rfl rfl rfl) | split)

theorem execExchangeUnitHop_keeps {u : Nat} {s : State} : ResKeeps s (execExchangeUnitHop u s) := by
  unfold execExchangeUnitHop; try dsimp only
  repeat' (first
    | with_reducible exact Keeps.refl _ | with_reducible refine ResKeeps.next ?_ | with_reducible refine ResKeeps.when (fun _ => ?_)
    | with_reducible refine State.hop_keeps ?_ | split)

theorem State.unitIn_keeps {z_ : State} {s : State} {c : CtxRef} {f : Flight} {t : Nat} (h_ : Keeps z_ s) : Keeps z_ (State.unitIn s c f t) := by
  refine h_.trans ?_; clear h_
  unfold State.unitIn; try dsimp only
  repeat' (first
    | with_reducible exact Keeps.refl _ | with_reducible refine State.sramWrite_keeps ?_ | with_reducible refine State.faultEvent_keeps ?_
    | with_reducible refine State.bankOff_keeps ?_ | with_reducible refine State.listError_keeps ?_
    | (refine Keeps.setTile ?_ ?_; rotate_left; exact fun h => h) | split)

theorem execExchangeUnitArrival_keeps {u : Nat} {s : State} : ResKeeps s (execExchangeUnitArrival u s) := by
  unfold execExchangeUnitArrival; try dsimp only
  repeat' (first
    | with_reducible exact Keeps.refl _ | with_reducible assumption | with_reducible refine ResKeeps.next ?_
    | with_reducible refine State.setXch_keeps ?_ | with_reducible refine State.unitIn_keeps ?_
    | (fail_if_no_progress with_reducible refine Keeps.upd ?_ rfl rfl rfl rfl rfl rfl rfl rfl rfl rfl) | split)

theorem execExchangeUnitMissing_keeps {tid : Nat} {entry : Nat} {k : Nat} {s : State} : ResKeeps s (execExchangeUnitMissing tid entry k s) := by
  unfold execExchangeUnitMissing; try dsimp only
  repeat' (first
    | with_reducible exact Keeps.refl _ | with_reducible exact ResKeeps.fault _ _ | with_reducible refine ResKeeps.next ?_
    | with_reducible refine State.faultEvent_keeps ?_ | with_reducible refine State.listError_keeps ?_
    | with_reducible refine Keeps.setTile ?_ (fun h => h) | split)

theorem State.lateSource_keeps {z_ : State} {s : State} {c : CtxRef} {p : Nat} {ch : Nat} {i : Nat} {q : ChSrc} {first : Bool} (h_ : Keeps z_ s) : Keeps z_ (State.lateSource s c p ch i q first) := by
  refine h_.trans ?_; clear h_
  unfold State.lateSource; try dsimp only
  repeat' (first
    | with_reducible exact Keeps.refl _ | with_reducible refine State.raise_keeps ?_ | with_reducible refine State.faultEvent_keeps ?_
    | with_reducible refine State.setXch_keeps ?_ | with_reducible refine Keeps.ite (fun _ => ?_) (fun _ => ?_))

theorem execReduceDeadline_keeps {port : Nat} {chan : Nat} {s : State} : ResKeeps s (execReduceDeadline port chan s) := by
  unfold execReduceDeadline; try dsimp only
  repeat' (first
    | with_reducible exact Keeps.refl _ | with_reducible exact ResKeeps.fault _ _ | with_reducible refine ResKeeps.next ?_
    | with_reducible refine State.setXch_keeps ?_ | with_reducible refine State.lateSource_keeps ?_
    | with_reducible refine Keeps.forAll ?_ (fun _ _ => ?_) | split)

theorem State.recheckLate_keeps {z_ : State} {s : State} {c : CtxRef} {p : Nat} (h_ : Keeps z_ s) : Keeps z_ (State.recheckLate s c p) := by
  refine h_.trans ?_; clear h_
  unfold State.recheckLate; try dsimp only
  repeat' (first
    | with_reducible exact Keeps.refl _ | with_reducible refine State.lateSource_keeps ?_
    | with_reducible refine Keeps.forAll ?_ (fun _ _ => ?_) | with_reducible refine Keeps.ite (fun _ => ?_) (fun _ => ?_))

theorem State.srcElems_keeps {z_ : State} {s : State} {c : CtxRef} {p : Nat} {ch : Nat} {i : Nat} {u : Nat} {q : ChSrc} (h_ : Keeps z_ s) : Keeps z_ (State.srcElems s c p ch i u q).1 := by
  refine h_.trans ?_; clear h_
  unfold State.srcElems; try dsimp only
  repeat' (first | with_reducible exact Keeps.refl _ | (with_reducible refine Keeps.of_fst (State.vaRead_keeps ?_) (by assumption)) | split)

theorem State.srcsElems_keeps {z_ s : State} {c : CtxRef} {p ch u : Nat} {es : List (Nat × ChSrc)} (h_ : Keeps z_ s) :
    Keeps z_ (s.srcsElems c p ch u es).1 := by
  induction es generalizing s with
  | nil => exact h_
  | cons e es ih =>
    unfold State.srcsElems
    split
    · exact Keeps.of_fst (State.srcElems_keeps h_) (by assumption)
    · split
      · exact Keeps.of_fst (ih (Keeps.of_fst (State.srcElems_keeps h_) (by assumption))) (by assumption)
      · exact Keeps.of_fst (ih (Keeps.of_fst (State.srcElems_keeps h_) (by assumption))) (by assumption)

theorem State.slotFault_keeps {z_ : State} {s : State} {c : CtxRef} {p : Nat} {tag : Nat} (h_ : Keeps z_ s) : Keeps z_ (State.slotFault s c p tag) := by
  refine h_.trans ?_; clear h_
  unfold State.slotFault; try dsimp only
  repeat' (first | with_reducible exact Keeps.refl _ | with_reducible refine State.raise_keeps ?_ | with_reducible refine State.faultEvent_keeps ?_)

theorem State.chanWrite_keeps {z_ : State} {s : State} {c : CtxRef} {p : Nat} {ch : Nat} {u : Nat} {v : List W32} (h_ : Keeps z_ s) : Keeps z_ (State.chanWrite s c p ch u v) := by
  refine h_.trans ?_; clear h_
  unfold State.chanWrite; try dsimp only
  repeat' (first
    | with_reducible exact Keeps.refl _ | with_reducible refine State.vaWrite_keeps ?_ | with_reducible refine State.setXch_keeps ?_
    | with_reducible refine State.slotFault_keeps ?_ | split)

theorem execChannelUnitForm_keeps {port : Nat} {chan : Nat} {unit : Nat} {s : State} : ResKeeps s (execChannelUnitForm port chan unit s) := by
  unfold execChannelUnitForm; try dsimp only
  repeat' (first
    | with_reducible exact Keeps.refl _ | with_reducible exact ResKeeps.fault _ _ | with_reducible refine ResKeeps.next ?_
    | (with_reducible refine Keeps.of_fst (State.srcsElems_keeps ?_) (by assumption)) | with_reducible refine State.slotFault_keeps ?_
    | with_reducible refine State.chanWrite_keeps ?_ | split)

theorem State.tellDead_keeps {z_ : State} {s : State} {c : CtxRef} {p : Nat} {entry : Nat} (h_ : Keeps z_ s) : Keeps z_ (State.tellDead s c p entry) := by
  refine h_.trans ?_; clear h_
  unfold State.tellDead; try dsimp only
  repeat' (first | with_reducible exact Keeps.refl _ | with_reducible refine State.raise_keeps ?_)

theorem State.noteDead_keeps {z_ : State} {s : State} {c : CtxRef} {p : Nat} {entry : Nat} {e : PEnt} (h_ : Keeps z_ s) : Keeps z_ (State.noteDead s c p entry e) := by
  refine h_.trans ?_; clear h_
  unfold State.noteDead; try dsimp only
  repeat' (first
    | with_reducible exact Keeps.refl _ | with_reducible refine State.setXch_keeps ?_ | with_reducible refine State.tellDead_keeps ?_
    | with_reducible refine Keeps.ite (fun _ => ?_) (fun _ => ?_))

theorem State.unmute_keeps {z_ : State} {s : State} {c : CtxRef} {p : Nat} (h_ : Keeps z_ s) : Keeps z_ (State.unmute s c p) := by
  refine h_.trans ?_; clear h_
  unfold State.unmute; try dsimp only
  repeat' (first
    | with_reducible exact Keeps.refl _ | with_reducible refine State.setXch_keeps ?_ | with_reducible refine State.tellDead_keeps ?_
    | with_reducible refine Keeps.forAll ?_ (fun _ _ => ?_))

theorem State.slotDead_keeps {z_ : State} {s : State} {c : CtxRef} {p : Nat} {t : XSlot} (h_ : Keeps z_ s) : Keeps z_ (State.slotDead s c p t) := by
  refine h_.trans ?_; clear h_
  unfold State.slotDead; try dsimp only
  repeat' (first
    | with_reducible exact Keeps.refl _ | with_reducible refine State.faultEvent_keeps ?_ | with_reducible refine State.setXch_keeps ?_
    | with_reducible refine State.recheckLate_keeps ?_ | with_reducible refine State.tellDead_keeps ?_
    | with_reducible refine State.noteDead_keeps ?_ | with_reducible refine State.unmute_keeps ?_
    | with_reducible refine Keeps.ite (fun _ => ?_) (fun _ => ?_))

theorem State.sendDigest_keeps {z_ : State} {s : State} {c : CtxRef} (h_ : Keeps z_ s) : Keeps z_ (State.sendDigest s c) := by
  refine h_.trans ?_; clear h_
  unfold State.sendDigest; try dsimp only
  repeat' (first
    | with_reducible exact Keeps.refl _ | with_reducible refine State.emit_keeps ?_ | with_reducible refine Keeps.forAll ?_ (fun _ _ => ?_)
    | with_reducible refine Keeps.ite (fun _ => ?_) (fun _ => ?_))

theorem execExchangePhaseStart_keeps {c : CtxRef} {s : State} : ResKeeps s (execExchangePhaseStart c s) := by
  unfold execExchangePhaseStart; try dsimp only
  repeat' (first
    | with_reducible exact Keeps.refl _ | with_reducible exact ResKeeps.fault _ _ | with_reducible refine ResKeeps.next ?_
    | with_reducible refine State.setXch_keeps ?_ | with_reducible refine State.checkLists_keeps ?_
    | with_reducible refine State.sendDigest_keeps ?_ | with_reducible refine Keeps.forAll ?_ (fun _ _ => ?_)
    | with_reducible refine ResKeeps.ite (fun _ => ?_) (fun _ => ?_)
    | (refine State.setCtx_keeps ?_ ?_; rotate_left; exact ⟨fun _ h => h, fun h => Or.inr h⟩))

theorem State.countSkipped_keeps {z_ : State} {s : State} {c : CtxRef} (h_ : Keeps z_ s) : Keeps z_ (State.countSkipped s c) := by
  refine h_.trans ?_; clear h_
  unfold State.countSkipped; try dsimp only
  repeat' (first
    | with_reducible exact Keeps.refl _ | with_reducible refine Keeps.ite (fun _ => ?_) (fun _ => ?_)
    | (fail_if_no_progress with_reducible refine Keeps.upd ?_ rfl rfl rfl rfl rfl rfl rfl rfl rfl rfl))

theorem execExchangePhaseEnd_keeps {c : CtxRef} {s : State} : ResKeeps s (execExchangePhaseEnd c s) := by
  unfold execExchangePhaseEnd; try dsimp only
  repeat' (first
    | with_reducible exact Keeps.refl _ | with_reducible exact ResKeeps.fault _ _ | with_reducible refine ResKeeps.next ?_
    | with_reducible refine State.settle_keeps ?_ | with_reducible refine State.nextSuperstep_keeps ?_
    | with_reducible refine State.countSkipped_keeps ?_ | with_reducible refine ResKeeps.ite (fun _ => ?_) (fun _ => ?_))

theorem execTxPrefetch_keeps {port : Nat} {entry : Nat} {s : State} : ResKeeps s (execTxPrefetch port entry s) := by
  unfold execTxPrefetch; try dsimp only
  repeat' (first
    | with_reducible exact Keeps.refl _ | with_reducible exact ResKeeps.fault _ _ | with_reducible refine ResKeeps.next ?_
    | (with_reducible refine Keeps.of_fst (State.vaRead_keeps ?_) (by assumption)) | with_reducible refine State.setXch_keeps ?_
    | with_reducible refine State.slotFault_keeps ?_ | split)

theorem execSlotStart_keeps {port : Nat} {entry : Nat} {s : State} : ResKeeps s (execSlotStart port entry s) := by
  unfold execSlotStart; try dsimp only
  repeat' (first
    | with_reducible exact Keeps.refl _ | with_reducible exact ResKeeps.fault _ _ | with_reducible refine ResKeeps.next ?_
    | with_reducible refine State.setXch_keeps ?_ | with_reducible refine State.slotDead_keeps ?_ | split)

theorem State.slotOverrun_keeps {z_ : State} {s : State} {c : CtxRef} {d : Nat} (h_ : Keeps z_ s) : Keeps z_ (State.slotOverrun s c d) := by
  refine h_.trans ?_; clear h_
  unfold State.slotOverrun; try dsimp only
  repeat' (first
    | with_reducible exact Keeps.refl _ | with_reducible refine Keeps.ite (fun _ => ?_) (fun _ => ?_)
    | (refine State.setCtx_keeps ?_ ?_; rotate_left; exact ⟨fun _ h => h, fun h => Or.inr h⟩))

theorem execSlotSuspend_keeps {port : Nat} {entry : Nat} {s : State} : ResKeeps s (execSlotSuspend port entry s) := by
  unfold execSlotSuspend; try dsimp only
  repeat' (first
    | with_reducible exact Keeps.refl _ | with_reducible exact ResKeeps.fault _ _ | with_reducible refine ResKeeps.next ?_
    | with_reducible refine State.setXch_keeps ?_ | with_reducible refine State.slotOverrun_keeps ?_ | split)

theorem execSlotTail_keeps {port : Nat} {s : State} : ResKeeps s (execSlotTail port s) := by
  unfold execSlotTail; try dsimp only
  repeat' (first
    | with_reducible exact Keeps.refl _ | with_reducible exact ResKeeps.fault _ _ | with_reducible refine ResKeeps.next ?_
    | with_reducible refine ResKeeps.when (fun _ => ?_) | with_reducible refine State.setXch_keeps ?_ | split)

theorem State.setPortLink_keeps {z_ : State} {s : State} {p : Nat} {x : PortLink} (h_ : Keeps z_ s) : Keeps z_ (State.setPortLink s p x) := by
  refine h_.trans ?_; clear h_
  unfold State.setPortLink; try dsimp only
  repeat' (first | with_reducible exact Keeps.refl _ | with_reducible refine State.setPort_keeps ?_)

theorem State.linkEvent_keeps {z_ : State} {s : State} {p : Nat} {src : Nat} (h_ : Keeps z_ s) : Keeps z_ (State.linkEvent s p src) := by
  refine h_.trans ?_; clear h_
  unfold State.linkEvent; try dsimp only
  repeat' (first | with_reducible exact Keeps.refl _ | with_reducible refine State.raise_keeps ?_)

theorem State.portTry_keeps {z_ : State} {s : State} {p : Nat} {retrain : Bool} (h_ : Keeps z_ s) : Keeps z_ (State.portTry s p retrain) := by
  refine h_.trans ?_; clear h_
  unfold State.portTry; try dsimp only
  repeat' (first
    | with_reducible exact Keeps.refl _ | with_reducible refine State.setPortLink_keeps ?_
    | with_reducible refine Keeps.ite (fun _ => ?_) (fun _ => ?_))

theorem State.pairLost_keeps {z_ : State} {s : State} (h_ : Keeps z_ s) : Keeps z_ (State.pairLost s) := by
  refine h_.trans ?_; clear h_
  unfold State.pairLost; try dsimp only
  repeat' (first
    | with_reducible exact Keeps.refl _ | with_reducible refine State.raise_keeps ?_
    | with_reducible refine Keeps.ite (fun _ => ?_) (fun _ => ?_)
    | (fail_if_no_progress with_reducible refine Keeps.upd ?_ rfl rfl rfl rfl rfl rfl rfl rfl rfl rfl))

theorem State.endSlots_keeps {z_ : State} {s : State} {p : Nat} (h_ : Keeps z_ s) : Keeps z_ (State.endSlots s p) := by
  refine h_.trans ?_; clear h_
  unfold State.endSlots; try dsimp only
  repeat' (first
    | with_reducible exact Keeps.refl _ | with_reducible refine State.slotDead_keeps ?_ | with_reducible refine Keeps.forAll ?_ (fun _ _ => ?_)
    | split)

theorem State.portDown_keeps {z_ : State} {s : State} {p : Nat} {cause : Nat} (h_ : Keeps z_ s) : Keeps z_ (State.portDown s p cause) := by
  refine h_.trans ?_; clear h_
  unfold State.portDown; try dsimp only
  repeat' (first
    | with_reducible exact Keeps.refl _ | with_reducible refine State.setPort_keeps ?_ | with_reducible refine State.thsTry_keeps ?_
    | with_reducible refine State.htPortDown_keeps ?_ | with_reducible refine State.linkEvent_keeps ?_
    | with_reducible refine State.pairLost_keeps ?_ | with_reducible refine State.endSlots_keeps ?_
    | with_reducible refine Keeps.forAll ?_ (fun _ _ => ?_) | with_reducible refine Keeps.ite (fun _ => ?_) (fun _ => ?_))

theorem State.portLost_keeps {z_ : State} {s : State} {p : Nat} {cause : Nat} (h_ : Keeps z_ s) : Keeps z_ (State.portLost s p cause) := by
  refine h_.trans ?_; clear h_
  unfold State.portLost; try dsimp only
  repeat' (first | with_reducible exact Keeps.refl _ | with_reducible refine State.portTry_keeps ?_ | with_reducible refine State.portDown_keeps ?_)

theorem execSignalDetect_keeps {port : Nat} {s : State} : ResKeeps s (execSignalDetect port s) := by
  unfold execSignalDetect; try dsimp only
  repeat' (first
    | with_reducible exact Keeps.refl _ | with_reducible exact ResKeeps.fault _ _ | with_reducible refine ResKeeps.when (fun _ => ?_)
    | with_reducible refine State.setPortLink_keeps ?_ | with_reducible refine ResKeeps.ite (fun _ => ?_) (fun _ => ?_))

theorem execTrainingComplete_keeps {port : Nat} {lanes : BitVec 8} {skew : Nat} {s : State} : ResKeeps s (execTrainingComplete port lanes skew s) := by
  unfold execTrainingComplete; try dsimp only
  repeat' (first
    | with_reducible exact Keeps.refl _ | with_reducible exact ResKeeps.fault _ _ | with_reducible refine ResKeeps.next ?_
    | with_reducible refine State.setPortLink_keeps ?_ | with_reducible refine State.portLost_keeps ?_ | split)

theorem execTrainTimeout_keeps {port : Nat} {s : State} : ResKeeps s (execTrainTimeout port s) := by
  unfold execTrainTimeout; try dsimp only
  repeat' (first
    | with_reducible exact Keeps.refl _ | with_reducible exact ResKeeps.fault _ _ | with_reducible refine ResKeeps.when (fun _ => ?_)
    | with_reducible refine State.portLost_keeps ?_ | with_reducible refine ResKeeps.ite (fun _ => ?_) (fun _ => ?_))

theorem State.portUp_keeps {z_ : State} {s : State} {p : Nat} (h_ : Keeps z_ s) : Keeps z_ (State.portUp s p) := by
  refine h_.trans ?_; clear h_
  unfold State.portUp; try dsimp only
  repeat' (first | with_reducible exact Keeps.refl _ | with_reducible refine State.setPort_keeps ?_ | with_reducible refine State.linkEvent_keeps ?_)

theorem execAlignComplete_keeps {port : Nat} {txd : Nat} {rxd : Nat} {cal : BitVec 64} {s : State} : ResKeeps s (execAlignComplete port txd rxd cal s) := by
  unfold execAlignComplete; try dsimp only
  repeat' (first
    | with_reducible exact Keeps.refl _ | with_reducible exact ResKeeps.fault _ _ | with_reducible refine ResKeeps.next ?_
    | with_reducible refine State.emit_keeps ?_ | with_reducible refine State.setPortLink_keeps ?_ | with_reducible refine State.portUp_keeps ?_
    | with_reducible refine ResKeeps.ite (fun _ => ?_) (fun _ => ?_))

theorem execLossOfSignal_keeps {port : Nat} {s : State} : ResKeeps s (execLossOfSignal port s) := by
  unfold execLossOfSignal; try dsimp only
  repeat' (first
    | with_reducible exact Keeps.refl _ | with_reducible exact ResKeeps.fault _ _ | with_reducible refine ResKeeps.when (fun _ => ?_)
    | with_reducible refine State.portLost_keeps ?_ | with_reducible refine ResKeeps.ite (fun _ => ?_) (fun _ => ?_))

theorem execLaneLockLoss_keeps {port : Nat} {lane : Nat} {s : State} : ResKeeps s (execLaneLockLoss port lane s) := by
  unfold execLaneLockLoss; try dsimp only
  repeat' (first
    | with_reducible exact Keeps.refl _ | with_reducible exact ResKeeps.fault _ _ | with_reducible refine ResKeeps.when (fun _ => ?_)
    | with_reducible refine State.portLost_keeps ?_ | with_reducible refine ResKeeps.ite (fun _ => ?_) (fun _ => ?_))

theorem State.goingIn_keeps {z_ : State} {s : State} {port : Nat} {x : W64} (h_ : Keeps z_ s) : Keeps z_ (State.goingIn s port x) := by
  refine h_.trans ?_; clear h_
  unfold State.goingIn; try dsimp only
  repeat' (first
    | with_reducible exact Keeps.refl _ | with_reducible refine State.symErr_keeps ?_ | with_reducible refine State.pairLost_keeps ?_
    | with_reducible refine State.portLost_keeps ?_ | with_reducible refine Keeps.ite (fun _ => ?_) (fun _ => ?_))

theorem execGoingAwayReceive_keeps {port : Nat} {x : BitVec 64} {s : State} : ResKeeps s (execGoingAwayReceive port x s) := by
  unfold execGoingAwayReceive; try dsimp only
  repeat' (first
    | with_reducible exact Keeps.refl _ | with_reducible exact ResKeeps.fault _ _ | with_reducible refine ResKeeps.next ?_
    | with_reducible refine State.goingIn_keeps ?_ | with_reducible refine ResKeeps.ite (fun _ => ?_) (fun _ => ?_))

theorem State.linkCtl_keeps {z_ : State} {s : State} {p : Nat} {v : Nat} {retrain : Bool} (h_ : Keeps z_ s) : Keeps z_ (State.linkCtl s p v retrain) := by
  refine h_.trans ?_; clear h_
  unfold State.linkCtl; try dsimp only
  repeat' (first
    | with_reducible exact Keeps.refl _ | with_reducible refine State.setPortLink_keeps ?_ | with_reducible refine State.portTry_keeps ?_
    | with_reducible refine State.portDown_keeps ?_ | with_reducible refine Keeps.ite (fun _ => ?_) (fun _ => ?_))

theorem execLinkControl_keeps {r : RingRef} {w : CmdWords} {s : State} : ResKeeps s (execLinkControl r w s) := by
  unfold execLinkControl; try dsimp only
  repeat' (first
    | with_reducible exact Keeps.refl _ | with_reducible refine State.replyCode_keeps ?_ | with_reducible refine State.linkCtl_keeps ?_
    | with_reducible refine hostCmd_keeps (fun _ => ?_) | with_reducible refine Keeps.ite (fun _ => ?_) (fun _ => ?_))

theorem execFrameTransmit_keeps {port : Nat} {s : State} : ResKeeps s (execFrameTransmit port s) := by
  unfold execFrameTransmit; try dsimp only
  repeat' (first
    | with_reducible exact Keeps.refl _ | with_reducible exact ResKeeps.fault _ _ | with_reducible refine ResKeeps.next ?_
    | with_reducible refine State.setPort_keeps ?_ | with_reducible refine State.emit_keeps ?_ | split)

theorem State.ackIn_keeps {z_ : State} {s : State} {port : Nat} {x : W64} (h_ : Keeps z_ s) : Keeps z_ (State.ackIn s port x) := by
  refine h_.trans ?_; clear h_
  unfold State.ackIn; try dsimp only
  repeat' (first
    | with_reducible exact Keeps.refl _ | with_reducible refine State.setPort_keeps ?_
    | with_reducible refine Keeps.ite (fun _ => ?_) (fun _ => ?_))

theorem execAckReceive_keeps {port : Nat} {x : BitVec 64} {s : State} : ResKeeps s (execAckReceive port x s) := by
  unfold execAckReceive; try dsimp only
  repeat' (first
    | with_reducible exact Keeps.refl _ | with_reducible exact ResKeeps.fault _ _ | with_reducible refine ResKeeps.next ?_
    | with_reducible refine State.ackIn_keeps ?_ | with_reducible refine ResKeeps.ite (fun _ => ?_) (fun _ => ?_))

theorem State.nakIn_keeps {z_ : State} {s : State} {port : Nat} {x : W64} (h_ : Keeps z_ s) : Keeps z_ (State.nakIn s port x) := by
  refine h_.trans ?_; clear h_
  unfold State.nakIn; try dsimp only
  repeat' (first
    | with_reducible exact Keeps.refl _ | with_reducible refine State.setPort_keeps ?_ | with_reducible refine State.portLost_keeps ?_ | split)

theorem execNakReceive_keeps {port : Nat} {x : BitVec 64} {s : State} : ResKeeps s (execNakReceive port x s) := by
  unfold execNakReceive; try dsimp only
  repeat' (first
    | with_reducible exact Keeps.refl _ | with_reducible exact ResKeeps.fault _ _ | with_reducible refine ResKeeps.next ?_
    | with_reducible refine State.nakIn_keeps ?_ | with_reducible refine ResKeeps.ite (fun _ => ?_) (fun _ => ?_))

theorem execReplayStart_keeps {port : Nat} {s : State} : ResKeeps s (execReplayStart port s) := by
  unfold execReplayStart; try dsimp only
  repeat' (first
    | with_reducible exact Keeps.refl _ | with_reducible exact ResKeeps.fault _ _ | with_reducible refine ResKeeps.next ?_
    | with_reducible refine State.setPort_keeps ?_ | with_reducible refine State.emit_keeps ?_ | split)

theorem execAckSend_keeps {port : Nat} {s : State} : ResKeeps s (execAckSend port s) := by
  unfold execAckSend; try dsimp only
  repeat' (first
    | with_reducible exact Keeps.refl _ | with_reducible exact ResKeeps.fault _ _ | with_reducible refine ResKeeps.next ?_
    | with_reducible refine State.setPort_keeps ?_ | with_reducible refine State.emit_keeps ?_
    | with_reducible refine ResKeeps.ite (fun _ => ?_) (fun _ => ?_))

theorem State.nak_keeps {z_ : State} {s : State} {p : Nat} {q : BitVec 12} (h_ : Keeps z_ s) : Keeps z_ (State.nak s p q) := by
  refine h_.trans ?_; clear h_
  unfold State.nak; try dsimp only
  repeat' (first | with_reducible exact Keeps.refl _ | with_reducible refine State.setPort_keeps ?_ | with_reducible refine State.emit_keeps ?_)

theorem State.nakGap_keeps {z_ : State} {s : State} {p : Nat} {q : BitVec 12} (h_ : Keeps z_ s) : Keeps z_ (State.nakGap s p q) := by
  refine h_.trans ?_; clear h_
  unfold State.nakGap; try dsimp only
  repeat' (first
    | with_reducible exact Keeps.refl _ | with_reducible refine State.nak_keeps ?_ | with_reducible refine Keeps.forAll ?_ (fun _ _ => ?_))

theorem State.gotSeq_keeps {z_ : State} {s : State} {p : Nat} {q : BitVec 12} (h_ : Keeps z_ s) : Keeps z_ (State.gotSeq s p q) := by
  refine h_.trans ?_; clear h_
  unfold State.gotSeq; try dsimp only
  repeat' (first | with_reducible exact Keeps.refl _ | with_reducible refine State.setPort_keeps ?_)

theorem State.ulkDrop_keeps {z_ : State} {s : State} {p : Nat} (h_ : Keeps z_ s) : Keeps z_ (State.ulkDrop s p) := by
  refine h_.trans ?_; clear h_
  unfold State.ulkDrop; try dsimp only
  repeat' (first | with_reducible exact Keeps.refl _ | with_reducible refine State.setPort_keeps ?_)

theorem State.crcErr_keeps {z_ : State} {s : State} {p : Nat} (h_ : Keeps z_ s) : Keeps z_ (State.crcErr s p) := by
  refine h_.trans ?_; clear h_
  unfold State.crcErr; try dsimp only
  repeat' (first | with_reducible exact Keeps.refl _ | with_reducible refine State.setPort_keeps ?_)

theorem State.slotGot_keeps {z_ : State} {s : State} {p : Nat} {t : XSlot} {e : PEnt} {fidx : Nat} (h_ : Keeps z_ s) : Keeps z_ (State.slotGot s p t e fidx) := by
  refine h_.trans ?_; clear h_
  unfold State.slotGot; try dsimp only
  repeat' (first | with_reducible exact Keeps.refl _ | with_reducible refine State.setXch_keeps ?_)

theorem State.winReject_keeps {z_ : State} {s : State} {c : CtxRef} {p : Nat} {i : Nat} {reason : Nat} {va : Nat} (h_ : Keeps z_ s) : Keeps z_ (State.winReject s c p i reason va) := by
  refine h_.trans ?_; clear h_
  unfold State.winReject; try dsimp only
  repeat' (first
    | with_reducible exact Keeps.refl _ | with_reducible refine State.setWin_keeps ?_ | with_reducible refine State.raise_keeps ?_
    | with_reducible refine State.ulkDrop_keeps ?_)

theorem State.landWindow_keeps {z_ : State} {s : State} {c : CtxRef} {p : Nat} {e : PEnt} {x : Frame} (h_ : Keeps z_ s) : Keeps z_ (State.landWindow s c p e x) := by
  refine h_.trans ?_; clear h_
  unfold State.landWindow; try dsimp only
  repeat' (first
    | with_reducible exact Keeps.refl _ | (with_reducible refine Keeps.of_fst (State.vaWrite_keeps ?_) (by assumption))
    | with_reducible refine State.winReject_keeps ?_ | split)

theorem State.vaWrites_keeps {z_ s : State} {d : Nat} {c : CtxRef} {es : List (Nat × List Byte)} (h_ : Keeps z_ s) :
    Keeps z_ (s.vaWrites d c es).1 := by
  induction es generalizing s with
  | nil => exact h_
  | cons e es ih =>
    unfold State.vaWrites
    split
    · exact Keeps.of_fst (State.vaWrite_keeps h_) (by assumption)
    · exact ih (Keeps.of_fst (State.vaWrite_keeps h_) (by assumption))

theorem State.landChannel_keeps {z_ : State} {s : State} {c : CtxRef} {p : Nat} {e : PEnt} {x : Frame} (h_ : Keeps z_ s) : Keeps z_ (State.landChannel s c p e x) := by
  refine h_.trans ?_; clear h_
  unfold State.landChannel; try dsimp only
  repeat' (first
    | with_reducible exact Keeps.refl _ | with_reducible refine State.setXch_keeps ?_ | with_reducible refine State.slotFault_keeps ?_
    | (with_reducible refine Keeps.of_fst (State.vaWrites_keeps ?_) (by assumption)) | with_reducible refine Keeps.forAll ?_ (fun _ _ => ?_)
    | split)

theorem State.landFrame_keeps {z_ : State} {s : State} {c : CtxRef} {p : Nat} {t : XSlot} {e : PEnt} {x : Frame} (h_ : Keeps z_ s) : Keeps z_ (State.landFrame s c p t e x) := by
  refine h_.trans ?_; clear h_
  unfold State.landFrame; try dsimp only
  repeat' (first
    | with_reducible exact Keeps.refl _ | with_reducible refine State.slotGot_keeps ?_ | with_reducible refine State.landWindow_keeps ?_
    | with_reducible refine State.landChannel_keeps ?_ | with_reducible refine Keeps.ite (fun _ => ?_) (fun _ => ?_))

theorem State.keepDigest_keeps {z_ : State} {s : State} {c : CtxRef} {ssn : W32} {ds : List W64} (h_ : Keeps z_ s) : Keeps z_ (State.keepDigest s c ssn ds) := by
  refine h_.trans ?_; clear h_
  unfold State.keepDigest; try dsimp only
  repeat' (first
    | with_reducible exact Keeps.refl _ | with_reducible refine Keeps.ite (fun _ => ?_) (fun _ => ?_)
    | (refine State.setCtx_keeps ?_ ?_; rotate_left; exact ⟨fun _ h => h, fun h => Or.inr h⟩))

theorem State.takeDigest_keeps {z_ : State} {s : State} {c : CtxRef} {x : Frame} (h_ : Keeps z_ s) : Keeps z_ (State.takeDigest s c x) := by
  refine h_.trans ?_; clear h_
  unfold State.takeDigest; try dsimp only
  repeat' (first
    | with_reducible exact Keeps.refl _ | with_reducible refine State.compareDigest_keeps ?_ | with_reducible refine State.keepDigest_keeps ?_
    | with_reducible refine Keeps.ite (fun _ => ?_) (fun _ => ?_))

theorem State.digestIn_keeps {z_ : State} {s : State} {p : Nat} {x : Frame} (h_ : Keeps z_ s) : Keeps z_ (State.digestIn s p x) := by
  refine h_.trans ?_; clear h_
  unfold State.digestIn; try dsimp only
  repeat' (first
    | with_reducible exact Keeps.refl _ | with_reducible refine State.ulkDrop_keeps ?_ | with_reducible refine State.takeDigest_keeps ?_
    | with_reducible refine Keeps.ite (fun _ => ?_) (fun _ => ?_))

theorem execDigestReceive_keeps {port : Nat} {x : Frame} {s : State} : ResKeeps s (execDigestReceive port x s) := by
  unfold execDigestReceive; try dsimp only
  repeat' (first
    | with_reducible exact Keeps.refl _ | with_reducible exact ResKeeps.fault _ _ | with_reducible refine ResKeeps.when (fun _ => ?_)
    | with_reducible refine State.crcErr_keeps ?_ | with_reducible refine State.digestIn_keeps ?_
    | with_reducible refine Keeps.ite (fun _ => ?_) (fun _ => ?_) | with_reducible refine ResKeeps.ite (fun _ => ?_) (fun _ => ?_))

theorem State.takeFrame_keeps {z_ : State} {s : State} {p : Nat} {x : Frame} (h_ : Keeps z_ s) : Keeps z_ (State.takeFrame s p x) := by
  refine h_.trans ?_; clear h_
  unfold State.takeFrame; try dsimp only
  repeat' (first
    | with_reducible exact Keeps.refl _ | with_reducible refine State.setPort_keeps ?_ | with_reducible refine State.nak_keeps ?_
    | with_reducible refine State.nakGap_keeps ?_ | with_reducible refine State.gotSeq_keeps ?_ | with_reducible refine State.ulkDrop_keeps ?_
    | with_reducible refine State.landFrame_keeps ?_ | split)

theorem State.frameIn_keeps {z_ : State} {s : State} {port : Nat} {x : Frame} {uncorr : Bool} (h_ : Keeps z_ s) : Keeps z_ (State.frameIn s port x uncorr) := by
  refine h_.trans ?_; clear h_
  unfold State.frameIn; try dsimp only
  repeat' (first
    | with_reducible exact Keeps.refl _ | with_reducible refine State.touch_keeps ?_ | with_reducible refine State.nak_keeps ?_
    | with_reducible refine State.nakGap_keeps ?_ | with_reducible refine State.crcErr_keeps ?_ | with_reducible refine State.digestIn_keeps ?_
    | with_reducible refine State.takeFrame_keeps ?_ | with_reducible refine Keeps.ite (fun _ => ?_) (fun _ => ?_))

theorem execFrameReceive_keeps {port : Nat} {x : Frame} {uncorr : Bool} {s : State} : ResKeeps s (execFrameReceive port x uncorr s) := by
  unfold execFrameReceive; try dsimp only
  repeat' (first
    | with_reducible exact Keeps.refl _ | with_reducible exact ResKeeps.fault _ _ | with_reducible refine ResKeeps.next ?_
    | with_reducible refine State.frameIn_keeps ?_ | with_reducible refine ResKeeps.ite (fun _ => ?_) (fun _ => ?_))

theorem State.setRx_keeps {z_ : State} {s : State} {p : Nat} {x : PortRx} (h_ : Keeps z_ s) : Keeps z_ (State.setRx s p x) := by
  refine h_.trans ?_; clear h_
  unfold State.setRx; try dsimp only
  repeat' (first | with_reducible exact Keeps.refl _ | with_reducible refine State.setPort_keeps ?_)

theorem State.thsIn_keeps {z_ : State} {s : State} {p : Nat} {a : W64} {okA : Bool} {b : W64} {okB : Bool} (h_ : Keeps z_ s) : Keeps z_ (State.thsIn s p a okA b okB) := by
  refine h_.trans ?_; clear h_
  unfold State.thsIn; try dsimp only
  repeat' (first
    | with_reducible exact Keeps.refl _ | with_reducible refine State.arriveCore_keeps ?_ | with_reducible refine State.completeCore_keeps ?_
    | with_reducible refine Keeps.ite (fun _ => ?_) (fun _ => ?_))

theorem State.flushFirst_keeps {z_ : State} {s : State} {p : Nat} (h_ : Keeps z_ s) : Keeps z_ (State.flushFirst s p) := by
  refine h_.trans ?_; clear h_
  unfold State.flushFirst; try dsimp only
  repeat' (first
    | with_reducible exact Keeps.refl _ | with_reducible refine State.setRx_keeps ?_ | with_reducible refine State.thsIn_keeps ?_ | split)

theorem State.thsCopy_keeps {z_ : State} {s : State} {p : Nat} {w : W64} {ok : Bool} (h_ : Keeps z_ s) : Keeps z_ (State.thsCopy s p w ok) := by
  refine h_.trans ?_; clear h_
  unfold State.thsCopy; try dsimp only
  repeat' (first
    | with_reducible exact Keeps.refl _ | with_reducible refine State.setRx_keeps ?_ | with_reducible refine State.thsIn_keeps ?_
    | with_reducible refine State.flushFirst_keeps ?_ | split)

theorem State.streamWord_keeps {z_ : State} {s : State} {p : Nat} {w : W64} (h_ : Keeps z_ s) : Keeps z_ (State.streamWord s p w) := by
  refine h_.trans ?_; clear h_
  unfold State.streamWord; try dsimp only
  repeat' (first
    | with_reducible exact Keeps.refl _ | with_reducible refine State.frameIn_keeps ?_ | with_reducible refine State.setRx_keeps ?_ | split)

theorem State.subStamps_keeps {z_ : State} {s : State} (h_ : Keeps z_ s) : Keeps z_ (State.subStamps s).1 := by
  refine h_.trans ?_; clear h_
  unfold State.subStamps; try dsimp only
  repeat' (first
    | with_reducible exact Keeps.refl _ | (fail_if_no_progress with_reducible refine Keeps.upd ?_ rfl rfl rfl rfl rfl rfl rfl rfl rfl rfl))

theorem State.hallSym_keeps {z_ : State} {s : State} {p : Nat} {w : W64} (h_ : Keeps z_ s) : Keeps z_ (State.hallSym s p w) := by
  refine h_.trans ?_; clear h_
  unfold State.hallSym; try dsimp only
  repeat' (first
    | with_reducible exact Keeps.refl _ | with_reducible refine State.treeIn_keeps ?_ | with_reducible refine State.tsReqIn_keeps ?_
    | with_reducible refine State.tsRespIn_keeps ?_ | with_reducible refine State.tsFupIn_keeps ?_
    | with_reducible refine State.goingIn_keeps ?_ | with_reducible refine State.subStamps_keeps ?_
    | with_reducible refine Keeps.ite (fun _ => ?_) (fun _ => ?_))

theorem State.goodWord_keeps {z_ : State} {s : State} {p : Nat} {w : W64} (h_ : Keeps z_ s) : Keeps z_ (State.goodWord s p w) := by
  refine h_.trans ?_; clear h_
  unfold State.goodWord; try dsimp only
  repeat' (first
    | with_reducible exact Keeps.refl _ | with_reducible refine State.ackIn_keeps ?_ | with_reducible refine State.nakIn_keeps ?_
    | with_reducible refine State.setRx_keeps ?_ | with_reducible refine State.flushFirst_keeps ?_
    | with_reducible refine State.thsCopy_keeps ?_ | with_reducible refine State.hallSym_keeps ?_
    | with_reducible refine Keeps.ite (fun _ => ?_) (fun _ => ?_))

theorem State.lostWord_keeps {z_ : State} {s : State} {p : Nat} {w : W64} (h_ : Keeps z_ s) : Keeps z_ (State.lostWord s p w) := by
  refine h_.trans ?_; clear h_
  unfold State.lostWord; try dsimp only
  repeat' (first
    | with_reducible exact Keeps.refl _ | with_reducible refine State.setRx_keeps ?_ | with_reducible refine State.flushFirst_keeps ?_
    | with_reducible refine State.thsCopy_keeps ?_ | with_reducible refine Keeps.ite (fun _ => ?_) (fun _ => ?_))

theorem State.takeWord_keeps {z_ : State} {s : State} {p : Nat} {e : Bool × Nat} (h_ : Keeps z_ s) : Keeps z_ (State.takeWord s p e) := by
  refine h_.trans ?_; clear h_
  unfold State.takeWord; try dsimp only
  repeat' (first
    | with_reducible exact Keeps.refl _ | with_reducible refine State.symErr_keeps ?_ | with_reducible refine State.flushFirst_keeps ?_
    | with_reducible refine State.streamWord_keeps ?_ | with_reducible refine State.goodWord_keeps ?_
    | with_reducible refine State.lostWord_keeps ?_ | split)

theorem execBlockReceive_keeps {port : Nat} {x : BitVec 257} {fec : FecRes} {s : State} : ResKeeps s (execBlockReceive port x fec s) := by
  unfold execBlockReceive; try dsimp only
  repeat' (first
    | with_reducible exact Keeps.refl _ | with_reducible exact ResKeeps.fault _ _ | with_reducible refine ResKeeps.next ?_
    | with_reducible refine State.setPort_keeps ?_ | with_reducible refine State.takeWord_keeps ?_
    | with_reducible refine Keeps.forAll ?_ (fun _ _ => ?_) | split)

theorem State.scrubAlloc_keeps {z_ s : State} {c : CtxRef} (h_ : Keeps z_ s) : Keeps z_ (s.scrubAlloc c) :=
  Keeps.hbmW h_ (Memory.wf_filter _)

theorem State.closeWins_keeps {z_ : State} {s : State} {p : Win → Bool} (h_ : Keeps z_ s) : Keeps z_ (State.closeWins s p) := by
  refine h_.trans ?_; clear h_
  unfold State.closeWins; try dsimp only
  repeat' (first
    | with_reducible exact Keeps.refl _ | (fail_if_no_progress with_reducible refine Keeps.upd ?_ rfl rfl rfl rfl rfl rfl rfl rfl rfl rfl))

theorem State.dropRecs_keeps {z_ : State} {s : State} {c : CtxRef} (h_ : Keeps z_ s) : Keeps z_ (State.dropRecs s c) := by
  refine h_.trans ?_; clear h_
  unfold State.dropRecs; try dsimp only
  repeat' (first
    | with_reducible exact Keeps.refl _ | with_reducible refine State.setDie_keeps ?_ | with_reducible refine Keeps.forAll ?_ (fun _ _ => ?_))

theorem State.refillRecs_keeps {z_ : State} {s : State} {c : CtxRef} (h_ : Keeps z_ s) : Keeps z_ (State.refillRecs s c) := by
  refine h_.trans ?_; clear h_
  unfold State.refillRecs; try dsimp only
  repeat' (first
    | with_reducible exact Keeps.refl _ | with_reducible refine State.serveWait_keeps ?_ | with_reducible refine Keeps.forAll ?_ (fun _ _ => ?_)
    | with_reducible refine Keeps.ite (fun _ => ?_) (fun _ => ?_))

theorem State.stopCtx_keeps {z_ : State} {s : State} {c : CtxRef} (h_ : Keeps z_ s) : Keeps z_ (State.stopCtx s c) := by
  refine h_.trans ?_; clear h_
  unfold State.stopCtx; try dsimp only
  repeat' (first
    | with_reducible exact Keeps.refl _ | with_reducible refine State.setXch_keeps ?_ | with_reducible refine State.closeWins_keeps ?_
    | with_reducible refine State.dropRecs_keeps ?_ | with_reducible refine Keeps.forAll ?_ (fun _ _ => ?_))

theorem State.answer_keeps {z_ : State} {s : State} {rs : List RingRef} {code : Nat} (h_ : Keeps z_ s) : Keeps z_ (State.answer s rs code) := by
  refine h_.trans ?_; clear h_
  unfold State.answer; try dsimp only
  repeat' (first
    | with_reducible exact Keeps.refl _ | with_reducible refine State.replyCode_keeps ?_ | with_reducible refine Keeps.forAll ?_ (fun _ _ => ?_))

theorem State.nextEpoch_keeps {z_ : State} {s : State} {c : CtxRef} (h_ : Keeps z_ s) : Keeps z_ (State.nextEpoch s c) := by
  refine h_.trans ?_; clear h_
  unfold State.nextEpoch; try dsimp only
  repeat' (first
    | with_reducible exact Keeps.refl _ | with_reducible refine State.answer_keeps ?_
    | (fail_if_no_progress with_reducible refine Keeps.upd ?_ rfl rfl rfl rfl rfl rfl rfl rfl rfl rfl)
    | (refine State.setCtx_keeps ?_ ?_; rotate_left; exact ⟨fun _ h => h, fun h => Or.inr h⟩))

theorem State.purge_keeps {z_ : State} {s : State} {c : CtxRef} (h_ : Keeps z_ s) : Keeps z_ (State.purge s c) := by
  refine h_.trans ?_; clear h_
  unfold State.purge; try dsimp only
  repeat' (first
    | with_reducible exact Keeps.refl _ | with_reducible refine State.setCluster_keeps ?_
    | with_reducible refine Keeps.forAll ?_ (fun _ _ => ?_) | (refine Keeps.setTile ?_ ?_; rotate_left; exact fun h => h))

theorem State.beginRemoval_keeps {z_ : State} {s : State} {c : CtxRef} {td : Td} (h_ : Keeps z_ s) : Keeps z_ (State.beginRemoval s c td) := by
  refine h_.trans ?_; clear h_
  unfold State.beginRemoval; try dsimp only
  repeat' (first
    | with_reducible exact Keeps.refl _ | with_reducible refine State.refillRecs_keeps ?_ | with_reducible refine State.stopCtx_keeps ?_
    | with_reducible refine State.nextEpoch_keeps ?_ | with_reducible refine State.purge_keeps ?_
    | (refine State.setCtx_keeps ?_ ?_; rotate_left; exact ⟨fun _ h => h, fun h => by cases h⟩))

theorem State.wipeCtx_keeps {z_ s : State} {c : CtxRef} {h : BitVec 16} {keepRoot : Bool} (h_ : Keeps z_ s) :
    Keeps z_ (s.wipeCtx c h keepRoot) := by
  refine h_.trans ?_
  unfold State.wipeCtx
  dsimp only
  refine Keeps.forAll (Keeps.forAll (Keeps.forAll (Keeps.forAll ?_ (fun _ _ => ?_)) (fun _ _ => ?_)) (fun _ _ => ?_)) (fun _ _ => ?_)
  · exact State.setCtx_keeps (Keeps.refl _) ⟨fun _ h => h, fun h => Or.inr h⟩
  · exact Keeps.setTile (Keeps.refl _) (fun _ => rfl)
  · exact State.setCluster_keeps (Keeps.refl _)
  · exact State.setXch_keeps (Keeps.refl _)
  · exact State.setDie_keeps (Keeps.refl _)

theorem State.finishSample_keeps {z_ : State} {s : State} {c : CtxRef} (h_ : Keeps z_ s) : Keeps z_ (State.finishSample s c) := by
  refine h_.trans ?_; clear h_
  unfold State.finishSample; try dsimp only
  repeat' (first
    | with_reducible exact Keeps.refl _ | with_reducible refine State.replyTo_keeps ?_ | with_reducible refine State.sampleDie_keeps ?_
    | with_reducible refine Keeps.forAll ?_ (fun _ _ => ?_)
    | (refine State.setCtx_keeps ?_ ?_; rotate_left; exact ⟨fun _ h => h, fun h => Or.inr h⟩) | split)

theorem State.removeCtx_keeps {z_ : State} {s : State} {c : CtxRef} {kind : TdKind} {owner : Option RingRef} (h_ : Keeps z_ s) : Keeps z_ (State.removeCtx s c kind owner) := by
  refine h_.trans ?_; clear h_
  unfold State.removeCtx; try dsimp only
  repeat' (first
    | with_reducible exact Keeps.refl _ | with_reducible refine State.beginRemoval_keeps ?_ | with_reducible refine State.finishSample_keeps ?_
    | (fail_if_no_progress with_reducible refine Keeps.upd ?_ rfl rfl rfl rfl rfl rfl rfl rfl rfl rfl))

theorem execCtxTeardown_keeps {r : RingRef} {w : CmdWords} {s : State} : ResKeeps s (execCtxTeardown r w s) := by
  unfold execCtxTeardown; try dsimp only
  repeat' (first
    | with_reducible exact Keeps.refl _ | with_reducible refine State.removeCtx_keeps ?_
    | with_reducible refine hostCtxCmd_keeps (fun _ _ => ?_))

theorem execCtxReset_keeps {r : RingRef} {w : CmdWords} {s : State} : ResKeeps s (execCtxReset r w s) := by
  unfold execCtxReset; try dsimp only
  repeat' (first
    | with_reducible exact Keeps.refl _ | with_reducible refine State.removeCtx_keeps ?_
    | with_reducible refine hostCtxCmd_keeps (fun _ _ => ?_))

theorem State.endL0_keeps {z_ : State} {s : State} {c : CtxRef} (h_ : Keeps z_ s) : Keeps z_ (State.endL0 s c) := by
  refine h_.trans ?_; clear h_
  unfold State.endL0; try dsimp only
  repeat' (first
    | with_reducible exact Keeps.refl _ | (fail_if_no_progress with_reducible refine Keeps.upd ?_ rfl rfl rfl rfl rfl rfl rfl rfl rfl rfl))

theorem State.nextFlr_keeps {z_ : State} {s : State} {p : Nat} (h_ : Keeps z_ s) : Keeps z_ (State.nextFlr s p) := by
  refine h_.trans ?_; clear h_
  unfold State.nextFlr; try dsimp only
  repeat' (first | with_reducible exact Keeps.refl _ | with_reducible refine State.removeCtx_keeps ?_ | split)

theorem execDrainComplete_keeps {c : CtxRef} {s : State} : ResKeeps s (execDrainComplete c s) := by
  unfold execDrainComplete; try dsimp only
  repeat' (first
    | with_reducible exact Keeps.refl _ | with_reducible exact ResKeeps.fault _ _ | with_reducible refine ResKeeps.next ?_
    | with_reducible refine State.replyTo_keeps ?_ | with_reducible refine State.wipeCtx_keeps ?_ | with_reducible refine State.endL0_keeps ?_
    | with_reducible refine State.nextFlr_keeps ?_ | with_reducible refine ResKeeps.awake ?_
    | (refine State.setCtx_keeps ?_ ?_; rotate_left; exact ⟨fun _ h => h, fun h => Or.inr h⟩)
    | (refine State.setCtx_keeps ?_ ?_; rotate_left; exact ⟨fun _ h => h, fun h => by cases h⟩) | split)

theorem execScrubComplete_keeps {c : CtxRef} {s : State} : ResKeeps s (execScrubComplete c s) := by
  unfold execScrubComplete
  dsimp only
  refine ResKeeps.ite (fun _ => ResKeeps.fault _ _) (fun _ => ResKeeps.awake ?_)
  split
  · exact ResKeeps.next (Keeps.refl _)
  · refine ResKeeps.ite (fun _ => ResKeeps.next (State.nextFlr_keeps (State.replyTo_keeps (State.setCtx_keeps (State.scrubAlloc_keeps (Keeps.refl _)) ?_))))
      (fun _ => ResKeeps.next (Keeps.refl _))
    exact ⟨fun i h => absurd h (by simp), fun _ => Or.inl rfl⟩

end Sys2Proof.Machine
end

