-- ==== Sys2Proof/Laws/KeepsHost.lean ====
section
/-!
SUPPORT. `Keeps` for host commands, the event controllers, resets, power and the register spaces.
-/

namespace Sys2Proof.Machine

theorem State.doorbell_keeps {z_ : State} {s : State} {r : RingRef} {t : Nat} (h_ : Keeps z_ s) : Keeps z_ (State.doorbell s r t) := by
  refine h_.trans ?_; clear h_
  unfold State.doorbell; try dsimp only
  repeat' (first
    | with_reducible exact Keeps.refl _ | with_reducible refine State.setFn_keeps ?_ | with_reducible refine State.setRing_keeps ?_
    | with_reducible refine Keeps.ite (fun _ => ?_) (fun _ => ?_))

theorem execDoorbell_keeps {r : RingRef} {v : W32} {s : State} : ResKeeps s (execDoorbell r v s) := by
  unfold execDoorbell; try dsimp only
  repeat' (first
    | with_reducible exact Keeps.refl _ | with_reducible exact ResKeeps.fault _ _ | with_reducible refine ResKeeps.when (fun _ => ?_)
    | with_reducible refine State.doorbell_keeps ?_ | with_reducible refine ResKeeps.ite (fun _ => ?_) (fun _ => ?_))

theorem State.writeRctl_keeps {z_ : State} {s : State} {r : RingRef} {v : Nat} (h_ : Keeps z_ s) : Keeps z_ (State.writeRctl s r v) := by
  refine h_.trans ?_; clear h_
  unfold State.writeRctl; try dsimp only
  repeat' (first | with_reducible exact Keeps.refl _ | with_reducible refine State.setFn_keeps ?_ | with_reducible refine State.setRing_keeps ?_)

theorem execRingEnable_keeps {r : RingRef} {v : W32} {s : State} : ResKeeps s (execRingEnable r v s) := by
  unfold execRingEnable; try dsimp only
  repeat' (first
    | with_reducible exact Keeps.refl _ | with_reducible exact ResKeeps.fault _ _ | with_reducible refine ResKeeps.when (fun _ => ?_)
    | with_reducible refine State.writeRctl_keeps ?_ | with_reducible refine ResKeeps.ite (fun _ => ?_) (fun _ => ?_))

theorem execRingDisable_keeps {r : RingRef} {v : W32} {s : State} : ResKeeps s (execRingDisable r v s) := by
  unfold execRingDisable; try dsimp only
  repeat' (first
    | with_reducible exact Keeps.refl _ | with_reducible exact ResKeeps.fault _ _ | with_reducible refine ResKeeps.when (fun _ => ?_)
    | with_reducible refine State.writeRctl_keeps ?_ | with_reducible refine ResKeeps.ite (fun _ => ?_) (fun _ => ?_))

theorem execNopCommand_keeps {r : RingRef} {w : CmdWords} {s : State} : ResKeeps s (execNopCommand r w s) := by
  unfold execNopCommand; try dsimp only
  repeat' (first
    | with_reducible exact Keeps.refl _ | with_reducible exact ResKeeps.fault _ _ | with_reducible refine ResKeeps.when (fun _ => ?_)
    | with_reducible refine State.replyCode_keeps ?_ | with_reducible refine State.take_keeps ?_
    | with_reducible refine hostCmd_keeps (fun _ => ?_) | with_reducible refine ResKeeps.ite (fun _ => ?_) (fun _ => ?_))

theorem execIdentify_keeps {r : RingRef} {w : CmdWords} {s : State} : ResKeeps s (execIdentify r w s) := by
  unfold execIdentify; try dsimp only
  repeat' (first | with_reducible exact Keeps.refl _ | with_reducible refine State.reply_keeps ?_ | with_reducible refine hostCmd_keeps (fun _ => ?_))

theorem execConfigApply_keeps {r : RingRef} {w : CmdWords} {s : State} : ResKeeps s (execConfigApply r w s) := by
  unfold execConfigApply; try dsimp only
  repeat' (first
    | with_reducible exact Keeps.refl _ | with_reducible refine State.reply_keeps ?_ | with_reducible refine State.replyCode_keeps ?_
    | with_reducible refine hostCmd_keeps (fun _ => ?_)
    | (fail_if_no_progress with_reducible refine Keeps.upd ?_ rfl rfl rfl rfl rfl rfl rfl rfl rfl rfl) | split)

theorem State.latchConfig_keeps {z_ : State} {s : State} (h_ : Keeps z_ s) : Keeps z_ (State.latchConfig s) := by
  refine h_.trans ?_; clear h_
  unfold State.latchConfig; try dsimp only
  repeat' (first
    | with_reducible exact Keeps.refl _ | with_reducible refine State.setFn_keeps ?_ | with_reducible refine Keeps.forAll ?_ (fun _ _ => ?_))

theorem State.configDown_keeps {z_ : State} {s : State} (h_ : Keeps z_ s) : Keeps z_ (State.configDown s) := by
  refine h_.trans ?_; clear h_
  unfold State.configDown; try dsimp only
  repeat' (first
    | with_reducible exact Keeps.refl _ | with_reducible refine State.setPortLink_keeps ?_ | with_reducible refine State.portDown_keeps ?_
    | with_reducible refine Keeps.forAll ?_ (fun _ _ => ?_))

theorem State.setMaster_keeps {z_ : State} {s : State} {c : Cfg} (h_ : Keeps z_ s) : Keeps z_ (State.setMaster s c) := by
  refine h_.trans ?_; clear h_
  unfold State.setMaster; try dsimp only
  repeat' (first
    | with_reducible exact Keeps.refl _ | with_reducible refine State.setHt_keeps ?_ | with_reducible refine State.parentLost_keeps ?_
    | with_reducible refine Keeps.ite (fun _ => ?_) (fun _ => ?_))

theorem State.setMode_keeps {z_ : State} {s : State} {env : Bool} (h_ : Keeps z_ s) : Keeps z_ (State.setMode s env) := by
  refine h_.trans ?_; clear h_
  unfold State.setMode; try dsimp only
  repeat' (first
    | with_reducible exact Keeps.refl _ | with_reducible refine State.orderMode_keeps ?_ | with_reducible refine Keeps.forAll ?_ (fun _ _ => ?_)
    | (fail_if_no_progress with_reducible refine Keeps.upd ?_ rfl rfl rfl rfl rfl rfl rfl rfl rfl rfl))

theorem State.applyConfig_keeps {z_ : State} {s : State} {img : List Byte} (h_ : Keeps z_ s) : Keeps z_ (State.applyConfig s img) := by
  refine h_.trans ?_; clear h_
  unfold State.applyConfig; try dsimp only
  repeat' (first
    | with_reducible exact Keeps.refl _ | with_reducible refine State.setPortLink_keeps ?_ | with_reducible refine State.portTry_keeps ?_
    | with_reducible refine State.latchConfig_keeps ?_ | with_reducible refine State.configDown_keeps ?_
    | with_reducible refine State.setMaster_keeps ?_ | with_reducible refine State.setMode_keeps ?_
    | with_reducible refine Keeps.forAll ?_ (fun _ _ => ?_)
    | (fail_if_no_progress with_reducible refine Keeps.upd ?_ rfl rfl rfl rfl rfl rfl rfl rfl rfl rfl))

theorem execConfigApplyComplete_keeps {s : State} : ResKeeps s (execConfigApplyComplete s) := by
  unfold execConfigApplyComplete; try dsimp only
  repeat' (first
    | with_reducible exact Keeps.refl _ | with_reducible refine ResKeeps.next ?_ | with_reducible refine State.replyTo_keeps ?_
    | with_reducible refine State.applyConfig_keeps ?_ | with_reducible refine ResKeeps.awake ?_
    | (fail_if_no_progress with_reducible refine Keeps.upd ?_ rfl rfl rfl rfl rfl rfl rfl rfl rfl rfl) | split)

theorem execConfigRead_keeps {r : RingRef} {w : CmdWords} {s : State} : ResKeeps s (execConfigRead r w s) := by
  unfold execConfigRead; try dsimp only
  repeat' (first
    | with_reducible exact Keeps.refl _ | with_reducible refine State.replyCode_keeps ?_ | with_reducible refine hostCmd_keeps (fun _ => ?_)
    | with_reducible refine Keeps.hostW ?_ (Memory.wf_mwrite _ _) | split)

theorem State.setRoot_keeps {z_ : State} {s : State} {c : CtxRef} {v : W64} (h_ : Keeps z_ s) : Keeps z_ (State.setRoot s c v) := by
  refine h_.trans ?_; clear h_
  unfold State.setRoot; try dsimp only
  repeat' (first
    | with_reducible exact Keeps.refl _ | with_reducible refine State.setDie_keeps ?_ | with_reducible refine Keeps.forAll ?_ (fun _ _ => ?_))

theorem State.releaseHdr_keeps {z_ : State} {s : State} {c : CtxRef} (h_ : Keeps z_ s) : Keeps z_ (State.releaseHdr s c) := by
  refine h_.trans ?_; clear h_
  unfold State.releaseHdr; try dsimp only
  repeat' (first
    | with_reducible exact Keeps.refl _ | with_reducible refine State.setDie_keeps ?_ | with_reducible refine Keeps.forAll ?_ (fun _ _ => ?_)
    | (refine State.setCtx_keeps ?_ ?_; rotate_left; exact ⟨fun _ h => h, fun h => Or.inr h⟩))

theorem State.assignHdr_keeps {z_ : State} {s : State} {c : CtxRef} {h : Hdr} (h_ : Keeps z_ s) : Keeps z_ (State.assignHdr s c h) := by
  refine h_.trans ?_; clear h_
  unfold State.assignHdr; try dsimp only
  repeat' (first
    | with_reducible exact Keeps.refl _ | with_reducible refine State.setDie_keeps ?_ | with_reducible refine Keeps.forAll ?_ (fun _ _ => ?_))

theorem State.loadHdr_keeps {z_ : State} {s : State} {c : CtxRef} {b : List Byte} (h_ : Keeps z_ s) : Keeps z_ (State.loadHdr s c b) := by
  refine h_.trans ?_; clear h_
  unfold State.loadHdr; try dsimp only
  repeat' (first
    | with_reducible exact Keeps.refl _ | with_reducible refine State.releaseHdr_keeps ?_ | with_reducible refine State.assignHdr_keeps ?_
    | (refine State.setCtx_keeps ?_ ?_; rotate_left; exact ⟨fun _ h => h, fun h => Or.inr h⟩))

theorem State.putTile_keeps {z_ : State} {s : State} {c : CtxRef} {t : Nat} {a : Nat} {bs : List Byte} (h_ : Keeps z_ s) : Keeps z_ (State.putTile s c t a bs) := by
  refine h_.trans ?_; clear h_
  unfold State.putTile; try dsimp only
  repeat' (first
    | with_reducible exact Keeps.refl _ | with_reducible refine State.sramWrite_keeps ?_ | with_reducible refine State.bankOff_keeps ?_
    | with_reducible refine Keeps.forAll ?_ (fun _ _ => ?_) | with_reducible refine Keeps.ite (fun _ => ?_) (fun _ => ?_))

theorem State.putTiles_keeps {z_ : State} {s : State} {c : CtxRef} {ts : List Nat} {a : Nat} {bs : List Byte} (h_ : Keeps z_ s) : Keeps z_ (State.putTiles s c ts a bs) := by
  refine h_.trans ?_; clear h_
  unfold State.putTiles; try dsimp only
  repeat' (first
    | with_reducible exact Keeps.refl _ | with_reducible refine State.putTile_keeps ?_ | with_reducible refine Keeps.forAll ?_ (fun _ _ => ?_))

theorem State.loadTile_keeps {z_ t_ s : State} {c : CtxRef} {h : Hdr} {q : LoadCmd} {body : List Byte} (h_ : Keeps z_ s)
    (e_ : s.loadTile c h q body = .ok t_) : Keeps z_ t_ := by
  unfold State.loadTile at e_
  dsimp only at e_
  split at e_
  · cases e_
    exact State.putTiles_keeps h_
  · cases e_

theorem State.loadHbm_keeps {z_ t_ s : State} {c : CtxRef} {q : LoadCmd} {body : List Byte} (h_ : Keeps z_ s)
    (e_ : s.loadHbm c q body = .ok t_) : Keeps z_ t_ := by
  unfold State.loadHbm at e_
  split at e_
  · cases e_
    exact Keeps.of_fst (State.vaWrite_keeps h_) (by assumption)
  · cases e_

theorem State.loadTable_keeps {z_ t_ s : State} {c : CtxRef} {h : Hdr} {body : List Byte} (h_ : Keeps z_ s)
    (e_ : s.loadTable c h body = .ok t_) : Keeps z_ t_ := by
  unfold State.loadTable at e_
  dsimp only at e_
  split at e_
  · cases e_
  · cases e_
    exact State.setCtx_keeps h_ ⟨fun _ h => h, fun h => Or.inr h⟩

theorem State.loadReloc_keeps {z_ t_ s : State} {c : CtxRef} {body : List Byte} (h_ : Keeps z_ s)
    (e_ : s.loadReloc c body = .ok t_) : Keeps z_ t_ := by
  unfold State.loadReloc at e_
  dsimp only at e_
  split at e_
  · cases e_
  · cases e_
    exact State.setCtx_keeps h_ ⟨fun _ h => h, fun h => Or.inr h⟩

theorem State.loadBody_keeps {z_ t_ s : State} {c : CtxRef} {q : LoadCmd} {body : List Byte} (h_ : Keeps z_ s)
    (e_ : s.loadBody c q body = .ok t_) : Keeps z_ t_ := by
  unfold State.loadBody at e_
  split at e_
  · split at e_
    · cases e_
    · dsimp only at e_
      split at e_
      · cases e_
        exact State.loadHdr_keeps h_
      · cases e_
  · split at e_
    · cases e_
    · split at e_
      · exact State.loadTile_keeps h_ e_
      · split at e_
        · exact State.loadHbm_keeps h_ e_
        · split at e_
          · exact State.loadReloc_keeps h_ e_
          · exact State.loadTable_keeps h_ e_

theorem Ctx.afterLoad_free (x : Ctx) (h : x.afterLoad.st = .free) : x.st = .free := by
  unfold Ctx.afterLoad at h
  dsimp only at h
  split at h
  all_goals first | assumption | cases h

theorem execLoadSegment_keeps {r : RingRef} {w : CmdWords} {s : State} : ResKeeps s (execLoadSegment r w s) := by
  unfold execLoadSegment
  refine hostCtxCmd_keeps (fun y c => ?_)
  split
  · exact State.replyCode_keeps (Keeps.refl _)
  · dsimp only
    refine Keeps.ite (fun _ => State.replyCode_keeps (Keeps.refl _)) (fun _ => ?_)
    split
    · exact State.replyCode_keeps (Keeps.refl _)
    · split
      · exact State.replyCode_keeps (Keeps.refl _)
      · refine State.replyCode_keeps (State.setCtx_keeps (State.loadBody_keeps (Keeps.refl _) (by assumption)) ?_)
        exact ⟨fun _ h => h, fun h => Or.inr (Ctx.afterLoad_free _ h)⟩

theorem State.applyRel_keeps {z_ t_ s : State} {c : CtxRef} {r : RelRec} {v : W64} (h_ : Keeps z_ s)
    (e_ : s.applyRel c r v = .ok t_) : Keeps z_ t_ := by
  unfold State.applyRel at e_
  dsimp only at e_
  split at e_
  · cases e_
    exact Keeps.forAll h_ (fun _ _ => State.putTile_keeps (Keeps.refl _))
  · split at e_
    · split at e_
      · cases e_
      · cases e_
        exact Keeps.hbmW (Keeps.of_fst (State.translateAll_keeps h_) (by assumption)) (Memory.wf_hbmPut _)
    · cases e_
      exact State.setCtx_keeps h_ ⟨fun _ h => h, fun h => Or.inr h⟩

theorem State.relocateAll_keeps {z_ s : State} {c : CtxRef} {rs : List RelRec} (h_ : Keeps z_ s) :
    Keeps z_ (s.relocateAll c rs).1 := by
  induction rs generalizing s with
  | nil => exact h_
  | cons r rs ih =>
    unfold State.relocateAll
    split
    · exact ih h_
    · split
      · exact h_
      · exact ih (State.applyRel_keeps h_ (by assumption))

theorem execRelocate_keeps {r : RingRef} {w : CmdWords} {s : State} : ResKeeps s (execRelocate r w s) := by
  unfold execRelocate; try dsimp only
  repeat' (first
    | with_reducible exact Keeps.refl _ | with_reducible refine State.reply_keeps ?_ | with_reducible refine State.replyCode_keeps ?_
    | (with_reducible refine Keeps.of_fst (State.relocateAll_keeps ?_) (by assumption)) | with_reducible refine hostCtxCmd_keeps (fun _ _ => ?_)
    | (refine State.setCtx_keeps ?_ ?_; rotate_left; exact ⟨fun _ h => h, fun h => Or.inr h⟩) | split)

theorem execPatch_keeps {r : RingRef} {w : CmdWords} {s : State} : ResKeeps s (execPatch r w s) := by
  unfold execPatch; try dsimp only
  repeat' (first
    | with_reducible exact Keeps.refl _ | (with_reducible refine Keeps.of_fst (State.vaWrite_keeps ?_) (by assumption))
    | with_reducible refine State.reply_keeps ?_ | with_reducible refine State.replyCode_keeps ?_
    | with_reducible refine State.putTiles_keeps ?_ | with_reducible refine hostCtxCmd_keeps (fun _ _ => ?_) | split)

theorem State.rangesOk_keeps {z_ s : State} {c : CtxRef} {wr : Bool} {rs : List (Nat × Nat)} (h_ : Keeps z_ s) :
    Keeps z_ (s.rangesOk c wr rs).1 := by
  induction rs generalizing s with
  | nil => exact h_
  | cons r rs ih =>
    unfold State.rangesOk
    split
    · exact Keeps.of_fst (State.translateAll_keeps h_) (by assumption)
    · exact ih (Keeps.of_fst (State.translateAll_keeps h_) (by assumption))

theorem State.loaderCheck_keeps {z_ : State} {s : State} {c : CtxRef} (h_ : Keeps z_ s) : Keeps z_ (State.loaderCheck s c).1 := by
  refine h_.trans ?_; clear h_
  unfold State.loaderCheck; try dsimp only
  repeat' (first | with_reducible exact Keeps.refl _ | with_reducible refine State.rangesOk_keeps ?_ | split)

theorem State.startCheck_keeps {z_ : State} {s : State} {c : CtxRef} {h : Hdr} (h_ : Keeps z_ s) : Keeps z_ (State.startCheck s c h).1 := by
  refine h_.trans ?_; clear h_
  unfold State.startCheck; try dsimp only
  repeat' (first | with_reducible exact Keeps.refl _ | (with_reducible refine Keeps.of_fst (State.loaderCheck_keeps ?_) (by assumption)) | split)

theorem State.writeTbl_keeps {z_ : State} {s : State} {c : CtxRef} {r : TblRec} (h_ : Keeps z_ s) : Keeps z_ (State.writeTbl s c r) := by
  refine h_.trans ?_; clear h_
  unfold State.writeTbl; try dsimp only
  repeat' (first
    | with_reducible exact Keeps.refl _ | with_reducible refine State.setCluster_keeps ?_ | with_reducible refine State.setDie_keeps ?_
    | with_reducible refine State.setChk_keeps ?_ | with_reducible refine State.setLink_keeps ?_ | with_reducible refine State.setThs_keeps ?_
    | split)

theorem State.demandCtx_keeps {z_ : State} {s : State} {c : CtxRef} (h_ : Keeps z_ s) : Keeps z_ (State.demandCtx s c) := by
  refine h_.trans ?_; clear h_
  unfold State.demandCtx; try dsimp only
  repeat' (first
    | with_reducible exact Keeps.refl _ | with_reducible refine State.demand_keeps ?_ | with_reducible refine Keeps.forAll ?_ (fun _ _ => ?_)
    | with_reducible refine Keeps.ite (fun _ => ?_) (fun _ => ?_))

theorem State.startCtx_keeps {z_ : State} {s : State} {c : CtxRef} {h : Hdr} (h_ : Keeps z_ s) : Keeps z_ (State.startCtx s c h) := by
  refine h_.trans ?_; clear h_
  unfold State.startCtx; try dsimp only
  repeat' (first
    | with_reducible exact Keeps.refl _ | with_reducible refine State.setCluster_keeps ?_ | with_reducible refine State.setDie_keeps ?_
    | with_reducible refine State.setThs_keeps ?_ | with_reducible refine State.setXch_keeps ?_ | with_reducible refine State.doneIf_keeps ?_
    | with_reducible refine State.writeTbl_keeps ?_ | with_reducible refine State.demandCtx_keeps ?_
    | with_reducible refine Keeps.forAll ?_ (fun _ _ => ?_) | with_reducible refine Keeps.ite (fun _ => ?_) (fun _ => ?_)
    | (refine State.setCtx_keeps ?_ ?_; rotate_left; exact ⟨fun _ h => h, fun h => by cases h⟩)
    | (refine Keeps.setTile ?_ ?_; rotate_left; exact fun h => h))

theorem execStart_keeps {r : RingRef} {w : CmdWords} {s : State} : ResKeeps s (execStart r w s) := by
  unfold execStart; try dsimp only
  repeat' (first
    | with_reducible exact Keeps.refl _ | with_reducible refine State.replyCode_keeps ?_
    | (with_reducible refine Keeps.of_fst (State.startCheck_keeps ?_) (by assumption)) | with_reducible refine State.startCtx_keeps ?_
    | with_reducible refine hostCtxCmd_keeps (fun _ _ => ?_) | split)

theorem execHaltCommand_keeps {r : RingRef} {w : CmdWords} {s : State} : ResKeeps s (execHaltCommand r w s) := by
  unfold execHaltCommand; try dsimp only
  repeat' (first
    | with_reducible exact Keeps.refl _ | with_reducible refine State.replyCode_keeps ?_
    | with_reducible refine hostCtxCmd_keeps (fun _ _ => ?_)
    | (refine State.setCtx_keeps ?_ ?_; rotate_left; exact ⟨fun _ h => h, fun h => Or.inr h⟩) | split)

theorem execResume_keeps {r : RingRef} {w : CmdWords} {s : State} : ResKeeps s (execResume r w s) := by
  unfold execResume; try dsimp only
  repeat' (first
    | with_reducible exact Keeps.refl _ | with_reducible refine State.replyCode_keeps ?_ | with_reducible refine State.demandCtx_keeps ?_
    | with_reducible refine hostCtxCmd_keeps (fun _ _ => ?_)
    | (refine State.setCtx_keeps ?_ ?_; rotate_left; exact ⟨fun _ h => h, fun h => by cases h⟩) | split)

theorem execDmaHost_keeps {r : RingRef} {w : CmdWords} {s : State} : ResKeeps s (execDmaHost r w s) := by
  unfold execDmaHost; try dsimp only
  repeat' (first
    | with_reducible exact Keeps.refl _ | with_reducible refine State.replyCode_keeps ?_ | with_reducible refine hostCmd_keeps (fun _ => ?_)
    | split)

theorem State.dmaPlaces_keeps {z_ : State} {s : State} {p : Nat} {c : Option CtxRef} {wr : Bool} {a : Nat} (h_ : Keeps z_ s) : Keeps z_ (State.dmaPlaces s p c wr a).1 := by
  refine h_.trans ?_; clear h_
  unfold State.dmaPlaces; try dsimp only
  repeat' (first | with_reducible exact Keeps.refl _ | with_reducible refine State.translateAll_keeps ?_ | split)

theorem State.dmaMove_keeps {z_ s : State} {p : Nat} {c : Option CtxRef} {toHost : Bool} {h a n : Nat} (h_ : Keeps z_ s) :
    Keeps z_ (s.dmaMove p c toHost h a n).1 := by
  induction n generalizing s h a with
  | zero => exact h_
  | succ n ih =>
    unfold State.dmaMove
    split
    · exact Keeps.of_fst (State.dmaPlaces_keeps h_) (by assumption)
    · apply ih
      refine Keeps.ite (fun _ => ?_) (fun _ => ?_)
      · exact Keeps.hostW (Keeps.of_fst (State.dmaPlaces_keeps h_) (by assumption)) (Memory.wf_mwrite _ _)
      · exact Keeps.hbmW (Keeps.of_fst (State.dmaPlaces_keeps h_) (by assumption)) (Memory.wf_hbmPut _)

theorem State.dmaFinish_keeps {z_ : State} {s : State} {r : RingRef} {q : DmaCmd} {c : Option CtxRef} (h_ : Keeps z_ s) : Keeps z_ (State.dmaFinish s r q c) := by
  refine h_.trans ?_; clear h_
  unfold State.dmaFinish; try dsimp only
  repeat' (first
    | with_reducible exact Keeps.refl _ | with_reducible refine State.reply_keeps ?_ | with_reducible refine State.replyCode_keeps ?_
    | (with_reducible refine Keeps.of_fst (State.dmaMove_keeps ?_) (by assumption)) | split)

theorem execDmaHostComplete_keeps {r : RingRef} {s : State} : ResKeeps s (execDmaHostComplete r s) := by
  unfold execDmaHostComplete; try dsimp only
  repeat' (first
    | with_reducible exact Keeps.refl _ | with_reducible exact ResKeeps.fault _ _ | with_reducible refine ResKeeps.next ?_
    | with_reducible refine State.replyCode_keeps ?_ | with_reducible refine State.dmaFinish_keeps ?_ | split)

theorem execWindowOpen_keeps {r : RingRef} {w : CmdWords} {s : State} : ResKeeps s (execWindowOpen r w s) := by
  unfold execWindowOpen; try dsimp only
  repeat' (first
    | with_reducible exact Keeps.refl _ | with_reducible refine State.setWin_keeps ?_ | with_reducible refine State.reply_keeps ?_
    | with_reducible refine State.replyCode_keeps ?_ | (with_reducible refine Keeps.of_fst (State.rangesOk_keeps ?_) (by assumption))
    | with_reducible refine hostCtxCmd_keeps (fun _ _ => ?_) | split)

theorem execWindowClose_keeps {r : RingRef} {w : CmdWords} {s : State} : ResKeeps s (execWindowClose r w s) := by
  unfold execWindowClose; try dsimp only
  repeat' (first
    | with_reducible exact Keeps.refl _ | with_reducible refine State.setPort_keeps ?_ | with_reducible refine State.setWin_keeps ?_
    | with_reducible refine State.replyCode_keeps ?_ | with_reducible refine hostCmd_keeps (fun _ => ?_)
    | with_reducible refine Keeps.forAll ?_ (fun _ _ => ?_) | with_reducible refine Keeps.ite (fun _ => ?_) (fun _ => ?_))

theorem execFlagSet_keeps {r : RingRef} {w : CmdWords} {s : State} : ResKeeps s (execFlagSet r w s) := by
  unfold execFlagSet; try dsimp only
  repeat' (first
    | with_reducible exact Keeps.refl _ | with_reducible refine State.replyCode_keeps ?_
    | with_reducible refine hostCtxCmd_keeps (fun _ _ => ?_)
    | (fail_if_no_progress with_reducible refine Keeps.upd ?_ rfl rfl rfl rfl rfl rfl rfl rfl rfl rfl) | split)

theorem execFlagRead_keeps {r : RingRef} {w : CmdWords} {s : State} : ResKeeps s (execFlagRead r w s) := by
  unfold execFlagRead; try dsimp only
  repeat' (first
    | with_reducible exact Keeps.refl _ | with_reducible refine State.reply_keeps ?_ | with_reducible refine State.replyCode_keeps ?_
    | with_reducible refine hostCtxCmd_keeps (fun _ _ => ?_) | with_reducible refine Keeps.ite (fun _ => ?_) (fun _ => ?_))

theorem execScratchSample_keeps {r : RingRef} {w : CmdWords} {s : State} : ResKeeps s (execScratchSample r w s) := by
  unfold execScratchSample; try dsimp only
  repeat' (first
    | with_reducible exact Keeps.refl _ | with_reducible refine State.replyCode_keeps ?_
    | with_reducible refine hostCtxCmd_keeps (fun _ _ => ?_)
    | (refine State.setCtx_keeps ?_ ?_; rotate_left; exact ⟨fun _ h => h, fun h => Or.inr h⟩) | split)

theorem execSampleComplete_keeps {c : CtxRef} {s : State} : ResKeeps s (execSampleComplete c s) := by
  unfold execSampleComplete; try dsimp only
  repeat' (first
    | with_reducible exact Keeps.refl _ | with_reducible exact ResKeeps.fault _ _ | with_reducible refine ResKeeps.when (fun _ => ?_)
    | with_reducible refine State.finishSample_keeps ?_ | with_reducible refine ResKeeps.ite (fun _ => ?_) (fun _ => ?_))

theorem State.zeroGroup_keeps {z_ s : State} {cid g : Nat} (h_ : Keeps z_ s) : Keeps z_ (s.zeroGroup cid g) := by
  refine h_.trans ?_
  unfold State.zeroGroup
  exact Keeps.tilesMap (Keeps.refl _) rfl
    (g := fun k y => if cidOfTile k = cid then { y with sram := mzero y.sram (65536 * g) 65536 } else y)
    (fun k y h => by split; exacts [Memory.wf_mzero _ _ h, h])

theorem execBankPower_keeps {r : RingRef} {w : CmdWords} {s : State} : ResKeeps s (execBankPower r w s) := by
  unfold execBankPower; try dsimp only
  repeat' (first
    | with_reducible exact Keeps.refl _ | with_reducible refine State.replyCode_keeps ?_ | with_reducible refine State.setBank_keeps ?_
    | with_reducible refine hostCmd_keeps (fun _ => ?_) | split)

theorem State.banksLate_keeps {z_ : State} {s : State} (h_ : Keeps z_ s) : Keeps z_ (State.banksLate s) := by
  refine h_.trans ?_; clear h_
  unfold State.banksLate; try dsimp only
  repeat' (first
    | with_reducible exact Keeps.refl _ | (fail_if_no_progress with_reducible refine Keeps.upd ?_ rfl rfl rfl rfl rfl rfl rfl rfl rfl rfl))

theorem execBankOffComplete_keeps {cid : Nat} {grp : Nat} {s : State} : ResKeeps s (execBankOffComplete cid grp s) := by
  unfold execBankOffComplete; try dsimp only
  repeat' (first
    | with_reducible exact Keeps.refl _ | with_reducible exact ResKeeps.fault _ _ | with_reducible refine ResKeeps.when (fun _ => ?_)
    | with_reducible refine State.replyTo_keeps ?_ | with_reducible refine State.setBank_keeps ?_
    | with_reducible refine ResKeeps.ite (fun _ => ?_) (fun _ => ?_))

theorem execBankOffTimeout_keeps {cid : Nat} {grp : Nat} {s : State} : ResKeeps s (execBankOffTimeout cid grp s) := by
  unfold execBankOffTimeout; try dsimp only
  repeat' (first
    | with_reducible exact Keeps.refl _ | with_reducible exact ResKeeps.fault _ _ | with_reducible refine ResKeeps.when (fun _ => ?_)
    | with_reducible refine State.replyTo_keeps ?_ | with_reducible refine State.setBank_keeps ?_
    | with_reducible refine ResKeeps.ite (fun _ => ?_) (fun _ => ?_))

theorem execBankOnComplete_keeps {cid : Nat} {grp : Nat} {s : State} : ResKeeps s (execBankOnComplete cid grp s) := by
  unfold execBankOnComplete; try dsimp only
  repeat' (first
    | with_reducible exact Keeps.refl _ | with_reducible exact ResKeeps.fault _ _ | with_reducible refine ResKeeps.when (fun _ => ?_)
    | with_reducible refine State.replyTo_keeps ?_ | with_reducible refine State.setBank_keeps ?_
    | with_reducible refine State.zeroGroup_keeps ?_ | with_reducible refine ResKeeps.ite (fun _ => ?_) (fun _ => ?_))

theorem State.branch_keeps {z_ : State} {s : State} {r : IssueRef} {f : Fields} {p : W64 → W64 → Bool} (h_ : Keeps z_ s) : Keeps z_ (State.branch s r f p) := by
  refine h_.trans ?_; clear h_
  unfold State.branch; try dsimp only
  repeat' (first | with_reducible exact Keeps.refl _ | with_reducible refine State.modThread_keeps ?_)

theorem execBeq_keeps {r : IssueRef} {f : Fields} {s : State} : ResKeeps s (execBeq r f s) := by
  unfold execBeq; try dsimp only
  repeat' (first
    | with_reducible exact Keeps.refl _ | with_reducible refine State.branch_keeps ?_ | with_reducible refine issue_keeps (fun _ _ => ?_))

theorem execBne_keeps {r : IssueRef} {f : Fields} {s : State} : ResKeeps s (execBne r f s) := by
  unfold execBne; try dsimp only
  repeat' (first
    | with_reducible exact Keeps.refl _ | with_reducible refine State.branch_keeps ?_ | with_reducible refine issue_keeps (fun _ _ => ?_))

theorem execBlt_keeps {r : IssueRef} {f : Fields} {s : State} : ResKeeps s (execBlt r f s) := by
  unfold execBlt; try dsimp only
  repeat' (first
    | with_reducible exact Keeps.refl _ | with_reducible refine State.branch_keeps ?_ | with_reducible refine issue_keeps (fun _ _ => ?_))

theorem execBge_keeps {r : IssueRef} {f : Fields} {s : State} : ResKeeps s (execBge r f s) := by
  unfold execBge; try dsimp only
  repeat' (first
    | with_reducible exact Keeps.refl _ | with_reducible refine State.branch_keeps ?_ | with_reducible refine issue_keeps (fun _ _ => ?_))

theorem execBltu_keeps {r : IssueRef} {f : Fields} {s : State} : ResKeeps s (execBltu r f s) := by
  unfold execBltu; try dsimp only
  repeat' (first
    | with_reducible exact Keeps.refl _ | with_reducible refine State.branch_keeps ?_ | with_reducible refine issue_keeps (fun _ _ => ?_))

theorem execBgeu_keeps {r : IssueRef} {f : Fields} {s : State} : ResKeeps s (execBgeu r f s) := by
  unfold execBgeu; try dsimp only
  repeat' (first
    | with_reducible exact Keeps.refl _ | with_reducible refine State.branch_keeps ?_ | with_reducible refine issue_keeps (fun _ _ => ?_))

theorem execJ_keeps {r : IssueRef} {f : Fields} {s : State} : ResKeeps s (execJ r f s) := by
  unfold execJ; try dsimp only
  repeat' (first
    | with_reducible exact Keeps.refl _ | with_reducible refine State.modThread_keeps ?_ | with_reducible refine issue_keeps (fun _ _ => ?_))

theorem execJal_keeps {r : IssueRef} {f : Fields} {s : State} : ResKeeps s (execJal r f s) := by
  unfold execJal; try dsimp only
  repeat' (first
    | with_reducible exact Keeps.refl _ | with_reducible refine State.modThread_keeps ?_ | with_reducible refine issue_keeps (fun _ _ => ?_))

theorem execJr_keeps {r : IssueRef} {f : Fields} {s : State} : ResKeeps s (execJr r f s) := by
  unfold execJr; try dsimp only
  repeat' (first
    | with_reducible exact Keeps.refl _ | with_reducible refine State.modThread_keeps ?_ | with_reducible refine State.sramTrap_keeps ?_
    | with_reducible refine issue_keeps (fun _ _ => ?_) | with_reducible refine Keeps.ite (fun _ => ?_) (fun _ => ?_))

theorem execEventRaise_keeps {die : Nat} {src : Nat} {x : RaiseInfo} {s : State} : ResKeeps s (execEventRaise die src x s) := by
  unfold execEventRaise; try dsimp only
  repeat' (first
    | with_reducible exact Keeps.refl _ | with_reducible exact ResKeeps.fault _ _ | with_reducible refine ResKeeps.when (fun _ => ?_)
    | with_reducible refine State.raise_keeps ?_ | with_reducible refine ResKeeps.ite (fun _ => ?_) (fun _ => ?_))

theorem State.modEvc_keeps {z_ : State} {s : State} {d : Nat} {f : Evc → Evc} (h_ : Keeps z_ s) : Keeps z_ (State.modEvc s d f) := by
  refine h_.trans ?_; clear h_
  unfold State.modEvc; try dsimp only
  repeat' (first | with_reducible exact Keeps.refl _ | with_reducible refine State.setDie_keeps ?_)

theorem execStormWindow_keeps {s : State} : ResKeeps s (execStormWindow s) := by
  unfold execStormWindow; try dsimp only
  refine ResKeeps.awake ?_
  repeat' (first
    | with_reducible exact Keeps.refl _ | with_reducible refine ResKeeps.next ?_ | with_reducible refine State.modEvc_keeps ?_
    | with_reducible refine Keeps.forAll ?_ (fun _ _ => ?_))

theorem execEvcClaim_keeps {die : Nat} {s : State} : ResKeeps s (execEvcClaim die s) := by
  unfold execEvcClaim; try dsimp only
  repeat' (first
    | with_reducible exact Keeps.refl _ | with_reducible exact ResKeeps.fault _ _ | with_reducible refine ResKeeps.when (fun _ => ?_)
    | with_reducible refine State.emit_keeps ?_ | with_reducible refine State.modEvc_keeps ?_
    | with_reducible refine ResKeeps.ite (fun _ => ?_) (fun _ => ?_))

theorem State.evcEoi_keeps {z_ : State} {s : State} {d : Nat} (h_ : Keeps z_ s) : Keeps z_ (State.evcEoi s d) := by
  refine h_.trans ?_; clear h_
  unfold State.evcEoi; try dsimp only
  repeat' (first
    | with_reducible exact Keeps.refl _ | with_reducible refine State.hwSet_keeps ?_ | with_reducible refine State.modEvc_keeps ?_
    | with_reducible refine Keeps.ite (fun _ => ?_) (fun _ => ?_))

theorem execEvcEoi_keeps {die : Nat} {s : State} : ResKeeps s (execEvcEoi die s) := by
  unfold execEvcEoi; try dsimp only
  repeat' (first
    | with_reducible exact Keeps.refl _ | with_reducible exact ResKeeps.fault _ _ | with_reducible refine ResKeeps.when (fun _ => ?_)
    | with_reducible refine State.evcEoi_keeps ?_ | with_reducible refine ResKeeps.ite (fun _ => ?_) (fun _ => ?_))

theorem execEvcHoldSet_keeps {die : Nat} {s : State} : ResKeeps s (execEvcHoldSet die s) := by
  unfold execEvcHoldSet; try dsimp only
  repeat' (first
    | with_reducible exact Keeps.refl _ | with_reducible exact ResKeeps.fault _ _ | with_reducible refine ResKeeps.when (fun _ => ?_)
    | with_reducible refine State.modEvc_keeps ?_ | with_reducible refine ResKeeps.ite (fun _ => ?_) (fun _ => ?_))

theorem execEvcHoldRelease_keeps {die : Nat} {s : State} : ResKeeps s (execEvcHoldRelease die s) := by
  unfold execEvcHoldRelease; try dsimp only
  repeat' (first
    | with_reducible exact Keeps.refl _ | with_reducible exact ResKeeps.fault _ _ | with_reducible refine ResKeeps.when (fun _ => ?_)
    | with_reducible refine State.modEvc_keeps ?_ | with_reducible refine ResKeeps.ite (fun _ => ?_) (fun _ => ?_))

theorem State.passLatch_keeps {z_ : State} {s : State} {d : Nat} {l : Nat} (h_ : Keeps z_ s) : Keeps z_ (State.passLatch s d l) := by
  refine h_.trans ?_; clear h_
  unfold State.passLatch; try dsimp only
  repeat' (first | with_reducible exact Keeps.refl _ | with_reducible refine State.evcRaise_keeps ?_ | with_reducible refine State.modEvc_keeps ?_)

theorem execLatchTransfer_keeps {die : Nat} {latch : Nat} {s : State} : ResKeeps s (execLatchTransfer die latch s) := by
  unfold execLatchTransfer; try dsimp only
  repeat' (first
    | with_reducible exact Keeps.refl _ | with_reducible exact ResKeeps.fault _ _ | with_reducible refine ResKeeps.when (fun _ => ?_)
    | with_reducible refine State.passLatch_keeps ?_ | with_reducible refine ResKeeps.ite (fun _ => ?_) (fun _ => ?_))

theorem State.progIfDue_keeps {z_ : State} {s : State} (h_ : Keeps z_ s) : Keeps z_ (State.progIfDue s) := by
  refine h_.trans ?_; clear h_
  unfold State.progIfDue; try dsimp only
  repeat' (first
    | with_reducible exact Keeps.refl _ | with_reducible refine Keeps.ite (fun _ => ?_) (fun _ => ?_)
    | (fail_if_no_progress with_reducible refine Keeps.upd ?_ rfl rfl rfl rfl rfl rfl rfl rfl rfl rfl))

theorem State.append_keeps {z_ : State} {s : State} {x : LogRec} (h_ : Keeps z_ s) : Keeps z_ (State.append s x) := by
  refine h_.trans ?_; clear h_
  unfold State.append; try dsimp only
  repeat' (first
    | with_reducible exact Keeps.refl _ | with_reducible refine State.setAttn_keeps ?_ | with_reducible refine State.setAttnM_keeps ?_
    | with_reducible refine State.progIfDue_keeps ?_ | with_reducible refine Keeps.ite (fun _ => ?_) (fun _ => ?_)
    | (fail_if_no_progress with_reducible refine Keeps.upd ?_ rfl rfl rfl rfl rfl rfl rfl rfl rfl rfl))

theorem State.dropRec_keeps {z_ : State} {s : State} (h_ : Keeps z_ s) : Keeps z_ (State.dropRec s) := by
  refine h_.trans ?_; clear h_
  unfold State.dropRec; try dsimp only
  repeat' (first
    | with_reducible exact Keeps.refl _ | with_reducible refine State.evcRaise_keeps ?_ | with_reducible refine Keeps.forAll ?_ (fun _ _ => ?_)
    | with_reducible refine Keeps.ite (fun _ => ?_) (fun _ => ?_)
    | (fail_if_no_progress with_reducible refine Keeps.upd ?_ rfl rfl rfl rfl rfl rfl rfl rfl rfl rfl))

theorem State.logStep_keeps {z_ : State} {before : Nat} {s : State} (h_ : Keeps z_ s) : Keeps z_ (State.logStep before s) := by
  refine h_.trans ?_; clear h_
  unfold State.logStep; try dsimp only
  repeat' (first
    | with_reducible exact Keeps.refl _ | with_reducible refine State.modEvc_keeps ?_ | with_reducible refine State.append_keeps ?_
    | with_reducible refine State.dropRec_keeps ?_
    | (fail_if_no_progress with_reducible refine Keeps.upd ?_ rfl rfl rfl rfl rfl rfl rfl rfl rfl rfl) | split)

theorem execLogAppend_keeps {s : State} : ResKeeps s (execLogAppend s) := by
  unfold execLogAppend; try dsimp only
  repeat' (first
    | with_reducible exact Keeps.refl _ | with_reducible refine ResKeeps.when (fun _ => ?_) | with_reducible refine State.logStep_keeps ?_
    | (fail_if_no_progress with_reducible refine Keeps.upd ?_ rfl rfl rfl rfl rfl rfl rfl rfl rfl rfl))

theorem execPageCommitTimer_keeps {s : State} : ResKeeps s (execPageCommitTimer s) := by
  unfold execPageCommitTimer; try dsimp only
  repeat' (first
    | with_reducible exact Keeps.refl _ | with_reducible refine ResKeeps.when (fun _ => ?_) | with_reducible refine State.progIfDue_keeps ?_
    | (fail_if_no_progress with_reducible refine Keeps.upd ?_ rfl rfl rfl rfl rfl rfl rfl rfl rfl rfl))

theorem execPageProgramComplete_keeps {s : State} : ResKeeps s (execPageProgramComplete s) := by
  unfold execPageProgramComplete; try dsimp only
  repeat' (first
    | with_reducible exact Keeps.refl _ | with_reducible refine ResKeeps.next ?_ | with_reducible refine ResKeeps.when (fun _ => ?_)
    | with_reducible refine State.progIfDue_keeps ?_
    | (fail_if_no_progress with_reducible refine Keeps.upd ?_ rfl rfl rfl rfl rfl rfl rfl rfl rfl rfl) | split)

theorem execEventRead_keeps {r : RingRef} {w : CmdWords} {s : State} : ResKeeps s (execEventRead r w s) := by
  unfold execEventRead; try dsimp only
  repeat' (first
    | with_reducible exact Keeps.refl _ | with_reducible refine State.reply_keeps ?_ | with_reducible refine State.replyCode_keeps ?_
    | with_reducible refine hostCmd_keeps (fun _ => ?_) | with_reducible refine Keeps.hostW ?_ (Memory.wf_mwrite _ _)
    | with_reducible refine Keeps.ite (fun _ => ?_) (fun _ => ?_))

theorem execEventAck_keeps {r : RingRef} {w : CmdWords} {s : State} : ResKeeps s (execEventAck r w s) := by
  unfold execEventAck; try dsimp only
  repeat' (first
    | with_reducible exact Keeps.refl _ | with_reducible refine State.setFn_keeps ?_ | with_reducible refine State.replyCode_keeps ?_
    | with_reducible refine hostCmd_keeps (fun _ => ?_) | with_reducible refine Keeps.ite (fun _ => ?_) (fun _ => ?_))

theorem execSsWatchdog_keeps {c : CtxRef} {s : State} : ResKeeps s (execSsWatchdog c s) := by
  unfold execSsWatchdog; try dsimp only
  repeat' (first
    | with_reducible exact Keeps.refl _ | with_reducible exact ResKeeps.fault _ _ | with_reducible refine ResKeeps.when (fun _ => ?_)
    | with_reducible refine State.raise_keeps ?_ | with_reducible refine State.faultCtx_keeps ?_
    | with_reducible refine ResKeeps.ite (fun _ => ?_) (fun _ => ?_))

theorem State.setFence_keeps {z_ : State} {s : State} {t : Nat} {b : Bool} (h_ : Keeps z_ s) : Keeps z_ (State.setFence s t b) := by
  refine h_.trans ?_; clear h_
  unfold State.setFence; try dsimp only
  repeat' (first | with_reducible exact Keeps.refl _ | with_reducible refine Keeps.setTile ?_ (fun h => h))

theorem State.startL1_keeps {z_ : State} {s : State} {e : BitVec 16} {owner : Option RingRef} {ctx : Option CtxRef} (h_ : Keeps z_ s) : Keeps z_ (State.startL1 s e owner ctx) := by
  refine h_.trans ?_; clear h_
  unfold State.startL1; try dsimp only
  repeat' (first
    | with_reducible exact Keeps.refl _ | with_reducible refine State.faultCtx_keeps ?_ | with_reducible refine State.setFence_keeps ?_
    | with_reducible refine Keeps.forAll ?_ (fun _ _ => ?_) | with_reducible refine Keeps.ite (fun _ => ?_) (fun _ => ?_)
    | (fail_if_no_progress with_reducible refine Keeps.upd ?_ rfl rfl rfl rfl rfl rfl rfl rfl rfl rfl))

theorem State.monitors_keeps {z_ s : State} (h_ : Keeps z_ s) : Keeps z_ s.monitors := by
  refine h_.trans ?_
  unfold State.monitors
  exact Keeps.tilesMap (g := fun k y => { y with pmAt := pmNext s.now (s.coreBusy k y) y.pmAt }) (Keeps.refl s) rfl (fun _ _ h => h)

theorem State.hang_keeps {z_ : State} {s : State} {e : BitVec 16} (h_ : Keeps z_ s) : Keeps z_ (State.hang s e) := by
  refine h_.trans ?_; clear h_
  unfold State.hang; try dsimp only
  repeat' (first
    | with_reducible exact Keeps.refl _ | with_reducible refine State.raise_keeps ?_ | with_reducible refine State.faultCtx_keeps ?_
    | with_reducible refine State.startL1_keeps ?_ | with_reducible refine Keeps.forAll ?_ (fun _ _ => ?_))

theorem execEngineHang_keeps {eng : BitVec 16} {s : State} : ResKeeps s (execEngineHang eng s) := by
  unfold execEngineHang; try dsimp only
  repeat' (first | with_reducible exact Keeps.refl _ | with_reducible refine ResKeeps.when (fun _ => ?_) | with_reducible refine State.hang_keeps ?_)

theorem State.resetEngine_keeps {z_ s : State} {e : BitVec 16} (h_ : Keeps z_ s) : Keeps z_ (s.resetEngine e) := by
  refine h_.trans ?_
  unfold State.resetEngine
  dsimp only
  split
  · exact State.setDie_keeps (Keeps.setTile (Keeps.refl s) (fun h => h))
  · exact Keeps.tiles (State.setCluster_keeps (Keeps.refl _))
      (fun k y => if cidOfTile k = engCid e then { y with feed := y.feed.filter (fun l => l.eng ≠ engIdx e % 4) } else y)
      (fun k y h => by split; exacts [h, h])
  · exact State.setDie_keeps (Keeps.tiles (Keeps.refl _) (fun k y => if dieOfTile k = engDie e then y.dmaReset else y)
      (fun k y h => by split; exacts [h, h]))
  · exact State.portLost_keeps (Keeps.refl _)
  · exact State.setDie_keeps (Keeps.refl _)
  · exact Keeps.refl _

theorem State.liftAll_keeps {z_ s : State} (h_ : Keeps z_ s) : Keeps z_ s.liftAll :=
  h_.trans (Keeps.tiles (Keeps.refl _) (fun _ y => { y with fenced := false }) (fun _ _ h => h))

theorem State.liftFences_keeps {z_ s : State} {p : Nat} (h_ : Keeps z_ s) : Keeps z_ (s.liftFences p) := by
  refine h_.trans ?_
  unfold State.liftFences
  exact Keeps.tilesMap (Keeps.refl _) rfl
    (g := fun k y => if partOfDie s.layout (dieOfTile k) = p then { y with fenced := false } else y)
    (fun k y h => by split; exacts [h, h])

theorem State.slotL2_keeps {z_ : State} {s : State} {c : CtxRef} {forced : Bool} (h_ : Keeps z_ s) : Keeps z_ (State.slotL2 s c forced) := by
  refine h_.trans ?_; clear h_
  unfold State.slotL2; try dsimp only
  repeat' (first
    | with_reducible exact Keeps.refl _ | with_reducible refine State.replyTo_keeps ?_ | with_reducible refine State.beginRemoval_keeps ?_
    | with_reducible refine State.finishSample_keeps ?_
    | (refine State.setCtx_keeps ?_ ?_; rotate_left; exact ⟨fun _ h => h, fun h => Or.inr h⟩) | split)

theorem State.startL2_keeps {z_ : State} {s : State} {p : Nat} {owner : Option RingRef} {late : List RingRef} {forced : Bool} (h_ : Keeps z_ s) : Keeps z_ (State.startL2 s p owner late forced) := by
  refine h_.trans ?_; clear h_
  unfold State.startL2; try dsimp only
  repeat' (first
    | with_reducible exact Keeps.refl _ | with_reducible refine State.liftFences_keeps ?_ | with_reducible refine State.slotL2_keeps ?_
    | with_reducible refine Keeps.forAll ?_ (fun _ _ => ?_)
    | (fail_if_no_progress with_reducible refine Keeps.upd ?_ rfl rfl rfl rfl rfl rfl rfl rfl rfl rfl))

theorem State.answerForced_keeps {z_ : State} {s : State} {c : CtxRef} (h_ : Keeps z_ s) : Keeps z_ (State.answerForced s c) := by
  refine h_.trans ?_; clear h_
  unfold State.answerForced; try dsimp only
  repeat' (first
    | with_reducible exact Keeps.refl _ | with_reducible refine State.replyTo_keeps ?_
    | (refine State.setCtx_keeps ?_ ?_; rotate_left; exact ⟨fun _ h => h, fun h => Or.inr h⟩) | split)

theorem State.scrubL2_keeps {z_ : State} {s : State} {c : CtxRef} (h_ : Keeps z_ s) : Keeps z_ (State.scrubL2 s c) := by
  refine h_.trans ?_; clear h_
  unfold State.scrubL2; try dsimp only
  repeat' (first
    | with_reducible exact Keeps.refl _ | (refine State.setCtx_keeps ?_ ?_; rotate_left; exact ⟨fun _ h => h, fun h => Or.inr h⟩) | split)

theorem State.answerLate_keeps {z_ : State} {s : State} {rs : List RingRef} {level : Nat} (h_ : Keeps z_ s) : Keeps z_ (State.answerLate s rs level) := by
  refine h_.trans ?_; clear h_
  unfold State.answerLate; try dsimp only
  repeat' (first
    | with_reducible exact Keeps.refl _ | with_reducible refine State.reply_keeps ?_ | with_reducible refine Keeps.forAll ?_ (fun _ _ => ?_))

theorem State.endL2_keeps {z_ s : State} {q : Reset} (h_ : Keeps z_ s) : Keeps z_ (s.endL2 q) := by
  refine h_.trans ?_
  unfold State.endL2
  dsimp only
  refine State.answerLate_keeps (State.replyTo_keeps (Keeps.forAll (Keeps.forAll (Keeps.forAll (State.closeWins_keeps ?_) (fun _ _ => ?_)) (fun _ _ => ?_)) (fun _ _ => ?_)))
  · exact Keeps.tilesMap (Keeps.refl _) rfl
      (g := fun k y => if decide (partOfDie s.layout (dieOfTile k) = q.part) = true then y.afterL2 else y)
      (fun k y h => by split; exacts [by unfold Tile.afterL2; split; exacts [h, rfl], h])
  · exact State.setXch_keeps (State.portLost_keeps (Keeps.refl _))
  · exact State.scrubL2_keeps (Keeps.refl _)
  · exact State.answerForced_keeps (Keeps.refl _)

theorem State.bootFw_keeps {z_ : State} {s : State} (h_ : Keeps z_ s) : Keeps z_ (State.bootFw s) := by
  refine h_.trans ?_; clear h_
  unfold State.bootFw; try dsimp only
  split
  · exact State.setAttnM_keeps (Keeps.upd (Keeps.refl _) rfl rfl rfl rfl rfl rfl rfl rfl rfl rfl)
  · rename_i b _
    have k : ∀ x : FwImage, Keeps s { s with plat := { s.plat.setImg b x with recovery := false, fwB := b } } := by
      intro x; cases b <;> exact Keeps.upd (Keeps.refl _) rfl rfl rfl rfl rfl rfl rfl rfl rfl rfl
    repeat' (first | exact State.setAttnM_keeps (k _) | exact State.raise_keeps (k _) | exact k _ | split)

theorem State.dropCmds_keeps {z_ : State} {s : State} {keep : List RingRef} (h_ : Keeps z_ s) : Keeps z_ (State.dropCmds s keep) := by
  refine h_.trans ?_; clear h_
  unfold State.dropCmds; try dsimp only
  repeat' (first
    | with_reducible exact Keeps.refl _ | with_reducible refine State.setRing_keeps ?_ | with_reducible refine Keeps.forAll ?_ (fun _ _ => ?_)
    | with_reducible refine Keeps.ite (fun _ => ?_) (fun _ => ?_))

theorem State.startL3_keeps {z_ s : State} {owner : Option RingRef} {late : List RingRef} {lcs : Option (BitVec 2)} {perst : Bool}
    (h_ : Keeps z_ s) : Keeps z_ (s.startL3 owner late lcs perst) := by
  refine h_.trans ?_
  unfold State.startL3
  have h0 : Keeps s (s.dropCmds (owner.toList ++ late)).liftAll := State.liftAll_keeps (State.dropCmds_keeps (Keeps.refl _))
  generalize (s.dropCmds (owner.toList ++ late)).liftAll = u at h0 ⊢
  have h1 : Keeps s { u with ctxs := u.ctxs.map (fun e => (e.1, { epoch := e.2.epoch })), wins := [], flights := [], lanes := [], freqs := [] } :=
    Keeps.ctxsMap (g := fun _ y => { epoch := y.epoch }) h0 rfl rfl (fun _ _ => ⟨fun i h => absurd h (by simp), fun _ => Or.inl rfl⟩)
  have h2 := State.configDown_keeps h1
  dsimp only at h2 ⊢
  generalize State.configDown _ = v at h2 ⊢
  exact Keeps.upd h2 rfl rfl rfl rfl rfl rfl rfl rfl rfl rfl

theorem State.cursors_keeps {z_ : State} {s : State} (h_ : Keeps z_ s) : Keeps z_ (State.cursors s) := by
  refine h_.trans ?_; clear h_
  unfold State.cursors; try dsimp only
  repeat' (first
    | with_reducible exact Keeps.refl _ | with_reducible refine State.setFn_keeps ?_ | with_reducible refine Keeps.forAll ?_ (fun _ _ => ?_))

theorem State.recordForced_keeps {z_ : State} {s : State} {d : Nat} {level : Nat} {eng : BitVec 16} (h_ : Keeps z_ s) : Keeps z_ (State.recordForced s d level eng) := by
  refine h_.trans ?_; clear h_
  unfold State.recordForced; try dsimp only
  repeat' (first | with_reducible exact Keeps.refl _ | with_reducible refine State.setDie_keeps ?_ | with_reducible refine State.raise_keeps ?_)

theorem State.forceL0_keeps {z_ : State} {s : State} {c : CtxRef} {t : Td} (h_ : Keeps z_ s) : Keeps z_ (State.forceL0 s c t) := by
  refine h_.trans ?_; clear h_
  unfold State.forceL0; try dsimp only
  repeat' (first
    | with_reducible exact Keeps.refl _ | with_reducible refine State.endL0_keeps ?_ | with_reducible refine State.startL1_keeps ?_
    | with_reducible refine State.recordForced_keeps ?_ | with_reducible refine Keeps.forAll ?_ (fun _ _ => ?_)
    | (refine State.setCtx_keeps ?_ ?_; rotate_left; exact ⟨fun _ h => h, fun h => Or.inr h⟩) | split)

theorem State.forceL1_keeps {z_ : State} {s : State} {q : Reset} (h_ : Keeps z_ s) : Keeps z_ (State.forceL1 s q) := by
  refine h_.trans ?_; clear h_
  unfold State.forceL1; try dsimp only
  repeat' (first
    | with_reducible exact Keeps.refl _ | with_reducible refine State.faultCtx_keeps ?_ | with_reducible refine State.startL2_keeps ?_
    | with_reducible refine State.recordForced_keeps ?_ | split)

theorem execResetBudgetExpiry_keeps {q : Nat} {s : State} : ResKeeps s (execResetBudgetExpiry q s) := by
  unfold execResetBudgetExpiry; try dsimp only
  repeat' (first
    | with_reducible exact Keeps.refl _ | with_reducible refine ResKeeps.next ?_ | with_reducible refine ResKeeps.when (fun _ => ?_)
    | with_reducible refine State.startL3_keeps ?_ | with_reducible refine State.recordForced_keeps ?_
    | with_reducible refine State.forceL0_keeps ?_ | with_reducible refine State.forceL1_keeps ?_
    | (fail_if_no_progress with_reducible refine Keeps.upd ?_ rfl rfl rfl rfl rfl rfl rfl rfl rfl rfl) | split)

theorem execTileFence_keeps {tid : Nat} {s : State} : ResKeeps s (execTileFence tid s) := by
  unfold execTileFence; try dsimp only
  repeat' (first
    | with_reducible exact Keeps.refl _ | with_reducible exact ResKeeps.fault _ _ | with_reducible refine ResKeeps.when (fun _ => ?_)
    | with_reducible refine State.setFence_keeps ?_ | with_reducible refine ResKeeps.ite (fun _ => ?_) (fun _ => ?_))

theorem execResetEscalate_keeps {r : RingRef} {w : CmdWords} {s : State} : ResKeeps s (execResetEscalate r w s) := by
  unfold execResetEscalate; try dsimp only
  repeat' (first
    | with_reducible exact Keeps.refl _ | with_reducible refine State.replyCode_keeps ?_ | with_reducible refine State.removeCtx_keeps ?_
    | with_reducible refine State.startL1_keeps ?_ | with_reducible refine State.startL2_keeps ?_ | with_reducible refine State.startL3_keeps ?_
    | with_reducible refine hostCmd_keeps (fun _ => ?_)
    | (fail_if_no_progress with_reducible refine Keeps.upd ?_ rfl rfl rfl rfl rfl rfl rfl rfl rfl rfl) | split)

theorem State.tck_keeps {z_ : State} {s : State} {tms : Bool} {tdi : Bool} (h_ : Keeps z_ s) : Keeps z_ (State.tck s tms tdi) := by
  refine h_.trans ?_; clear h_
  unfold State.tck; try dsimp only
  repeat' (first
    | with_reducible exact Keeps.refl _ | with_reducible refine State.emit_keeps ?_
    | (fail_if_no_progress with_reducible refine Keeps.upd ?_ rfl rfl rfl rfl rfl rfl rfl rfl rfl rfl) | split)

theorem State.setTrst_keeps {z_ : State} {s : State} {low : Bool} (h_ : Keeps z_ s) : Keeps z_ (State.setTrst s low) := by
  refine h_.trans ?_; clear h_
  unfold State.setTrst; try dsimp only
  repeat' (first
    | with_reducible exact Keeps.refl _ | (fail_if_no_progress with_reducible refine Keeps.upd ?_ rfl rfl rfl rfl rfl rfl rfl rfl rfl rfl))

theorem State.trainPcie_keeps {z_ : State} {s : State} (h_ : Keeps z_ s) : Keeps z_ (State.trainPcie s) := by
  refine h_.trans ?_; clear h_
  unfold State.trainPcie; try dsimp only
  repeat' (first
    | with_reducible exact Keeps.refl _ | with_reducible refine Keeps.ite (fun _ => ?_) (fun _ => ?_)
    | (fail_if_no_progress with_reducible refine Keeps.upd ?_ rfl rfl rfl rfl rfl rfl rfl rfl rfl rfl))

theorem State.pinEvent_keeps {z_ : State} {s : State} {e : PinEv} (h_ : Keeps z_ s) : Keeps z_ (State.pinEvent s e) := by
  refine h_.trans ?_; clear h_
  unfold State.pinEvent; try dsimp only
  repeat' (first
    | with_reducible exact Keeps.refl _ | with_reducible refine State.emit_keeps ?_ | with_reducible refine State.tck_keeps ?_
    | with_reducible refine State.setTrst_keeps ?_
    | (fail_if_no_progress with_reducible refine Keeps.upd ?_ rfl rfl rfl rfl rfl rfl rfl rfl rfl rfl) | split)

theorem State.takePin_keeps {z_ : State} {s : State} (h_ : Keeps z_ s) : Keeps z_ (State.takePin s) := by
  refine h_.trans ?_; clear h_
  unfold State.takePin; try dsimp only
  repeat' (first
    | with_reducible exact Keeps.refl _ | with_reducible refine State.pinEvent_keeps ?_
    | (fail_if_no_progress with_reducible refine Keeps.upd ?_ rfl rfl rfl rfl rfl rfl rfl rfl rfl rfl) | split)

theorem execLifecycle_keeps {r : RingRef} {w : CmdWords} {s : State} : ResKeeps s (execLifecycle r w s) := by
  unfold execLifecycle; try dsimp only
  repeat' (first
    | with_reducible exact Keeps.refl _ | with_reducible refine State.replyCode_keeps ?_ | with_reducible refine State.startL3_keeps ?_
    | with_reducible refine hostCmd_keeps (fun _ => ?_) | with_reducible refine Keeps.ite (fun _ => ?_) (fun _ => ?_))

theorem State.setLocks_keeps {z_ s : State} {v : BitVec 9} (h_ : Keeps z_ s) : Keeps z_ (s.setLocks v) := by
  refine h_.trans ?_
  unfold State.setLocks
  dsimp only
  refine Keeps.ite (fun _ => Keeps.refl _) (fun _ => State.raise_keeps ?_)
  exact ⟨rfl, rfl, rfl, rfl, rfl, fun i h => by simp [h], fun h => h, fun h => h, fun _ h => h, fun _ _ h => h, fun _ h => Or.inr h⟩

theorem execLock_keeps {r : RingRef} {w : CmdWords} {s : State} : ResKeeps s (execLock r w s) := by
  unfold execLock; try dsimp only
  repeat' (first
    | with_reducible exact Keeps.refl _ | with_reducible refine State.replyCode_keeps ?_ | with_reducible refine State.setLocks_keeps ?_
    | with_reducible refine hostCmd_keeps (fun _ => ?_))

theorem Plat.setImg_lock (p : Plat) (b : Bool) (x : FwImage) : (p.setImg b x).lock = p.lock := by
  unfold Plat.setImg
  split <;> rfl

theorem Plat.setImg_powered (p : Plat) (b : Bool) (x : FwImage) : (p.setImg b x).powered = p.powered := by
  unfold Plat.setImg
  split <;> rfl

theorem execFwUpdate_keeps {r : RingRef} {w : CmdWords} {s : State} : ResKeeps s (execFwUpdate r w s) := by
  unfold execFwUpdate
  refine hostCmd_keeps (fun y => ?_)
  dsimp only
  refine Keeps.ite (fun _ => State.replyCode_keeps (Keeps.refl _)) (fun _ => Keeps.ite (fun _ => State.replyCode_keeps (Keeps.refl _)) (fun _ => ?_))
  exact Keeps.upd (Keeps.refl y) rfl rfl rfl rfl (Plat.setImg_powered _ _ _) (Plat.setImg_lock _ _ _) rfl rfl rfl rfl

theorem execFwUpdateComplete_keeps {flashFail : Bool} {s : State} : ResKeeps s (execFwUpdateComplete flashFail s) := by
  unfold execFwUpdateComplete
  dsimp only
  split
  · exact ResKeeps.next (Keeps.refl _)
  · refine ResKeeps.when (fun _ => ?_)
    refine Keeps.ite (fun _ => ?_) (fun _ => Keeps.ite (fun _ => ?_) (fun _ => ?_))
    · exact State.replyTo_keeps (Keeps.upd (Keeps.refl s) rfl rfl rfl rfl rfl rfl rfl rfl rfl rfl)
    · exact State.replyTo_keeps (Keeps.upd (Keeps.refl s) rfl rfl rfl rfl rfl rfl rfl rfl rfl rfl)
    · exact State.replyTo_keeps (Keeps.upd (Keeps.refl s) rfl rfl rfl rfl (Plat.setImg_powered _ _ _) (Plat.setImg_lock _ _ _) rfl rfl rfl rfl)

theorem State.dropReplies_keeps {z_ s : State} {f : Nat} (h_ : Keeps z_ s) : Keeps z_ (s.dropReplies f) := by
  refine h_.trans ?_
  unfold State.dropReplies
  exact Keeps.ctxsMap (g := fun _ y => y.dropPf f) (Keeps.refl _) rfl rfl (fun _ _ => ⟨fun _ h => h, fun h => Or.inr h⟩)

theorem State.movePhys_keeps {z_ : State} {s : State} {f : Nat} {ws : List CmdWords} (h_ : Keeps z_ s) : Keeps z_ (State.movePhys s f ws) := by
  refine h_.trans ?_; clear h_
  unfold State.movePhys; try dsimp only
  repeat' (first
    | with_reducible exact Keeps.refl _ | with_reducible refine State.dmaMove_keeps ?_ | with_reducible refine Keeps.forAll ?_ (fun _ _ => ?_))

theorem State.finishPhys_keeps {z_ : State} {s : State} {f : Nat} (h_ : Keeps z_ s) : Keeps z_ (State.finishPhys s f) := by
  refine h_.trans ?_; clear h_
  unfold State.finishPhys; try dsimp only
  repeat' (first
    | with_reducible exact Keeps.refl _ | with_reducible refine State.setFn_keeps ?_ | with_reducible refine State.movePhys_keeps ?_
    | with_reducible refine Keeps.ite (fun _ => ?_) (fun _ => ?_))

theorem State.afterSleep_keeps {z_ : State} {s : State} {f : Nat} (h_ : Keeps z_ s) : Keeps z_ (State.afterSleep s f) := by
  refine h_.trans ?_; clear h_
  unfold State.afterSleep; try dsimp only
  repeat' (first
    | with_reducible exact Keeps.refl _ | with_reducible refine State.setFn_keeps ?_ | with_reducible refine State.nextFlr_keeps ?_
    | with_reducible refine State.movePhys_keeps ?_)

theorem execFunctionLevelReset_keeps {pf : Nat} {s : State} : ResKeeps s (execFunctionLevelReset pf s) := by
  unfold execFunctionLevelReset; dsimp only
  refine ResKeeps.ite (fun _ => ResKeeps.fault _ _) (fun _ => ResKeeps.when (fun _ => ?_))
  have k : ∀ a b : State, Keeps s b → (a = b ∨ a = b.nextFlr pf) → Keeps s a := by
    rintro a b h (rfl | rfl)
    · exact h
    · exact State.nextFlr_keeps h
  refine k _ _ (Keeps.forAll (State.setFn_keeps (State.dropReplies_keeps (State.finishPhys_keeps (Keeps.refl _)))) (fun c y => ?_)) (ite_eq_or_eq ..)
  refine State.setCtx_keeps (Keeps.refl _) ?_
  unfold Ctx.underFlr
  split
  · exact ⟨fun _ h => h, fun h => Or.inr h⟩
  · split
    · exact ⟨fun _ h => h, fun h => Or.inr h⟩
    · exact ⟨fun _ h => h, fun h => Or.inr h⟩

theorem State.tickThrottle_keeps {z_ : State} {s : State} (h_ : Keeps z_ s) : Keeps z_ (State.tickThrottle s) := by
  refine h_.trans ?_; clear h_
  unfold State.tickThrottle; try dsimp only
  repeat' (first
    | with_reducible exact Keeps.refl _ | with_reducible refine State.setDie_keeps ?_ | with_reducible refine Keeps.forAll ?_ (fun _ _ => ?_)
    | with_reducible refine Keeps.ite (fun _ => ?_) (fun _ => ?_)
    | (fail_if_no_progress with_reducible refine Keeps.upd ?_ rfl rfl rfl rfl rfl rfl rfl rfl rfl rfl))

theorem State.tickFly_keeps {z_ : State} {s : State} {d : Nat} (h_ : Keeps z_ s) : Keeps z_ (State.tickFly s d) := by
  refine h_.trans ?_; clear h_
  unfold State.tickFly; try dsimp only
  repeat' (first
    | with_reducible exact Keeps.refl _ | with_reducible refine State.setDie_keeps ?_
    | with_reducible refine Keeps.ite (fun _ => ?_) (fun _ => ?_)
    | (fail_if_no_progress with_reducible refine Keeps.upd ?_ rfl rfl rfl rfl rfl rfl rfl rfl rfl rfl))

theorem State.tickHbm_keeps {z_ : State} {s : State} {st : Nat} (h_ : Keeps z_ s) : Keeps z_ (State.tickHbm s st) := by
  refine h_.trans ?_; clear h_
  unfold State.tickHbm; try dsimp only
  repeat' (first
    | with_reducible exact Keeps.refl _ | with_reducible refine State.setDie_keeps ?_
    | with_reducible refine Keeps.ite (fun _ => ?_) (fun _ => ?_)
    | (fail_if_no_progress with_reducible refine Keeps.upd ?_ rfl rfl rfl rfl rfl rfl rfl rfl rfl rfl))

theorem State.endNs_keeps {z_ : State} {s : State} (h_ : Keeps z_ s) : Keeps z_ (State.endNs s) := by
  refine h_.trans ?_; clear h_
  unfold State.endNs; try dsimp only
  repeat' (first
    | with_reducible exact Keeps.refl _ | with_reducible refine State.endInstant_keeps ?_
    | with_reducible refine Keeps.forAll ?_ (fun _ _ => ?_))

theorem State.pass_keeps {z_ : State} {s : State} (h_ : Keeps z_ s) : Keeps z_ (State.pass s) := by
  refine h_.trans ?_; clear h_
  unfold State.pass; try dsimp only
  repeat' (first
    | with_reducible exact Keeps.refl _ | with_reducible refine State.flushSyms_keeps ?_ | with_reducible refine State.banksLate_keeps ?_
    | with_reducible refine State.monitors_keeps ?_ | with_reducible refine State.tickFly_keeps ?_
    | with_reducible refine State.tickHbm_keeps ?_ | with_reducible refine State.endNs_keeps ?_
    | with_reducible refine Keeps.forAll ?_ (fun _ _ => ?_)
    | (fail_if_no_progress with_reducible refine Keeps.upd ?_ rfl rfl rfl rfl rfl rfl rfl rfl rfl rfl))

theorem tick_keeps {z_ s : State} (h_ : Keeps z_ s) : Keeps z_ (tick s) := by
  refine h_.trans ?_; clear h_
  unfold tick
  refine Keeps.ite (fun _ => ?_) (fun _ => Keeps.refl _)
  refine State.takePin_keeps (State.trainPcie_keeps (State.pmeAckIfDone_keeps (State.tickThrottle_keeps ?_)))
  exact Keeps.ite (fun _ => State.touch_keeps (State.pass_keeps (Keeps.refl _))) (fun _ => State.pass_keeps (Keeps.refl _))

theorem execPowerMode_keeps {r : RingRef} {w : CmdWords} {s : State} : ResKeeps s (execPowerMode r w s) := by
  unfold execPowerMode; try dsimp only
  repeat' (first
    | with_reducible exact Keeps.refl _ | with_reducible refine State.replyCode_keeps ?_ | with_reducible refine State.followMode_keeps ?_
    | with_reducible refine hostCmd_keeps (fun _ => ?_) | with_reducible refine Keeps.forAll ?_ (fun _ _ => ?_)
    | with_reducible refine Keeps.ite (fun _ => ?_) (fun _ => ?_)
    | (fail_if_no_progress with_reducible refine Keeps.upd ?_ rfl rfl rfl rfl rfl rfl rfl rfl rfl rfl))

theorem State.setK_keeps {z_ : State} {s : State} {k : Nat} (h_ : Keeps z_ s) : Keeps z_ (State.setK s k) := by
  refine h_.trans ?_; clear h_
  unfold State.setK; try dsimp only
  repeat' (first
    | with_reducible exact Keeps.refl _ | with_reducible refine State.raise_keeps ?_
    | with_reducible refine Keeps.ite (fun _ => ?_) (fun _ => ?_)
    | (fail_if_no_progress with_reducible refine Keeps.upd ?_ rfl rfl rfl rfl rfl rfl rfl rfl rfl rfl))

theorem execPowerModeComplete_keeps {s : State} : ResKeeps s (execPowerModeComplete s) := by
  unfold execPowerModeComplete; try dsimp only
  repeat' (first
    | with_reducible exact Keeps.refl _ | with_reducible refine ResKeeps.next ?_ | with_reducible refine State.replyTo_keeps ?_
    | with_reducible refine State.followMode_keeps ?_ | with_reducible refine State.setK_keeps ?_
    | with_reducible refine Keeps.forAll ?_ (fun _ _ => ?_)
    | (fail_if_no_progress with_reducible refine Keeps.upd ?_ rfl rfl rfl rfl rfl rfl rfl rfl rfl rfl) | split)

theorem State.setTemps_keeps {z_ : State} {s : State} {t : Temps} (h_ : Keeps z_ s) : Keeps z_ (State.setTemps s t) := by
  refine h_.trans ?_; clear h_
  unfold State.setTemps; try dsimp only
  repeat' (first
    | with_reducible exact Keeps.refl _ | with_reducible refine State.setDie_keeps ?_ | with_reducible refine Keeps.forAll ?_ (fun _ _ => ?_))

theorem State.setTherm_keeps {z_ : State} {s : State} {t : Temps} (h_ : Keeps z_ s) : Keeps z_ (State.setTherm s t) := by
  refine h_.trans ?_; clear h_
  unfold State.setTherm; try dsimp only
  repeat' (first
    | with_reducible exact Keeps.refl _ | with_reducible refine State.setAttnM_keeps ?_ | with_reducible refine State.raise_keeps ?_
    | with_reducible refine Keeps.ite (fun _ => ?_) (fun _ => ?_)
    | (fail_if_no_progress with_reducible refine Keeps.upd ?_ rfl rfl rfl rfl rfl rfl rfl rfl rfl rfl))

theorem State.stopClocks_keeps {z_ : State} {s : State} (h_ : Keeps z_ s) : Keeps z_ (State.stopClocks s) := by
  refine h_.trans ?_; clear h_
  unfold State.stopClocks; try dsimp only
  repeat' (first
    | with_reducible exact Keeps.refl _ | (fail_if_no_progress with_reducible refine Keeps.upd ?_ rfl rfl rfl rfl rfl rfl rfl rfl rfl rfl))

theorem State.trip_keeps {z_ : State} {s : State} {byPower : Bool} (h_ : Keeps z_ s) : Keeps z_ (State.trip s byPower) := by
  refine h_.trans ?_; clear h_
  unfold State.trip; try dsimp only
  repeat' (first
    | with_reducible exact Keeps.refl _ | with_reducible refine State.setDie_keeps ?_ | with_reducible refine State.faultCtx_keeps ?_
    | with_reducible refine State.stopClocks_keeps ?_ | with_reducible refine Keeps.forAll ?_ (fun _ _ => ?_)
    | (fail_if_no_progress with_reducible refine Keeps.upd ?_ rfl rfl rfl rfl rfl rfl rfl rfl rfl rfl))

theorem State.throttle_keeps {z_ : State} {s : State} {t : Temps} {power : Nat} (h_ : Keeps z_ s) : Keeps z_ (State.throttle s t power) := by
  refine h_.trans ?_; clear h_
  unfold State.throttle; try dsimp only
  repeat' (first
    | with_reducible exact Keeps.refl _ | with_reducible refine State.setK_keeps ?_ | with_reducible refine State.trip_keeps ?_
    | with_reducible refine Keeps.ite (fun _ => ?_) (fun _ => ?_)
    | (fail_if_no_progress with_reducible refine Keeps.upd ?_ rfl rfl rfl rfl rfl rfl rfl rfl rfl rfl))

theorem execThrottleStep_keeps {t : Temps} {power : Nat} {s : State} : ResKeeps s (execThrottleStep t power s) := by
  unfold execThrottleStep; try dsimp only
  repeat' (first
    | with_reducible exact Keeps.refl _ | with_reducible refine ResKeeps.next ?_ | with_reducible refine State.setTemps_keeps ?_
    | with_reducible refine State.setTherm_keeps ?_ | with_reducible refine State.throttle_keeps ?_
    | with_reducible refine Keeps.ite (fun _ => ?_) (fun _ => ?_) | with_reducible refine ResKeeps.ite (fun _ => ?_) (fun _ => ?_)
    | (fail_if_no_progress with_reducible refine Keeps.upd ?_ rfl rfl rfl rfl rfl rfl rfl rfl rfl rfl))

theorem execThrottleApply_keeps {cid : Nat} {s : State} : ResKeeps s (execThrottleApply cid s) := by
  unfold execThrottleApply; try dsimp only
  repeat' (first
    | with_reducible exact Keeps.refl _ | with_reducible exact ResKeeps.fault _ _ | with_reducible refine ResKeeps.when (fun _ => ?_)
    | with_reducible refine State.setCluster_keeps ?_ | with_reducible refine ResKeeps.ite (fun _ => ?_) (fun _ => ?_))

theorem execTripClear_keeps {t : Temps} {s : State} : ResKeeps s (execTripClear t s) := by
  unfold execTripClear; try dsimp only
  repeat' (first
    | with_reducible exact Keeps.refl _ | with_reducible refine ResKeeps.when (fun _ => ?_) | with_reducible refine State.setK_keeps ?_
    | with_reducible refine State.setTemps_keeps ?_ | with_reducible refine State.setTherm_keeps ?_
    | (fail_if_no_progress with_reducible refine Keeps.upd ?_ rfl rfl rfl rfl rfl rfl rfl rfl rfl rfl))

theorem execIdleEntry_keeps {s : State} : ResKeeps s (execIdleEntry s) := by
  unfold execIdleEntry; try dsimp only
  repeat' (first
    | with_reducible exact Keeps.refl _ | with_reducible refine ResKeeps.when (fun _ => ?_) | with_reducible refine State.setCluster_keeps ?_
    | with_reducible refine Keeps.forAll ?_ (fun _ _ => ?_)
    | (fail_if_no_progress with_reducible refine Keeps.upd ?_ rfl rfl rfl rfl rfl rfl rfl rfl rfl rfl))

theorem State.commitLog_keeps {z_ : State} {s : State} (h_ : Keeps z_ s) : Keeps z_ (State.commitLog s) := by
  refine h_.trans ?_; clear h_
  unfold State.commitLog; try dsimp only
  repeat' (first
    | with_reducible exact Keeps.refl _ | with_reducible refine Keeps.ite (fun _ => ?_) (fun _ => ?_)
    | (fail_if_no_progress with_reducible refine Keeps.upd ?_ rfl rfl rfl rfl rfl rfl rfl rfl rfl rfl))

theorem State.settleLog_keeps {z_ : State} {s : State} (h_ : Keeps z_ s) : Keeps z_ (State.settleLog s) := by
  refine h_.trans ?_; clear h_
  unfold State.settleLog; try dsimp only
  repeat' (first
    | with_reducible exact Keeps.refl _ | with_reducible refine State.logStep_keeps ?_ | with_reducible refine State.commitLog_keeps ?_
    | with_reducible refine Keeps.forAll ?_ (fun _ _ => ?_) | with_reducible refine Keeps.ite (fun _ => ?_) (fun _ => ?_))

theorem State.holdover_keeps {z_ : State} {s : State} (h_ : Keeps z_ s) : Keeps z_ (State.holdover s) := by
  refine h_.trans ?_; clear h_
  unfold State.holdover; try dsimp only
  repeat' (first | with_reducible exact Keeps.refl _ | with_reducible refine State.setHt_keeps ?_ | split)

theorem execStandbyEntry_keeps {s : State} : ResKeeps s (execStandbyEntry s) := by
  unfold execStandbyEntry; try dsimp only
  repeat' (first
    | with_reducible exact Keeps.refl _ | with_reducible refine ResKeeps.when (fun _ => ?_) | with_reducible refine State.portDown_keeps ?_
    | with_reducible refine State.stopClocks_keeps ?_ | with_reducible refine State.settleLog_keeps ?_
    | with_reducible refine State.holdover_keeps ?_ | with_reducible refine Keeps.forAll ?_ (fun _ _ => ?_)
    | (fail_if_no_progress with_reducible refine Keeps.upd ?_ rfl rfl rfl rfl rfl rfl rfl rfl rfl rfl))

theorem State.wake_keeps {z_ : State} {s : State} (h_ : Keeps z_ s) : Keeps z_ (State.wake s) := by
  refine h_.trans ?_; clear h_
  unfold State.wake; try dsimp only
  repeat' (first
    | with_reducible exact Keeps.refl _ | with_reducible refine State.portTry_keeps ?_ | with_reducible refine State.afterSleep_keeps ?_
    | with_reducible refine Keeps.forAll ?_ (fun _ _ => ?_) | with_reducible refine Keeps.ite (fun _ => ?_) (fun _ => ?_)
    | (fail_if_no_progress with_reducible refine Keeps.upd ?_ rfl rfl rfl rfl rfl rfl rfl rfl rfl rfl))

theorem execStandbyWake_keeps {s : State} : ResKeeps s (execStandbyWake s) := by
  unfold execStandbyWake; try dsimp only
  repeat' (first | with_reducible exact Keeps.refl _ | with_reducible refine ResKeeps.when (fun _ => ?_) | with_reducible refine State.wake_keeps ?_)

theorem execPerstEdge_keeps {s : State} : ResKeeps s (execPerstEdge s) := by
  unfold execPerstEdge; try dsimp only
  repeat' (first
    | with_reducible exact Keeps.refl _ | with_reducible refine ResKeeps.when (fun _ => ?_) | with_reducible refine State.setFn_keeps ?_
    | with_reducible refine State.raise_keeps ?_ | with_reducible refine State.startL3_keeps ?_
    | with_reducible refine State.dropReplies_keeps ?_ | with_reducible refine Keeps.forAll ?_ (fun _ _ => ?_)
    | (fail_if_no_progress with_reducible refine Keeps.upd ?_ rfl rfl rfl rfl rfl rfl rfl rfl rfl rfl))

theorem execPerstRise_keeps {s : State} : ResKeeps s (execPerstRise s) := by
  unfold execPerstRise; try dsimp only
  repeat' (first
    | with_reducible exact Keeps.refl _ | with_reducible refine ResKeeps.when (fun _ => ?_)
    | (fail_if_no_progress with_reducible refine Keeps.upd ?_ rfl rfl rfl rfl rfl rfl rfl rfl rfl rfl))

theorem State.goingAway_keeps {z_ : State} {s : State} (h_ : Keeps z_ s) : Keeps z_ (State.goingAway s) := by
  refine h_.trans ?_; clear h_
  unfold State.goingAway; try dsimp only
  repeat' (first
    | with_reducible exact Keeps.refl _ | with_reducible refine State.sendSym_keeps ?_ | with_reducible refine State.flushSyms_keeps ?_
    | with_reducible refine Keeps.forAll ?_ (fun _ _ => ?_))

theorem execPowerFail_keeps {s : State} : ResKeeps s (execPowerFail s) := by
  unfold execPowerFail; try dsimp only
  repeat' (first
    | with_reducible exact Keeps.refl _ | with_reducible refine ResKeeps.when (fun _ => ?_) | with_reducible refine State.raise_keeps ?_
    | with_reducible refine State.stopClocks_keeps ?_ | with_reducible refine State.goingAway_keeps ?_
    | with_reducible refine Keeps.ite (fun _ => ?_) (fun _ => ?_)
    | (fail_if_no_progress with_reducible refine Keeps.upd ?_ rfl rfl rfl rfl rfl rfl rfl rfl rfl rfl))

theorem State.logPowerFail_keeps {z_ : State} {s : State} (h_ : Keeps z_ s) : Keeps z_ (State.logPowerFail s) := by
  refine h_.trans ?_; clear h_
  unfold State.logPowerFail; try dsimp only
  repeat' (first
    | with_reducible exact Keeps.refl _ | with_reducible refine State.passLatch_keeps ?_ | with_reducible refine State.logStep_keeps ?_
    | with_reducible refine Keeps.forAll ?_ (fun _ _ => ?_) | with_reducible refine Keeps.ite (fun _ => ?_) (fun _ => ?_))

theorem execPfRise_keeps {s : State} : ResKeeps s (execPfRise s) := by
  unfold execPfRise; try dsimp only
  repeat' (first
    | with_reducible exact Keeps.refl _ | with_reducible refine ResKeeps.when (fun _ => ?_) | with_reducible refine State.progIfDue_keeps ?_
    | with_reducible refine State.startL3_keeps ?_ | with_reducible refine State.logPowerFail_keeps ?_
    | with_reducible refine Keeps.ite (fun _ => ?_) (fun _ => ?_)
    | (fail_if_no_progress with_reducible refine Keeps.upd ?_ rfl rfl rfl rfl rfl rfl rfl rfl rfl rfl))

theorem execBootSample_keeps {boot : BitVec 3} {s : State} : ResKeeps s (execBootSample boot s) := by
  unfold execBootSample; try dsimp only
  repeat' (first
    | with_reducible exact Keeps.refl _ | with_reducible refine ResKeeps.when (fun _ => ?_)
    | (fail_if_no_progress with_reducible refine Keeps.upd ?_ rfl rfl rfl rfl rfl rfl rfl rfl rfl rfl))

theorem execMsixModerationTimeout_keeps {pf : Nat} {vec : Nat} {s : State} : ResKeeps s (execMsixModerationTimeout pf vec s) := by
  unfold execMsixModerationTimeout; try dsimp only
  repeat' (first
    | with_reducible exact Keeps.refl _ | with_reducible exact ResKeeps.fault _ _ | with_reducible refine ResKeeps.when (fun _ => ?_)
    | with_reducible refine State.fireVec_keeps ?_ | with_reducible refine ResKeeps.ite (fun _ => ?_) (fun _ => ?_))

theorem State.unmask_keeps {z_ : State} {s : State} {f : Nat} {v : Nat} (h_ : Keeps z_ s) : Keeps z_ (State.unmask s f v) := by
  refine h_.trans ?_; clear h_
  unfold State.unmask; try dsimp only
  repeat' (first
    | with_reducible exact Keeps.refl _ | with_reducible refine State.setFn_keeps ?_ | with_reducible refine State.fireVec_keeps ?_
    | with_reducible refine Keeps.ite (fun _ => ?_) (fun _ => ?_))

theorem execMsixUnmask_keeps {pf : Nat} {vec : Nat} {s : State} : ResKeeps s (execMsixUnmask pf vec s) := by
  unfold execMsixUnmask; try dsimp only
  repeat' (first
    | with_reducible exact Keeps.refl _ | with_reducible exact ResKeeps.fault _ _ | with_reducible refine ResKeeps.when (fun _ => ?_)
    | with_reducible refine State.unmask_keeps ?_ | with_reducible refine ResKeeps.ite (fun _ => ?_) (fun _ => ?_))

theorem State.setL1_keeps {z_ : State} {s : State} {b : Bool} (h_ : Keeps z_ s) : Keeps z_ (State.setL1 s b) := by
  refine h_.trans ?_; clear h_
  unfold State.setL1; try dsimp only
  repeat' (first
    | with_reducible exact Keeps.refl _ | (fail_if_no_progress with_reducible refine Keeps.upd ?_ rfl rfl rfl rfl rfl rfl rfl rfl rfl rfl))

theorem execPcieL1Entry_keeps {s : State} : ResKeeps s (execPcieL1Entry s) := by
  unfold execPcieL1Entry; try dsimp only
  repeat' (first
    | with_reducible exact Keeps.refl _ | with_reducible refine ResKeeps.when (fun _ => ?_) | with_reducible refine State.flush_keeps ?_
    | with_reducible refine State.setL1_keeps ?_)

theorem execD3hotEntry_keeps {pf : Nat} {pmeEn : Bool} {s : State} : ResKeeps s (execD3hotEntry pf pmeEn s) := by
  unfold execD3hotEntry; try dsimp only
  repeat' (first
    | with_reducible exact Keeps.refl _ | with_reducible exact ResKeeps.fault _ _ | with_reducible refine ResKeeps.when (fun _ => ?_)
    | with_reducible refine State.setFn_keeps ?_ | with_reducible refine State.flush_keeps ?_ | with_reducible refine State.setL1_keeps ?_
    | with_reducible refine Keeps.ite (fun _ => ?_) (fun _ => ?_) | with_reducible refine ResKeeps.ite (fun _ => ?_) (fun _ => ?_))

theorem execD0Return_keeps {pf : Nat} {s : State} : ResKeeps s (execD0Return pf s) := by
  unfold execD0Return; try dsimp only
  repeat' (first
    | with_reducible exact Keeps.refl _ | with_reducible exact ResKeeps.fault _ _ | with_reducible refine ResKeeps.when (fun _ => ?_)
    | with_reducible refine State.setFn_keeps ?_ | with_reducible refine State.fireVec_keeps ?_ | with_reducible refine State.setL1_keeps ?_
    | with_reducible refine Keeps.forAll ?_ (fun _ _ => ?_) | with_reducible refine Keeps.ite (fun _ => ?_) (fun _ => ?_)
    | with_reducible refine ResKeeps.ite (fun _ => ?_) (fun _ => ?_))

theorem execPmeTurnOff_keeps {s : State} : ResKeeps s (execPmeTurnOff s) := by
  unfold execPmeTurnOff; try dsimp only
  repeat' (first
    | with_reducible exact Keeps.refl _ | with_reducible refine ResKeeps.when (fun _ => ?_) | with_reducible refine State.pmeAckIfDone_keeps ?_
    | (fail_if_no_progress with_reducible refine Keeps.upd ?_ rfl rfl rfl rfl rfl rfl rfl rfl rfl rfl))

theorem execBar0LowWordRead_keeps {pf : Nat} {a : BarRead} {s : State} : ResKeeps s (execBar0LowWordRead pf a s) := by
  unfold execBar0LowWordRead; try dsimp only
  repeat' (first
    | with_reducible exact Keeps.refl _ | with_reducible exact ResKeeps.fault _ _ | with_reducible refine ResKeeps.next ?_
    | with_reducible refine State.setFn_keeps ?_ | with_reducible refine State.emit_keeps ?_ | with_reducible refine State.setL1_keeps ?_
    | with_reducible refine ResKeeps.ite (fun _ => ?_) (fun _ => ?_))

theorem State.modDie_keeps {z_ : State} {s : State} {d : Nat} {f : Die → Die} (h_ : Keeps z_ s) : Keeps z_ (State.modDie s d f) := by
  refine h_.trans ?_; clear h_
  unfold State.modDie; try dsimp only
  repeat' (first | with_reducible exact Keeps.refl _ | with_reducible refine State.setDie_keeps ?_)

theorem State.modRst_keeps {z_ : State} {s : State} {d : Nat} {f : DieRst → DieRst} (h_ : Keeps z_ s) : Keeps z_ (State.modRst s d f) := by
  refine h_.trans ?_; clear h_
  unfold State.modRst; try dsimp only
  repeat' (first | with_reducible exact Keeps.refl _ | with_reducible refine State.modDie_keeps ?_)

theorem State.modStr_keeps {z_ : State} {s : State} {d : Nat} {f : DieStr → DieStr} (h_ : Keeps z_ s) : Keeps z_ (State.modStr s d f) := by
  refine h_.trans ?_; clear h_
  unfold State.modStr; try dsimp only
  repeat' (first | with_reducible exact Keeps.refl _ | with_reducible refine State.modDie_keeps ?_)

theorem State.modFlg_keeps {z_ : State} {s : State} {d : Nat} {f : DieFlg → DieFlg} (h_ : Keeps z_ s) : Keeps z_ (State.modFlg s d f) := by
  refine h_.trans ?_; clear h_
  unfold State.modFlg; try dsimp only
  repeat' (first | with_reducible exact Keeps.refl _ | with_reducible refine State.modDie_keeps ?_)

theorem State.wrSs_keeps {z_ : State} {s : State} {d : Nat} {c : Nat} {o : Nat} {k : RegW} (h_ : Keeps z_ s) : Keeps z_ (State.wrSs s d c o k) := by
  refine h_.trans ?_; clear h_
  unfold State.wrSs; try dsimp only
  repeat' (first
    | with_reducible exact Keeps.refl _ | with_reducible refine State.setSs_keeps ?_
    | with_reducible refine Keeps.ite (fun _ => ?_) (fun _ => ?_))

theorem State.wrXch_keeps {z_ : State} {s : State} {d : Nat} {o : Nat} {k : RegW} (h_ : Keeps z_ s) : Keeps z_ (State.wrXch s d o k) := by
  refine h_.trans ?_; clear h_
  unfold State.wrXch; try dsimp only
  repeat' (first
    | with_reducible exact Keeps.refl _ | with_reducible refine State.modDie_keeps ?_ | with_reducible refine State.wrSs_keeps ?_
    | with_reducible refine Keeps.ite (fun _ => ?_) (fun _ => ?_))

theorem State.wrClv_keeps {z_ : State} {s : State} {d : Nat} {o : Nat} {k : RegW} (h_ : Keeps z_ s) : Keeps z_ (State.wrClv s d o k) := by
  refine h_.trans ?_; clear h_
  unfold State.wrClv; try dsimp only
  repeat' (first
    | with_reducible exact Keeps.refl _ | with_reducible refine State.setCluster_keeps ?_
    | with_reducible refine Keeps.ite (fun _ => ?_) (fun _ => ?_))

theorem State.wrFres_keeps {z_ : State} {s : State} {d : Nat} {f : Nat} {v : W64} (h_ : Keeps z_ s) : Keeps z_ (State.wrFres s d f v) := by
  refine h_.trans ?_; clear h_
  unfold State.wrFres; try dsimp only
  repeat' (first
    | with_reducible exact Keeps.refl _ | with_reducible refine State.fresResume_keeps ?_ | with_reducible refine State.fresAbort_keeps ?_
    | with_reducible refine Keeps.ite (fun _ => ?_) (fun _ => ?_))

theorem State.wrLink_keeps {z_ : State} {s : State} {d : Nat} {l : Nat} {v : W32} (h_ : Keeps z_ s) : Keeps z_ (State.wrLink s d l v) := by
  refine h_.trans ?_; clear h_
  unfold State.wrLink; try dsimp only
  repeat' (first
    | with_reducible exact Keeps.refl _ | with_reducible refine State.setLink_keeps ?_
    | with_reducible refine Keeps.ite (fun _ => ?_) (fun _ => ?_))

theorem State.wrStr_keeps {z_ : State} {s : State} {d : Nat} {o : Nat} {k : RegW} (h_ : Keeps z_ s) : Keeps z_ (State.wrStr s d o k) := by
  refine h_.trans ?_; clear h_
  unfold State.wrStr; try dsimp only
  repeat' (first
    | with_reducible exact Keeps.refl _ | with_reducible refine State.mmuInval_keeps ?_ | with_reducible refine State.modStr_keeps ?_
    | with_reducible refine State.wrFres_keeps ?_ | with_reducible refine State.wrLink_keeps ?_
    | with_reducible refine Keeps.ite (fun _ => ?_) (fun _ => ?_))

theorem State.wrChk_keeps {z_ : State} {s : State} {d : Nat} {o : Nat} {k : RegW} (h_ : Keeps z_ s) : Keeps z_ (State.wrChk s d o k) := by
  refine h_.trans ?_; clear h_
  unfold State.wrChk; try dsimp only
  repeat' (first
    | with_reducible exact Keeps.refl _ | with_reducible refine State.setChk_keeps ?_
    | with_reducible refine Keeps.ite (fun _ => ?_) (fun _ => ?_))

theorem State.wrFlg_keeps {z_ : State} {s : State} {d : Nat} {o : Nat} {k : RegW} (h_ : Keeps z_ s) : Keeps z_ (State.wrFlg s d o k) := by
  refine h_.trans ?_; clear h_
  unfold State.wrFlg; try dsimp only
  repeat' (first
    | with_reducible exact Keeps.refl _ | with_reducible refine State.modFlg_keeps ?_
    | with_reducible refine Keeps.ite (fun _ => ?_) (fun _ => ?_))

theorem State.modWatch_keeps {z_ : State} {s : State} {d : Nat} {w : Nat} {f : Watch → Watch} (h_ : Keeps z_ s) : Keeps z_ (State.modWatch s d w f) := by
  refine h_.trans ?_; clear h_
  unfold State.modWatch; try dsimp only
  repeat' (first | with_reducible exact Keeps.refl _ | with_reducible refine State.modDie_keeps ?_)

theorem State.wrNum_keeps {z_ : State} {s : State} {d : Nat} {o : Nat} {k : RegW} (h_ : Keeps z_ s) : Keeps z_ (State.wrNum s d o k) := by
  refine h_.trans ?_; clear h_
  unfold State.wrNum; try dsimp only
  repeat' (first
    | with_reducible exact Keeps.refl _ | with_reducible refine State.modDie_keeps ?_ | with_reducible refine State.modWatch_keeps ?_
    | with_reducible refine Keeps.ite (fun _ => ?_) (fun _ => ?_))

theorem State.wrUlk_keeps {z_ : State} {s : State} {d : Nat} {o : Nat} {k : RegW} (h_ : Keeps z_ s) : Keeps z_ (State.wrUlk s d o k) := by
  refine h_.trans ?_; clear h_
  unfold State.wrUlk; try dsimp only
  repeat' (first
    | with_reducible exact Keeps.refl _ | with_reducible refine State.setXch_keeps ?_ | with_reducible refine State.setPortLink_keeps ?_
    | with_reducible refine State.linkCtl_keeps ?_ | with_reducible refine State.modDie_keeps ?_
    | with_reducible refine Keeps.ite (fun _ => ?_) (fun _ => ?_)
    | (fail_if_no_progress with_reducible refine Keeps.upd ?_ rfl rfl rfl rfl rfl rfl rfl rfl rfl rfl))

theorem State.wrThs_keeps {z_ : State} {s : State} {d : Nat} {o : Nat} {k : RegW} (h_ : Keeps z_ s) : Keeps z_ (State.wrThs s d o k) := by
  refine h_.trans ?_; clear h_
  unfold State.wrThs; try dsimp only
  repeat' (first
    | with_reducible exact Keeps.refl _ | with_reducible refine State.modDie_keeps ?_
    | with_reducible refine Keeps.ite (fun _ => ?_) (fun _ => ?_))

theorem State.wrRst_keeps {z_ : State} {s : State} {d : Nat} {o : Nat} {k : RegW} (h_ : Keeps z_ s) : Keeps z_ (State.wrRst s d o k) := by
  refine h_.trans ?_; clear h_
  unfold State.wrRst; try dsimp only
  repeat' (first
    | with_reducible exact Keeps.refl _ | with_reducible refine State.modRst_keeps ?_
    | with_reducible refine Keeps.ite (fun _ => ?_) (fun _ => ?_))

theorem State.wrHtm_keeps {z_ : State} {s : State} {d : Nat} {o : Nat} {k : RegW} (h_ : Keeps z_ s) : Keeps z_ (State.wrHtm s d o k) := by
  refine h_.trans ?_; clear h_
  unfold State.wrHtm; try dsimp only
  repeat' (first
    | with_reducible exact Keeps.refl _ | with_reducible refine State.setHt_keeps ?_
    | with_reducible refine Keeps.ite (fun _ => ?_) (fun _ => ?_))

theorem State.wrTil_keeps {z_ : State} {s : State} {d : Nat} {o : Nat} {k : RegW} (h_ : Keeps z_ s) : Keeps z_ (State.wrTil s d o k) := by
  refine h_.trans ?_; clear h_
  unfold State.wrTil; try dsimp only
  repeat' (first
    | with_reducible exact Keeps.refl _ | with_reducible refine State.modDie_keeps ?_
    | with_reducible refine Keeps.ite (fun _ => ?_) (fun _ => ?_))

theorem State.wrEvc_keeps {z_ : State} {s : State} {d : Nat} {o : Nat} {k : RegW} (h_ : Keeps z_ s) : Keeps z_ (State.wrEvc s d o k) := by
  refine h_.trans ?_; clear h_
  unfold State.wrEvc; try dsimp only
  repeat' (first
    | with_reducible exact Keeps.refl _ | with_reducible refine State.modEvc_keeps ?_ | with_reducible refine State.evcEoi_keeps ?_
    | with_reducible refine Keeps.ite (fun _ => ?_) (fun _ => ?_))

theorem State.wrDie_keeps {z_ : State} {s : State} {core : Bool} {d : Nat} {o : Nat} {k : RegW} (h_ : Keeps z_ s) : Keeps z_ (State.wrDie s core d o k) := by
  refine h_.trans ?_; clear h_
  unfold State.wrDie; try dsimp only
  repeat' (first
    | with_reducible exact Keeps.refl _ | with_reducible refine State.wrXch_keeps ?_ | with_reducible refine State.wrClv_keeps ?_
    | with_reducible refine State.wrStr_keeps ?_ | with_reducible refine State.wrChk_keeps ?_ | with_reducible refine State.wrFlg_keeps ?_
    | with_reducible refine State.wrNum_keeps ?_ | with_reducible refine State.wrUlk_keeps ?_ | with_reducible refine State.wrThs_keeps ?_
    | with_reducible refine State.wrRst_keeps ?_ | with_reducible refine State.wrHtm_keeps ?_ | with_reducible refine State.wrTil_keeps ?_
    | with_reducible refine State.wrEvc_keeps ?_ | split)

theorem State.wrBar0_keeps {z_ : State} {s : State} {f : Nat} {o : Nat} {k : RegW} (h_ : Keeps z_ s) : Keeps z_ (State.wrBar0 s f o k) := by
  refine h_.trans ?_; clear h_
  unfold State.wrBar0; try dsimp only
  repeat' (first
    | with_reducible exact Keeps.refl _ | with_reducible refine State.wrDie_keeps ?_
    | with_reducible refine Keeps.ite (fun _ => ?_) (fun _ => ?_))

theorem State.wrRing_keeps {z_ : State} {s : State} {r : RingRef} {o : Nat} {k : RegW} (h_ : Keeps z_ s) : Keeps z_ (State.wrRing s r o k) := by
  refine h_.trans ?_; clear h_
  unfold State.wrRing; try dsimp only
  repeat' (first
    | with_reducible exact Keeps.refl _ | with_reducible refine State.setRing_keeps ?_ | with_reducible refine State.doorbell_keeps ?_
    | with_reducible refine State.writeRctl_keeps ?_ | with_reducible refine Keeps.ite (fun _ => ?_) (fun _ => ?_))

theorem State.wrMsix_keeps {z_ : State} {s : State} {f : Nat} {v : Nat} {i : Nat} {w : W32} (h_ : Keeps z_ s) : Keeps z_ (State.wrMsix s f v i w) := by
  refine h_.trans ?_; clear h_
  unfold State.wrMsix; try dsimp only
  repeat' (first
    | with_reducible exact Keeps.refl _ | with_reducible refine State.setFn_keeps ?_ | with_reducible refine State.unmask_keeps ?_
    | with_reducible refine Keeps.ite (fun _ => ?_) (fun _ => ?_))

theorem State.wrBar2_keeps {z_ : State} {s : State} {f : Nat} {o : Nat} {k : RegW} (h_ : Keeps z_ s) : Keeps z_ (State.wrBar2 s f o k) := by
  refine h_.trans ?_; clear h_
  unfold State.wrBar2; try dsimp only
  repeat' (first
    | with_reducible exact Keeps.refl _ | with_reducible refine State.setFn_keeps ?_ | with_reducible refine State.wrRing_keeps ?_
    | with_reducible refine State.wrMsix_keeps ?_ | with_reducible refine Keeps.ite (fun _ => ?_) (fun _ => ?_))

theorem State.hostWrite_keeps {z_ : State} {s : State} {pf : Nat} {bar : Nat} {off : Nat} {v : RegValue} (h_ : Keeps z_ s) : Keeps z_ (State.hostWrite s pf bar off v) := by
  refine h_.trans ?_; clear h_
  unfold State.hostWrite; try dsimp only
  repeat' (first
    | with_reducible exact Keeps.refl _ | with_reducible refine State.emit_keeps ?_ | with_reducible refine State.setL1_keeps ?_
    | with_reducible refine State.wrBar0_keeps ?_ | with_reducible refine State.wrBar2_keeps ?_ | split)

theorem State.coreWrite_keeps {z_ : State} {s : State} {d : Nat} {off : Nat} {v : RegValue} (h_ : Keeps z_ s) : Keeps z_ (State.coreWrite s d off v) := by
  refine h_.trans ?_; clear h_
  unfold State.coreWrite; try dsimp only
  repeat' (first | with_reducible exact Keeps.refl _ | with_reducible refine State.wrDie_keeps ?_ | split)

theorem execRegisterWrite_keeps {who : RegBy} {bar : Nat} {off : Nat} {v : RegValue} {s : State} : ResKeeps s (execRegisterWrite who bar off v s) := by
  unfold execRegisterWrite; try dsimp only
  repeat' (first
    | with_reducible exact Keeps.refl _ | with_reducible exact ResKeeps.fault _ _ | with_reducible refine ResKeeps.when (fun _ => ?_)
    | with_reducible refine State.hostWrite_keeps ?_ | with_reducible refine State.coreWrite_keeps ?_ | split)

theorem execNumWctlClear_keeps {pf : Nat} {die : Nat} {slot : Nat} {v : W32} {s : State} : ResKeeps s (execNumWctlClear pf die slot v s) := by
  unfold execNumWctlClear; try dsimp only
  repeat' (first
    | with_reducible exact Keeps.refl _ | with_reducible exact ResKeeps.fault _ _ | with_reducible refine ResKeeps.when (fun _ => ?_)
    | with_reducible refine State.modWatch_keeps ?_ | with_reducible refine ResKeeps.ite (fun _ => ?_) (fun _ => ?_))

theorem State.apertureErr_keeps {z_ : State} {s : State} {f : Nat} {off : Nat} {a : HostAccess} (h_ : Keeps z_ s) : Keeps z_ (State.apertureErr s f off a) := by
  refine h_.trans ?_; clear h_
  unfold State.apertureErr; try dsimp only
  repeat' (first | with_reducible exact Keeps.refl _ | with_reducible refine State.setFn_keeps ?_ | with_reducible refine State.emit_keeps ?_ | split)

theorem State.apertureGo_keeps {z_ : State} {s : State} {f : Nat} {off : Nat} {a : HostAccess} (h_ : Keeps z_ s) : Keeps z_ (State.apertureGo s f off a) := by
  refine h_.trans ?_; clear h_
  unfold State.apertureGo; try dsimp only
  repeat' (first
    | with_reducible exact Keeps.refl _ | with_reducible refine State.emit_keeps ?_ | with_reducible refine State.paWrite_keeps ?_ | split)

theorem execBar4Access_keeps {pf : Nat} {off : Nat} {a : HostAccess} {s : State} : ResKeeps s (execBar4Access pf off a s) := by
  unfold execBar4Access; try dsimp only
  repeat' (first
    | with_reducible exact Keeps.refl _ | with_reducible exact ResKeeps.fault _ _ | with_reducible refine ResKeeps.next ?_
    | with_reducible refine State.emit_keeps ?_ | with_reducible refine State.touch_keeps ?_ | with_reducible refine State.setL1_keeps ?_
    | with_reducible refine State.apertureErr_keeps ?_ | with_reducible refine State.apertureGo_keeps ?_
    | with_reducible refine Keeps.ite (fun _ => ?_) (fun _ => ?_) | with_reducible refine ResKeeps.ite (fun _ => ?_) (fun _ => ?_))

theorem State.alu_keeps {z_ : State} {s : State} {r : IssueRef} {f : Fields} {g : Thread → W64} (h_ : Keeps z_ s) : Keeps z_ (State.alu s r f g) := by
  refine h_.trans ?_; clear h_
  unfold State.alu; try dsimp only
  repeat' (first | with_reducible exact Keeps.refl _ | with_reducible refine State.modThread_keeps ?_)

theorem execAdd_keeps {r : IssueRef} {f : Fields} {s : State} : ResKeeps s (execAdd r f s) := by
  unfold execAdd; try dsimp only
  repeat' (first | with_reducible exact Keeps.refl _ | with_reducible refine State.alu_keeps ?_ | with_reducible refine issue_keeps (fun _ _ => ?_))

theorem execSub_keeps {r : IssueRef} {f : Fields} {s : State} : ResKeeps s (execSub r f s) := by
  unfold execSub; try dsimp only
  repeat' (first | with_reducible exact Keeps.refl _ | with_reducible refine State.alu_keeps ?_ | with_reducible refine issue_keeps (fun _ _ => ?_))

theorem execAnd_keeps {r : IssueRef} {f : Fields} {s : State} : ResKeeps s (execAnd r f s) := by
  unfold execAnd; try dsimp only
  repeat' (first | with_reducible exact Keeps.refl _ | with_reducible refine State.alu_keeps ?_ | with_reducible refine issue_keeps (fun _ _ => ?_))

theorem execOr_keeps {r : IssueRef} {f : Fields} {s : State} : ResKeeps s (execOr r f s) := by
  unfold execOr; try dsimp only
  repeat' (first | with_reducible exact Keeps.refl _ | with_reducible refine State.alu_keeps ?_ | with_reducible refine issue_keeps (fun _ _ => ?_))

theorem execXor_keeps {r : IssueRef} {f : Fields} {s : State} : ResKeeps s (execXor r f s) := by
  unfold execXor; try dsimp only
  repeat' (first | with_reducible exact Keeps.refl _ | with_reducible refine State.alu_keeps ?_ | with_reducible refine issue_keeps (fun _ _ => ?_))

theorem execShl_keeps {r : IssueRef} {f : Fields} {s : State} : ResKeeps s (execShl r f s) := by
  unfold execShl; try dsimp only
  repeat' (first | with_reducible exact Keeps.refl _ | with_reducible refine State.alu_keeps ?_ | with_reducible refine issue_keeps (fun _ _ => ?_))

theorem execShr_keeps {r : IssueRef} {f : Fields} {s : State} : ResKeeps s (execShr r f s) := by
  unfold execShr; try dsimp only
  repeat' (first | with_reducible exact Keeps.refl _ | with_reducible refine State.alu_keeps ?_ | with_reducible refine issue_keeps (fun _ _ => ?_))

theorem execSra_keeps {r : IssueRef} {f : Fields} {s : State} : ResKeeps s (execSra r f s) := by
  unfold execSra; try dsimp only
  repeat' (first | with_reducible exact Keeps.refl _ | with_reducible refine State.alu_keeps ?_ | with_reducible refine issue_keeps (fun _ _ => ?_))

theorem execMul_keeps {r : IssueRef} {f : Fields} {s : State} : ResKeeps s (execMul r f s) := by
  unfold execMul; try dsimp only
  repeat' (first | with_reducible exact Keeps.refl _ | with_reducible refine State.alu_keeps ?_ | with_reducible refine issue_keeps (fun _ _ => ?_))

theorem execMulhu_keeps {r : IssueRef} {f : Fields} {s : State} : ResKeeps s (execMulhu r f s) := by
  unfold execMulhu; try dsimp only
  repeat' (first | with_reducible exact Keeps.refl _ | with_reducible refine State.alu_keeps ?_ | with_reducible refine issue_keeps (fun _ _ => ?_))

theorem execMulhs_keeps {r : IssueRef} {f : Fields} {s : State} : ResKeeps s (execMulhs r f s) := by
  unfold execMulhs; try dsimp only
  repeat' (first | with_reducible exact Keeps.refl _ | with_reducible refine State.alu_keeps ?_ | with_reducible refine issue_keeps (fun _ _ => ?_))

theorem execMin_keeps {r : IssueRef} {f : Fields} {s : State} : ResKeeps s (execMin r f s) := by
  unfold execMin; try dsimp only
  repeat' (first | with_reducible exact Keeps.refl _ | with_reducible refine State.alu_keeps ?_ | with_reducible refine issue_keeps (fun _ _ => ?_))

theorem execMax_keeps {r : IssueRef} {f : Fields} {s : State} : ResKeeps s (execMax r f s) := by
  unfold execMax; try dsimp only
  repeat' (first | with_reducible exact Keeps.refl _ | with_reducible refine State.alu_keeps ?_ | with_reducible refine issue_keeps (fun _ _ => ?_))

theorem execMinu_keeps {r : IssueRef} {f : Fields} {s : State} : ResKeeps s (execMinu r f s) := by
  unfold execMinu; try dsimp only
  repeat' (first | with_reducible exact Keeps.refl _ | with_reducible refine State.alu_keeps ?_ | with_reducible refine issue_keeps (fun _ _ => ?_))

theorem execMaxu_keeps {r : IssueRef} {f : Fields} {s : State} : ResKeeps s (execMaxu r f s) := by
  unfold execMaxu; try dsimp only
  repeat' (first | with_reducible exact Keeps.refl _ | with_reducible refine State.alu_keeps ?_ | with_reducible refine issue_keeps (fun _ _ => ?_))

theorem execSlt_keeps {r : IssueRef} {f : Fields} {s : State} : ResKeeps s (execSlt r f s) := by
  unfold execSlt; try dsimp only
  repeat' (first | with_reducible exact Keeps.refl _ | with_reducible refine State.alu_keeps ?_ | with_reducible refine issue_keeps (fun _ _ => ?_))

theorem execSltu_keeps {r : IssueRef} {f : Fields} {s : State} : ResKeeps s (execSltu r f s) := by
  unfold execSltu; try dsimp only
  repeat' (first | with_reducible exact Keeps.refl _ | with_reducible refine State.alu_keeps ?_ | with_reducible refine issue_keeps (fun _ _ => ?_))

theorem execSeq_keeps {r : IssueRef} {f : Fields} {s : State} : ResKeeps s (execSeq r f s) := by
  unfold execSeq; try dsimp only
  repeat' (first | with_reducible exact Keeps.refl _ | with_reducible refine State.alu_keeps ?_ | with_reducible refine issue_keeps (fun _ _ => ?_))

theorem execSel_keeps {r : IssueRef} {f : Fields} {s : State} : ResKeeps s (execSel r f s) := by
  unfold execSel; try dsimp only
  repeat' (first | with_reducible exact Keeps.refl _ | with_reducible refine State.alu_keeps ?_ | with_reducible refine issue_keeps (fun _ _ => ?_))

theorem execClz_keeps {r : IssueRef} {f : Fields} {s : State} : ResKeeps s (execClz r f s) := by
  unfold execClz; try dsimp only
  repeat' (first | with_reducible exact Keeps.refl _ | with_reducible refine State.alu_keeps ?_ | with_reducible refine issue_keeps (fun _ _ => ?_))

theorem execPopc_keeps {r : IssueRef} {f : Fields} {s : State} : ResKeeps s (execPopc r f s) := by
  unfold execPopc; try dsimp only
  repeat' (first | with_reducible exact Keeps.refl _ | with_reducible refine State.alu_keeps ?_ | with_reducible refine issue_keeps (fun _ _ => ?_))

theorem execMovi_keeps {r : IssueRef} {f : Fields} {s : State} : ResKeeps s (execMovi r f s) := by
  unfold execMovi; try dsimp only
  repeat' (first | with_reducible exact Keeps.refl _ | with_reducible refine State.alu_keeps ?_ | with_reducible refine issue_keeps (fun _ _ => ?_))

theorem execMovhi_keeps {r : IssueRef} {f : Fields} {s : State} : ResKeeps s (execMovhi r f s) := by
  unfold execMovhi; try dsimp only
  repeat' (first | with_reducible exact Keeps.refl _ | with_reducible refine State.alu_keeps ?_ | with_reducible refine issue_keeps (fun _ _ => ?_))

theorem execRdtid_keeps {r : IssueRef} {f : Fields} {s : State} : ResKeeps s (execRdtid r f s) := by
  unfold execRdtid; try dsimp only
  repeat' (first | with_reducible exact Keeps.refl _ | with_reducible refine State.alu_keeps ?_ | with_reducible refine issue_keeps (fun _ _ => ?_))

theorem execRdthr_keeps {r : IssueRef} {f : Fields} {s : State} : ResKeeps s (execRdthr r f s) := by
  unfold execRdthr; try dsimp only
  repeat' (first | with_reducible exact Keeps.refl _ | with_reducible refine State.alu_keeps ?_ | with_reducible refine issue_keeps (fun _ _ => ?_))

theorem execRdssn_keeps {r : IssueRef} {f : Fields} {s : State} : ResKeeps s (execRdssn r f s) := by
  unfold execRdssn; try dsimp only
  repeat' (first | with_reducible exact Keeps.refl _ | with_reducible refine State.alu_keeps ?_ | with_reducible refine issue_keeps (fun _ _ => ?_))

theorem execRdht_keeps {r : IssueRef} {f : Fields} {s : State} : ResKeeps s (execRdht r f s) := by
  unfold execRdht; try dsimp only
  repeat' (first | with_reducible exact Keeps.refl _ | with_reducible refine State.alu_keeps ?_ | with_reducible refine issue_keeps (fun _ _ => ?_))

end Sys2Proof.Machine
end

