-- ==== Sys2Proof/Laws/State.lean ====
section
/-!
SUPPORT. What each part of the state is after each update: one lemma for each field and update, true by definition.
-/

namespace Sys2Proof.Machine

/-! ### setTile -/

@[simp] theorem State.setTile_pending (s : State) (k : Nat) (x : Tile) : (s.setTile k x).pending = s.pending := rfl
@[simp] theorem State.setTile_ht (s : State) (k : Nat) (x : Tile) : (s.setTile k x).ht = s.ht := rfl
@[simp] theorem State.setTile_plat (s : State) (k : Nat) (x : Tile) : (s.setTile k x).plat = s.plat := rfl
@[simp] theorem State.setTile_fuses (s : State) (k : Nat) (x : Tile) : (s.setTile k x).fuses = s.fuses := rfl
@[simp] theorem State.setTile_cfg (s : State) (k : Nat) (x : Tile) : (s.setTile k x).cfg = s.cfg := rfl
@[simp] theorem State.setTile_pair (s : State) (k : Nat) (x : Tile) : (s.setTile k x).pair = s.pair := rfl
@[simp] theorem State.setTile_layout (s : State) (k : Nat) (x : Tile) : (s.setTile k x).layout = s.layout := rfl
@[simp] theorem State.setTile_parts (s : State) (k : Nat) (x : Tile) : (s.setTile k x).parts = s.parts := rfl
@[simp] theorem State.setTile_ctxs (s : State) (k : Nat) (x : Tile) : (s.setTile k x).ctxs = s.ctxs := rfl
@[simp] theorem State.setTile_clusters (s : State) (k : Nat) (x : Tile) : (s.setTile k x).clusters = s.clusters := rfl
@[simp] theorem State.setTile_dies (s : State) (k : Nat) (x : Tile) : (s.setTile k x).dies = s.dies := rfl
@[simp] theorem State.setTile_ports (s : State) (k : Nat) (x : Tile) : (s.setTile k x).ports = s.ports := rfl
@[simp] theorem State.setTile_fns (s : State) (k : Nat) (x : Tile) : (s.setTile k x).fns = s.fns := rfl
@[simp] theorem State.setTile_hbm (s : State) (k : Nat) (x : Tile) : (s.setTile k x).hbm = s.hbm := rfl
@[simp] theorem State.setTile_hostMem (s : State) (k : Nat) (x : Tile) : (s.setTile k x).hostMem = s.hostMem := rfl
@[simp] theorem State.setTile_wins (s : State) (k : Nat) (x : Tile) : (s.setTile k x).wins = s.wins := rfl
@[simp] theorem State.setTile_flights (s : State) (k : Nat) (x : Tile) : (s.setTile k x).flights = s.flights := rfl
@[simp] theorem State.setTile_lanes (s : State) (k : Nat) (x : Tile) : (s.setTile k x).lanes = s.lanes := rfl
@[simp] theorem State.setTile_freqs (s : State) (k : Nat) (x : Tile) : (s.setTile k x).freqs = s.freqs := rfl
@[simp] theorem State.setTile_log (s : State) (k : Nat) (x : Tile) : (s.setTile k x).log = s.log := rfl
@[simp] theorem State.setTile_resets (s : State) (k : Nat) (x : Tile) : (s.setTile k x).resets = s.resets := rfl
@[simp] theorem State.setTile_free (s : State) (k : Nat) (x : Tile) : (s.setTile k x).free = s.free := rfl
@[simp] theorem State.setTile_outs (s : State) (k : Nat) (x : Tile) : (s.setTile k x).outs = s.outs := rfl
@[simp] theorem State.setTile_fresh (s : State) (k : Nat) (x : Tile) : (s.setTile k x).fresh = s.fresh := rfl
@[simp] theorem State.setTile_tap (s : State) (k : Nat) (x : Tile) : (s.setTile k x).tap = s.tap := rfl
@[simp] theorem State.setTile_i3cDyn (s : State) (k : Nat) (x : Tile) : (s.setTile k x).i3cDyn = s.i3cDyn := rfl
@[simp] theorem State.setTile_pins (s : State) (k : Nat) (x : Tile) : (s.setTile k x).pins = s.pins := rfl
@[simp] theorem State.setTile_tile (s : State) (k j : Nat) (x : Tile) : (s.setTile k x).tile j = if j = k then x else s.tile j := by
  simp only [State.tile, State.setTile, sget_sput]
@[simp] theorem State.setTile_cluster (s : State) (k : Nat) (j : Nat) (x : Tile) : (s.setTile k x).cluster j = s.cluster j := rfl
@[simp] theorem State.setTile_die (s : State) (k : Nat) (j : Nat) (x : Tile) : (s.setTile k x).die j = s.die j := rfl
@[simp] theorem State.setTile_port (s : State) (k : Nat) (j : Nat) (x : Tile) : (s.setTile k x).port j = s.port j := rfl
@[simp] theorem State.setTile_fn (s : State) (k : Nat) (j : Nat) (x : Tile) : (s.setTile k x).fn j = s.fn j := rfl
@[simp] theorem State.setTile_win (s : State) (k : Nat) (j : Nat) (x : Tile) : (s.setTile k x).win j = s.win j := rfl
@[simp] theorem State.setTile_ctx (s : State) (k : Nat) (j : CtxRef) (x : Tile) : (s.setTile k x).ctx j = s.ctx j := rfl
@[simp] theorem State.setTile_now (s : State) (k : Nat) (x : Tile) : (s.setTile k x).now = s.now := rfl

/-! ### setCluster -/

@[simp] theorem State.setCluster_pending (s : State) (k : Nat) (x : Cluster) : (s.setCluster k x).pending = s.pending := rfl
@[simp] theorem State.setCluster_ht (s : State) (k : Nat) (x : Cluster) : (s.setCluster k x).ht = s.ht := rfl
@[simp] theorem State.setCluster_plat (s : State) (k : Nat) (x : Cluster) : (s.setCluster k x).plat = s.plat := rfl
@[simp] theorem State.setCluster_fuses (s : State) (k : Nat) (x : Cluster) : (s.setCluster k x).fuses = s.fuses := rfl
@[simp] theorem State.setCluster_cfg (s : State) (k : Nat) (x : Cluster) : (s.setCluster k x).cfg = s.cfg := rfl
@[simp] theorem State.setCluster_pair (s : State) (k : Nat) (x : Cluster) : (s.setCluster k x).pair = s.pair := rfl
@[simp] theorem State.setCluster_layout (s : State) (k : Nat) (x : Cluster) : (s.setCluster k x).layout = s.layout := rfl
@[simp] theorem State.setCluster_parts (s : State) (k : Nat) (x : Cluster) : (s.setCluster k x).parts = s.parts := rfl
@[simp] theorem State.setCluster_ctxs (s : State) (k : Nat) (x : Cluster) : (s.setCluster k x).ctxs = s.ctxs := rfl
@[simp] theorem State.setCluster_tiles (s : State) (k : Nat) (x : Cluster) : (s.setCluster k x).tiles = s.tiles := rfl
@[simp] theorem State.setCluster_dies (s : State) (k : Nat) (x : Cluster) : (s.setCluster k x).dies = s.dies := rfl
@[simp] theorem State.setCluster_ports (s : State) (k : Nat) (x : Cluster) : (s.setCluster k x).ports = s.ports := rfl
@[simp] theorem State.setCluster_fns (s : State) (k : Nat) (x : Cluster) : (s.setCluster k x).fns = s.fns := rfl
@[simp] theorem State.setCluster_hbm (s : State) (k : Nat) (x : Cluster) : (s.setCluster k x).hbm = s.hbm := rfl
@[simp] theorem State.setCluster_hostMem (s : State) (k : Nat) (x : Cluster) : (s.setCluster k x).hostMem = s.hostMem := rfl
@[simp] theorem State.setCluster_wins (s : State) (k : Nat) (x : Cluster) : (s.setCluster k x).wins = s.wins := rfl
@[simp] theorem State.setCluster_flights (s : State) (k : Nat) (x : Cluster) : (s.setCluster k x).flights = s.flights := rfl
@[simp] theorem State.setCluster_lanes (s : State) (k : Nat) (x : Cluster) : (s.setCluster k x).lanes = s.lanes := rfl
@[simp] theorem State.setCluster_freqs (s : State) (k : Nat) (x : Cluster) : (s.setCluster k x).freqs = s.freqs := rfl
@[simp] theorem State.setCluster_log (s : State) (k : Nat) (x : Cluster) : (s.setCluster k x).log = s.log := rfl
@[simp] theorem State.setCluster_resets (s : State) (k : Nat) (x : Cluster) : (s.setCluster k x).resets = s.resets := rfl
@[simp] theorem State.setCluster_free (s : State) (k : Nat) (x : Cluster) : (s.setCluster k x).free = s.free := rfl
@[simp] theorem State.setCluster_outs (s : State) (k : Nat) (x : Cluster) : (s.setCluster k x).outs = s.outs := rfl
@[simp] theorem State.setCluster_fresh (s : State) (k : Nat) (x : Cluster) : (s.setCluster k x).fresh = s.fresh := rfl
@[simp] theorem State.setCluster_tap (s : State) (k : Nat) (x : Cluster) : (s.setCluster k x).tap = s.tap := rfl
@[simp] theorem State.setCluster_i3cDyn (s : State) (k : Nat) (x : Cluster) : (s.setCluster k x).i3cDyn = s.i3cDyn := rfl
@[simp] theorem State.setCluster_pins (s : State) (k : Nat) (x : Cluster) : (s.setCluster k x).pins = s.pins := rfl
@[simp] theorem State.setCluster_tile (s : State) (k : Nat) (j : Nat) (x : Cluster) : (s.setCluster k x).tile j = s.tile j := rfl
@[simp] theorem State.setCluster_cluster (s : State) (k j : Nat) (x : Cluster) : (s.setCluster k x).cluster j = if j = k then x else s.cluster j := by
  simp only [State.cluster, State.setCluster, sget_sput]
@[simp] theorem State.setCluster_die (s : State) (k : Nat) (j : Nat) (x : Cluster) : (s.setCluster k x).die j = s.die j := rfl
@[simp] theorem State.setCluster_port (s : State) (k : Nat) (j : Nat) (x : Cluster) : (s.setCluster k x).port j = s.port j := rfl
@[simp] theorem State.setCluster_fn (s : State) (k : Nat) (j : Nat) (x : Cluster) : (s.setCluster k x).fn j = s.fn j := rfl
@[simp] theorem State.setCluster_win (s : State) (k : Nat) (j : Nat) (x : Cluster) : (s.setCluster k x).win j = s.win j := rfl
@[simp] theorem State.setCluster_ctx (s : State) (k : Nat) (j : CtxRef) (x : Cluster) : (s.setCluster k x).ctx j = s.ctx j := rfl
@[simp] theorem State.setCluster_now (s : State) (k : Nat) (x : Cluster) : (s.setCluster k x).now = s.now := rfl

/-! ### setDie -/

@[simp] theorem State.setDie_pending (s : State) (k : Nat) (x : Die) : (s.setDie k x).pending = s.pending := rfl
@[simp] theorem State.setDie_ht (s : State) (k : Nat) (x : Die) : (s.setDie k x).ht = s.ht := rfl
@[simp] theorem State.setDie_plat (s : State) (k : Nat) (x : Die) : (s.setDie k x).plat = s.plat := rfl
@[simp] theorem State.setDie_fuses (s : State) (k : Nat) (x : Die) : (s.setDie k x).fuses = s.fuses := rfl
@[simp] theorem State.setDie_cfg (s : State) (k : Nat) (x : Die) : (s.setDie k x).cfg = s.cfg := rfl
@[simp] theorem State.setDie_pair (s : State) (k : Nat) (x : Die) : (s.setDie k x).pair = s.pair := rfl
@[simp] theorem State.setDie_layout (s : State) (k : Nat) (x : Die) : (s.setDie k x).layout = s.layout := rfl
@[simp] theorem State.setDie_parts (s : State) (k : Nat) (x : Die) : (s.setDie k x).parts = s.parts := rfl
@[simp] theorem State.setDie_ctxs (s : State) (k : Nat) (x : Die) : (s.setDie k x).ctxs = s.ctxs := rfl
@[simp] theorem State.setDie_tiles (s : State) (k : Nat) (x : Die) : (s.setDie k x).tiles = s.tiles := rfl
@[simp] theorem State.setDie_clusters (s : State) (k : Nat) (x : Die) : (s.setDie k x).clusters = s.clusters := rfl
@[simp] theorem State.setDie_ports (s : State) (k : Nat) (x : Die) : (s.setDie k x).ports = s.ports := rfl
@[simp] theorem State.setDie_fns (s : State) (k : Nat) (x : Die) : (s.setDie k x).fns = s.fns := rfl
@[simp] theorem State.setDie_hbm (s : State) (k : Nat) (x : Die) : (s.setDie k x).hbm = s.hbm := rfl
@[simp] theorem State.setDie_hostMem (s : State) (k : Nat) (x : Die) : (s.setDie k x).hostMem = s.hostMem := rfl
@[simp] theorem State.setDie_wins (s : State) (k : Nat) (x : Die) : (s.setDie k x).wins = s.wins := rfl
@[simp] theorem State.setDie_flights (s : State) (k : Nat) (x : Die) : (s.setDie k x).flights = s.flights := rfl
@[simp] theorem State.setDie_lanes (s : State) (k : Nat) (x : Die) : (s.setDie k x).lanes = s.lanes := rfl
@[simp] theorem State.setDie_freqs (s : State) (k : Nat) (x : Die) : (s.setDie k x).freqs = s.freqs := rfl
@[simp] theorem State.setDie_log (s : State) (k : Nat) (x : Die) : (s.setDie k x).log = s.log := rfl
@[simp] theorem State.setDie_resets (s : State) (k : Nat) (x : Die) : (s.setDie k x).resets = s.resets := rfl
@[simp] theorem State.setDie_free (s : State) (k : Nat) (x : Die) : (s.setDie k x).free = s.free := rfl
@[simp] theorem State.setDie_outs (s : State) (k : Nat) (x : Die) : (s.setDie k x).outs = s.outs := rfl
@[simp] theorem State.setDie_fresh (s : State) (k : Nat) (x : Die) : (s.setDie k x).fresh = s.fresh := rfl
@[simp] theorem State.setDie_tap (s : State) (k : Nat) (x : Die) : (s.setDie k x).tap = s.tap := rfl
@[simp] theorem State.setDie_i3cDyn (s : State) (k : Nat) (x : Die) : (s.setDie k x).i3cDyn = s.i3cDyn := rfl
@[simp] theorem State.setDie_pins (s : State) (k : Nat) (x : Die) : (s.setDie k x).pins = s.pins := rfl
@[simp] theorem State.setDie_tile (s : State) (k : Nat) (j : Nat) (x : Die) : (s.setDie k x).tile j = s.tile j := rfl
@[simp] theorem State.setDie_cluster (s : State) (k : Nat) (j : Nat) (x : Die) : (s.setDie k x).cluster j = s.cluster j := rfl
@[simp] theorem State.setDie_die (s : State) (k j : Nat) (x : Die) : (s.setDie k x).die j = if j = k then x else s.die j := by
  simp only [State.die, State.setDie, sget_sput]
@[simp] theorem State.setDie_port (s : State) (k : Nat) (j : Nat) (x : Die) : (s.setDie k x).port j = s.port j := rfl
@[simp] theorem State.setDie_fn (s : State) (k : Nat) (j : Nat) (x : Die) : (s.setDie k x).fn j = s.fn j := rfl
@[simp] theorem State.setDie_win (s : State) (k : Nat) (j : Nat) (x : Die) : (s.setDie k x).win j = s.win j := rfl
@[simp] theorem State.setDie_ctx (s : State) (k : Nat) (j : CtxRef) (x : Die) : (s.setDie k x).ctx j = s.ctx j := rfl
@[simp] theorem State.setDie_now (s : State) (k : Nat) (x : Die) : (s.setDie k x).now = s.now := rfl

/-! ### setPort -/

@[simp] theorem State.setPort_pending (s : State) (k : Nat) (x : Port) : (s.setPort k x).pending = s.pending := rfl
@[simp] theorem State.setPort_ht (s : State) (k : Nat) (x : Port) : (s.setPort k x).ht = s.ht := rfl
@[simp] theorem State.setPort_plat (s : State) (k : Nat) (x : Port) : (s.setPort k x).plat = s.plat := rfl
@[simp] theorem State.setPort_fuses (s : State) (k : Nat) (x : Port) : (s.setPort k x).fuses = s.fuses := rfl
@[simp] theorem State.setPort_cfg (s : State) (k : Nat) (x : Port) : (s.setPort k x).cfg = s.cfg := rfl
@[simp] theorem State.setPort_pair (s : State) (k : Nat) (x : Port) : (s.setPort k x).pair = s.pair := rfl
@[simp] theorem State.setPort_layout (s : State) (k : Nat) (x : Port) : (s.setPort k x).layout = s.layout := rfl
@[simp] theorem State.setPort_parts (s : State) (k : Nat) (x : Port) : (s.setPort k x).parts = s.parts := rfl
@[simp] theorem State.setPort_ctxs (s : State) (k : Nat) (x : Port) : (s.setPort k x).ctxs = s.ctxs := rfl
@[simp] theorem State.setPort_tiles (s : State) (k : Nat) (x : Port) : (s.setPort k x).tiles = s.tiles := rfl
@[simp] theorem State.setPort_clusters (s : State) (k : Nat) (x : Port) : (s.setPort k x).clusters = s.clusters := rfl
@[simp] theorem State.setPort_dies (s : State) (k : Nat) (x : Port) : (s.setPort k x).dies = s.dies := rfl
@[simp] theorem State.setPort_fns (s : State) (k : Nat) (x : Port) : (s.setPort k x).fns = s.fns := rfl
@[simp] theorem State.setPort_hbm (s : State) (k : Nat) (x : Port) : (s.setPort k x).hbm = s.hbm := rfl
@[simp] theorem State.setPort_hostMem (s : State) (k : Nat) (x : Port) : (s.setPort k x).hostMem = s.hostMem := rfl
@[simp] theorem State.setPort_wins (s : State) (k : Nat) (x : Port) : (s.setPort k x).wins = s.wins := rfl
@[simp] theorem State.setPort_flights (s : State) (k : Nat) (x : Port) : (s.setPort k x).flights = s.flights := rfl
@[simp] theorem State.setPort_lanes (s : State) (k : Nat) (x : Port) : (s.setPort k x).lanes = s.lanes := rfl
@[simp] theorem State.setPort_freqs (s : State) (k : Nat) (x : Port) : (s.setPort k x).freqs = s.freqs := rfl
@[simp] theorem State.setPort_log (s : State) (k : Nat) (x : Port) : (s.setPort k x).log = s.log := rfl
@[simp] theorem State.setPort_resets (s : State) (k : Nat) (x : Port) : (s.setPort k x).resets = s.resets := rfl
@[simp] theorem State.setPort_free (s : State) (k : Nat) (x : Port) : (s.setPort k x).free = s.free := rfl
@[simp] theorem State.setPort_outs (s : State) (k : Nat) (x : Port) : (s.setPort k x).outs = s.outs := rfl
@[simp] theorem State.setPort_fresh (s : State) (k : Nat) (x : Port) : (s.setPort k x).fresh = s.fresh := rfl
@[simp] theorem State.setPort_tap (s : State) (k : Nat) (x : Port) : (s.setPort k x).tap = s.tap := rfl
@[simp] theorem State.setPort_i3cDyn (s : State) (k : Nat) (x : Port) : (s.setPort k x).i3cDyn = s.i3cDyn := rfl
@[simp] theorem State.setPort_pins (s : State) (k : Nat) (x : Port) : (s.setPort k x).pins = s.pins := rfl
@[simp] theorem State.setPort_tile (s : State) (k : Nat) (j : Nat) (x : Port) : (s.setPort k x).tile j = s.tile j := rfl
@[simp] theorem State.setPort_cluster (s : State) (k : Nat) (j : Nat) (x : Port) : (s.setPort k x).cluster j = s.cluster j := rfl
@[simp] theorem State.setPort_die (s : State) (k : Nat) (j : Nat) (x : Port) : (s.setPort k x).die j = s.die j := rfl
@[simp] theorem State.setPort_port (s : State) (k j : Nat) (x : Port) : (s.setPort k x).port j = if j = k then x else s.port j := by
  simp only [State.port, State.setPort, sget_sput]
@[simp] theorem State.setPort_fn (s : State) (k : Nat) (j : Nat) (x : Port) : (s.setPort k x).fn j = s.fn j := rfl
@[simp] theorem State.setPort_win (s : State) (k : Nat) (j : Nat) (x : Port) : (s.setPort k x).win j = s.win j := rfl
@[simp] theorem State.setPort_ctx (s : State) (k : Nat) (j : CtxRef) (x : Port) : (s.setPort k x).ctx j = s.ctx j := rfl
@[simp] theorem State.setPort_now (s : State) (k : Nat) (x : Port) : (s.setPort k x).now = s.now := rfl

/-! ### setFn -/

@[simp] theorem State.setFn_pending (s : State) (k : Nat) (x : Fn) : (s.setFn k x).pending = s.pending := rfl
@[simp] theorem State.setFn_ht (s : State) (k : Nat) (x : Fn) : (s.setFn k x).ht = s.ht := rfl
@[simp] theorem State.setFn_plat (s : State) (k : Nat) (x : Fn) : (s.setFn k x).plat = s.plat := rfl
@[simp] theorem State.setFn_fuses (s : State) (k : Nat) (x : Fn) : (s.setFn k x).fuses = s.fuses := rfl
@[simp] theorem State.setFn_cfg (s : State) (k : Nat) (x : Fn) : (s.setFn k x).cfg = s.cfg := rfl
@[simp] theorem State.setFn_pair (s : State) (k : Nat) (x : Fn) : (s.setFn k x).pair = s.pair := rfl
@[simp] theorem State.setFn_layout (s : State) (k : Nat) (x : Fn) : (s.setFn k x).layout = s.layout := rfl
@[simp] theorem State.setFn_parts (s : State) (k : Nat) (x : Fn) : (s.setFn k x).parts = s.parts := rfl
@[simp] theorem State.setFn_ctxs (s : State) (k : Nat) (x : Fn) : (s.setFn k x).ctxs = s.ctxs := rfl
@[simp] theorem State.setFn_tiles (s : State) (k : Nat) (x : Fn) : (s.setFn k x).tiles = s.tiles := rfl
@[simp] theorem State.setFn_clusters (s : State) (k : Nat) (x : Fn) : (s.setFn k x).clusters = s.clusters := rfl
@[simp] theorem State.setFn_dies (s : State) (k : Nat) (x : Fn) : (s.setFn k x).dies = s.dies := rfl
@[simp] theorem State.setFn_ports (s : State) (k : Nat) (x : Fn) : (s.setFn k x).ports = s.ports := rfl
@[simp] theorem State.setFn_hbm (s : State) (k : Nat) (x : Fn) : (s.setFn k x).hbm = s.hbm := rfl
@[simp] theorem State.setFn_hostMem (s : State) (k : Nat) (x : Fn) : (s.setFn k x).hostMem = s.hostMem := rfl
@[simp] theorem State.setFn_wins (s : State) (k : Nat) (x : Fn) : (s.setFn k x).wins = s.wins := rfl
@[simp] theorem State.setFn_flights (s : State) (k : Nat) (x : Fn) : (s.setFn k x).flights = s.flights := rfl
@[simp] theorem State.setFn_lanes (s : State) (k : Nat) (x : Fn) : (s.setFn k x).lanes = s.lanes := rfl
@[simp] theorem State.setFn_freqs (s : State) (k : Nat) (x : Fn) : (s.setFn k x).freqs = s.freqs := rfl
@[simp] theorem State.setFn_log (s : State) (k : Nat) (x : Fn) : (s.setFn k x).log = s.log := rfl
@[simp] theorem State.setFn_resets (s : State) (k : Nat) (x : Fn) : (s.setFn k x).resets = s.resets := rfl
@[simp] theorem State.setFn_free (s : State) (k : Nat) (x : Fn) : (s.setFn k x).free = s.free := rfl
@[simp] theorem State.setFn_outs (s : State) (k : Nat) (x : Fn) : (s.setFn k x).outs = s.outs := rfl
@[simp] theorem State.setFn_fresh (s : State) (k : Nat) (x : Fn) : (s.setFn k x).fresh = s.fresh := rfl
@[simp] theorem State.setFn_tap (s : State) (k : Nat) (x : Fn) : (s.setFn k x).tap = s.tap := rfl
@[simp] theorem State.setFn_i3cDyn (s : State) (k : Nat) (x : Fn) : (s.setFn k x).i3cDyn = s.i3cDyn := rfl
@[simp] theorem State.setFn_pins (s : State) (k : Nat) (x : Fn) : (s.setFn k x).pins = s.pins := rfl
@[simp] theorem State.setFn_tile (s : State) (k : Nat) (j : Nat) (x : Fn) : (s.setFn k x).tile j = s.tile j := rfl
@[simp] theorem State.setFn_cluster (s : State) (k : Nat) (j : Nat) (x : Fn) : (s.setFn k x).cluster j = s.cluster j := rfl
@[simp] theorem State.setFn_die (s : State) (k : Nat) (j : Nat) (x : Fn) : (s.setFn k x).die j = s.die j := rfl
@[simp] theorem State.setFn_port (s : State) (k : Nat) (j : Nat) (x : Fn) : (s.setFn k x).port j = s.port j := rfl
@[simp] theorem State.setFn_fn (s : State) (k j : Nat) (x : Fn) : (s.setFn k x).fn j = if j = k then x else s.fn j := by
  simp only [State.fn, State.setFn, sget_sput]
@[simp] theorem State.setFn_win (s : State) (k : Nat) (j : Nat) (x : Fn) : (s.setFn k x).win j = s.win j := rfl
@[simp] theorem State.setFn_ctx (s : State) (k : Nat) (j : CtxRef) (x : Fn) : (s.setFn k x).ctx j = s.ctx j := rfl
@[simp] theorem State.setFn_now (s : State) (k : Nat) (x : Fn) : (s.setFn k x).now = s.now := rfl

/-! ### setWin -/

@[simp] theorem State.setWin_pending (s : State) (k : Nat) (x : Win) : (s.setWin k x).pending = s.pending := rfl
@[simp] theorem State.setWin_ht (s : State) (k : Nat) (x : Win) : (s.setWin k x).ht = s.ht := rfl
@[simp] theorem State.setWin_plat (s : State) (k : Nat) (x : Win) : (s.setWin k x).plat = s.plat := rfl
@[simp] theorem State.setWin_fuses (s : State) (k : Nat) (x : Win) : (s.setWin k x).fuses = s.fuses := rfl
@[simp] theorem State.setWin_cfg (s : State) (k : Nat) (x : Win) : (s.setWin k x).cfg = s.cfg := rfl
@[simp] theorem State.setWin_pair (s : State) (k : Nat) (x : Win) : (s.setWin k x).pair = s.pair := rfl
@[simp] theorem State.setWin_layout (s : State) (k : Nat) (x : Win) : (s.setWin k x).layout = s.layout := rfl
@[simp] theorem State.setWin_parts (s : State) (k : Nat) (x : Win) : (s.setWin k x).parts = s.parts := rfl
@[simp] theorem State.setWin_ctxs (s : State) (k : Nat) (x : Win) : (s.setWin k x).ctxs = s.ctxs := rfl
@[simp] theorem State.setWin_tiles (s : State) (k : Nat) (x : Win) : (s.setWin k x).tiles = s.tiles := rfl
@[simp] theorem State.setWin_clusters (s : State) (k : Nat) (x : Win) : (s.setWin k x).clusters = s.clusters := rfl
@[simp] theorem State.setWin_dies (s : State) (k : Nat) (x : Win) : (s.setWin k x).dies = s.dies := rfl
@[simp] theorem State.setWin_ports (s : State) (k : Nat) (x : Win) : (s.setWin k x).ports = s.ports := rfl
@[simp] theorem State.setWin_fns (s : State) (k : Nat) (x : Win) : (s.setWin k x).fns = s.fns := rfl
@[simp] theorem State.setWin_hbm (s : State) (k : Nat) (x : Win) : (s.setWin k x).hbm = s.hbm := rfl
@[simp] theorem State.setWin_hostMem (s : State) (k : Nat) (x : Win) : (s.setWin k x).hostMem = s.hostMem := rfl
@[simp] theorem State.setWin_flights (s : State) (k : Nat) (x : Win) : (s.setWin k x).flights = s.flights := rfl
@[simp] theorem State.setWin_lanes (s : State) (k : Nat) (x : Win) : (s.setWin k x).lanes = s.lanes := rfl
@[simp] theorem State.setWin_freqs (s : State) (k : Nat) (x : Win) : (s.setWin k x).freqs = s.freqs := rfl
@[simp] theorem State.setWin_log (s : State) (k : Nat) (x : Win) : (s.setWin k x).log = s.log := rfl
@[simp] theorem State.setWin_resets (s : State) (k : Nat) (x : Win) : (s.setWin k x).resets = s.resets := rfl
@[simp] theorem State.setWin_free (s : State) (k : Nat) (x : Win) : (s.setWin k x).free = s.free := rfl
@[simp] theorem State.setWin_outs (s : State) (k : Nat) (x : Win) : (s.setWin k x).outs = s.outs := rfl
@[simp] theorem State.setWin_fresh (s : State) (k : Nat) (x : Win) : (s.setWin k x).fresh = s.fresh := rfl
@[simp] theorem State.setWin_tap (s : State) (k : Nat) (x : Win) : (s.setWin k x).tap = s.tap := rfl
@[simp] theorem State.setWin_i3cDyn (s : State) (k : Nat) (x : Win) : (s.setWin k x).i3cDyn = s.i3cDyn := rfl
@[simp] theorem State.setWin_pins (s : State) (k : Nat) (x : Win) : (s.setWin k x).pins = s.pins := rfl
@[simp] theorem State.setWin_tile (s : State) (k : Nat) (j : Nat) (x : Win) : (s.setWin k x).tile j = s.tile j := rfl
@[simp] theorem State.setWin_cluster (s : State) (k : Nat) (j : Nat) (x : Win) : (s.setWin k x).cluster j = s.cluster j := rfl
@[simp] theorem State.setWin_die (s : State) (k : Nat) (j : Nat) (x : Win) : (s.setWin k x).die j = s.die j := rfl
@[simp] theorem State.setWin_port (s : State) (k : Nat) (j : Nat) (x : Win) : (s.setWin k x).port j = s.port j := rfl
@[simp] theorem State.setWin_fn (s : State) (k : Nat) (j : Nat) (x : Win) : (s.setWin k x).fn j = s.fn j := rfl
@[simp] theorem State.setWin_win (s : State) (k j : Nat) (x : Win) : (s.setWin k x).win j = if j = k then x else s.win j := by
  simp only [State.win, State.setWin, sget_sput]
@[simp] theorem State.setWin_ctx (s : State) (k : Nat) (j : CtxRef) (x : Win) : (s.setWin k x).ctx j = s.ctx j := rfl
@[simp] theorem State.setWin_now (s : State) (k : Nat) (x : Win) : (s.setWin k x).now = s.now := rfl

/-! ### setCtx -/

@[simp] theorem State.setCtx_pending (s : State) (k : CtxRef) (x : Ctx) : (s.setCtx k x).pending = s.pending := rfl
@[simp] theorem State.setCtx_ht (s : State) (k : CtxRef) (x : Ctx) : (s.setCtx k x).ht = s.ht := rfl
@[simp] theorem State.setCtx_plat (s : State) (k : CtxRef) (x : Ctx) : (s.setCtx k x).plat = s.plat := rfl
@[simp] theorem State.setCtx_fuses (s : State) (k : CtxRef) (x : Ctx) : (s.setCtx k x).fuses = s.fuses := rfl
@[simp] theorem State.setCtx_cfg (s : State) (k : CtxRef) (x : Ctx) : (s.setCtx k x).cfg = s.cfg := rfl
@[simp] theorem State.setCtx_pair (s : State) (k : CtxRef) (x : Ctx) : (s.setCtx k x).pair = s.pair := rfl
@[simp] theorem State.setCtx_layout (s : State) (k : CtxRef) (x : Ctx) : (s.setCtx k x).layout = s.layout := rfl
@[simp] theorem State.setCtx_parts (s : State) (k : CtxRef) (x : Ctx) : (s.setCtx k x).parts = s.parts := rfl
@[simp] theorem State.setCtx_tiles (s : State) (k : CtxRef) (x : Ctx) : (s.setCtx k x).tiles = s.tiles := rfl
@[simp] theorem State.setCtx_clusters (s : State) (k : CtxRef) (x : Ctx) : (s.setCtx k x).clusters = s.clusters := rfl
@[simp] theorem State.setCtx_dies (s : State) (k : CtxRef) (x : Ctx) : (s.setCtx k x).dies = s.dies := rfl
@[simp] theorem State.setCtx_ports (s : State) (k : CtxRef) (x : Ctx) : (s.setCtx k x).ports = s.ports := rfl
@[simp] theorem State.setCtx_fns (s : State) (k : CtxRef) (x : Ctx) : (s.setCtx k x).fns = s.fns := rfl
@[simp] theorem State.setCtx_hbm (s : State) (k : CtxRef) (x : Ctx) : (s.setCtx k x).hbm = s.hbm := rfl
@[simp] theorem State.setCtx_hostMem (s : State) (k : CtxRef) (x : Ctx) : (s.setCtx k x).hostMem = s.hostMem := rfl
@[simp] theorem State.setCtx_wins (s : State) (k : CtxRef) (x : Ctx) : (s.setCtx k x).wins = s.wins := rfl
@[simp] theorem State.setCtx_flights (s : State) (k : CtxRef) (x : Ctx) : (s.setCtx k x).flights = s.flights := rfl
@[simp] theorem State.setCtx_lanes (s : State) (k : CtxRef) (x : Ctx) : (s.setCtx k x).lanes = s.lanes := rfl
@[simp] theorem State.setCtx_freqs (s : State) (k : CtxRef) (x : Ctx) : (s.setCtx k x).freqs = s.freqs := rfl
@[simp] theorem State.setCtx_log (s : State) (k : CtxRef) (x : Ctx) : (s.setCtx k x).log = s.log := rfl
@[simp] theorem State.setCtx_resets (s : State) (k : CtxRef) (x : Ctx) : (s.setCtx k x).resets = s.resets := rfl
@[simp] theorem State.setCtx_free (s : State) (k : CtxRef) (x : Ctx) : (s.setCtx k x).free = s.free := rfl
@[simp] theorem State.setCtx_outs (s : State) (k : CtxRef) (x : Ctx) : (s.setCtx k x).outs = s.outs := rfl
@[simp] theorem State.setCtx_fresh (s : State) (k : CtxRef) (x : Ctx) : (s.setCtx k x).fresh = s.fresh := rfl
@[simp] theorem State.setCtx_tap (s : State) (k : CtxRef) (x : Ctx) : (s.setCtx k x).tap = s.tap := rfl
@[simp] theorem State.setCtx_i3cDyn (s : State) (k : CtxRef) (x : Ctx) : (s.setCtx k x).i3cDyn = s.i3cDyn := rfl
@[simp] theorem State.setCtx_pins (s : State) (k : CtxRef) (x : Ctx) : (s.setCtx k x).pins = s.pins := rfl
@[simp] theorem State.setCtx_tile (s : State) (k : CtxRef) (j : Nat) (x : Ctx) : (s.setCtx k x).tile j = s.tile j := rfl
@[simp] theorem State.setCtx_cluster (s : State) (k : CtxRef) (j : Nat) (x : Ctx) : (s.setCtx k x).cluster j = s.cluster j := rfl
@[simp] theorem State.setCtx_die (s : State) (k : CtxRef) (j : Nat) (x : Ctx) : (s.setCtx k x).die j = s.die j := rfl
@[simp] theorem State.setCtx_port (s : State) (k : CtxRef) (j : Nat) (x : Ctx) : (s.setCtx k x).port j = s.port j := rfl
@[simp] theorem State.setCtx_fn (s : State) (k : CtxRef) (j : Nat) (x : Ctx) : (s.setCtx k x).fn j = s.fn j := rfl
@[simp] theorem State.setCtx_win (s : State) (k : CtxRef) (j : Nat) (x : Ctx) : (s.setCtx k x).win j = s.win j := rfl
@[simp] theorem State.setCtx_ctx (s : State) (k j : CtxRef) (x : Ctx) : (s.setCtx k x).ctx j = if ctxKey j = ctxKey k then x else s.ctx j := by
  simp only [State.ctx, State.setCtx, sget_sput]
@[simp] theorem State.setCtx_now (s : State) (k : CtxRef) (x : Ctx) : (s.setCtx k x).now = s.now := rfl

/-! ### hwSet and hwRec -/

@[simp] theorem State.hwSet_pending (s : State) (a : Nat) : (s.hwSet a).pending = s.pending := rfl
@[simp] theorem State.hwSet_ht (s : State) (a : Nat) : (s.hwSet a).ht = s.ht := rfl
@[simp] theorem State.hwSet_plat (s : State) (a : Nat) : (s.hwSet a).plat = s.plat := rfl
@[simp] theorem State.hwSet_fuses (s : State) (a : Nat) : (s.hwSet a).fuses = s.fuses := rfl
@[simp] theorem State.hwSet_cfg (s : State) (a : Nat) : (s.hwSet a).cfg = s.cfg := rfl
@[simp] theorem State.hwSet_pair (s : State) (a : Nat) : (s.hwSet a).pair = s.pair := rfl
@[simp] theorem State.hwSet_layout (s : State) (a : Nat) : (s.hwSet a).layout = s.layout := rfl
@[simp] theorem State.hwSet_parts (s : State) (a : Nat) : (s.hwSet a).parts = s.parts := rfl
@[simp] theorem State.hwSet_ctxs (s : State) (a : Nat) : (s.hwSet a).ctxs = s.ctxs := rfl
@[simp] theorem State.hwSet_clusters (s : State) (a : Nat) : (s.hwSet a).clusters = s.clusters := rfl
@[simp] theorem State.hwSet_tiles (s : State) (a : Nat) : (s.hwSet a).tiles = s.tiles := rfl
@[simp] theorem State.hwSet_dies (s : State) (a : Nat) : (s.hwSet a).dies = s.dies := rfl
@[simp] theorem State.hwSet_ports (s : State) (a : Nat) : (s.hwSet a).ports = s.ports := rfl
@[simp] theorem State.hwSet_fns (s : State) (a : Nat) : (s.hwSet a).fns = s.fns := rfl
@[simp] theorem State.hwSet_hbm (s : State) (a : Nat) : (s.hwSet a).hbm = s.hbm := rfl
@[simp] theorem State.hwSet_hostMem (s : State) (a : Nat) : (s.hwSet a).hostMem = s.hostMem := rfl
@[simp] theorem State.hwSet_wins (s : State) (a : Nat) : (s.hwSet a).wins = s.wins := rfl
@[simp] theorem State.hwSet_flights (s : State) (a : Nat) : (s.hwSet a).flights = s.flights := rfl
@[simp] theorem State.hwSet_lanes (s : State) (a : Nat) : (s.hwSet a).lanes = s.lanes := rfl
@[simp] theorem State.hwSet_freqs (s : State) (a : Nat) : (s.hwSet a).freqs = s.freqs := rfl
@[simp] theorem State.hwSet_log (s : State) (a : Nat) : (s.hwSet a).log = s.log := rfl
@[simp] theorem State.hwSet_resets (s : State) (a : Nat) : (s.hwSet a).resets = s.resets := rfl
@[simp] theorem State.hwSet_free (s : State) (a : Nat) : (s.hwSet a).free = s.free := rfl
@[simp] theorem State.hwSet_outs (s : State) (a : Nat) : (s.hwSet a).outs = s.outs := rfl
@[simp] theorem State.hwSet_tap (s : State) (a : Nat) : (s.hwSet a).tap = s.tap := rfl
@[simp] theorem State.hwSet_i3cDyn (s : State) (a : Nat) : (s.hwSet a).i3cDyn = s.i3cDyn := rfl
@[simp] theorem State.hwSet_pins (s : State) (a : Nat) : (s.hwSet a).pins = s.pins := rfl
@[simp] theorem State.hwSet_tile (s : State) (a : Nat) (j : Nat) : (s.hwSet a).tile j = s.tile j := rfl
@[simp] theorem State.hwSet_cluster (s : State) (a : Nat) (j : Nat) : (s.hwSet a).cluster j = s.cluster j := rfl
@[simp] theorem State.hwSet_die (s : State) (a : Nat) (j : Nat) : (s.hwSet a).die j = s.die j := rfl
@[simp] theorem State.hwSet_port (s : State) (a : Nat) (j : Nat) : (s.hwSet a).port j = s.port j := rfl
@[simp] theorem State.hwSet_fn (s : State) (a : Nat) (j : Nat) : (s.hwSet a).fn j = s.fn j := rfl
@[simp] theorem State.hwSet_win (s : State) (a : Nat) (j : Nat) : (s.hwSet a).win j = s.win j := rfl
@[simp] theorem State.hwSet_ctx (s : State) (a : Nat) (j : CtxRef) : (s.hwSet a).ctx j = s.ctx j := rfl

@[simp] theorem State.hwRec_pending (s : State) (a : Nat) (r : W64) : (s.hwRec a r).pending = s.pending := rfl
@[simp] theorem State.hwRec_ht (s : State) (a : Nat) (r : W64) : (s.hwRec a r).ht = s.ht := rfl
@[simp] theorem State.hwRec_plat (s : State) (a : Nat) (r : W64) : (s.hwRec a r).plat = s.plat := rfl
@[simp] theorem State.hwRec_fuses (s : State) (a : Nat) (r : W64) : (s.hwRec a r).fuses = s.fuses := rfl
@[simp] theorem State.hwRec_cfg (s : State) (a : Nat) (r : W64) : (s.hwRec a r).cfg = s.cfg := rfl
@[simp] theorem State.hwRec_pair (s : State) (a : Nat) (r : W64) : (s.hwRec a r).pair = s.pair := rfl
@[simp] theorem State.hwRec_layout (s : State) (a : Nat) (r : W64) : (s.hwRec a r).layout = s.layout := rfl
@[simp] theorem State.hwRec_parts (s : State) (a : Nat) (r : W64) : (s.hwRec a r).parts = s.parts := rfl
@[simp] theorem State.hwRec_ctxs (s : State) (a : Nat) (r : W64) : (s.hwRec a r).ctxs = s.ctxs := rfl
@[simp] theorem State.hwRec_clusters (s : State) (a : Nat) (r : W64) : (s.hwRec a r).clusters = s.clusters := rfl
@[simp] theorem State.hwRec_tiles (s : State) (a : Nat) (r : W64) : (s.hwRec a r).tiles = s.tiles := rfl
@[simp] theorem State.hwRec_dies (s : State) (a : Nat) (r : W64) : (s.hwRec a r).dies = s.dies := rfl
@[simp] theorem State.hwRec_ports (s : State) (a : Nat) (r : W64) : (s.hwRec a r).ports = s.ports := rfl
@[simp] theorem State.hwRec_fns (s : State) (a : Nat) (r : W64) : (s.hwRec a r).fns = s.fns := rfl
@[simp] theorem State.hwRec_hbm (s : State) (a : Nat) (r : W64) : (s.hwRec a r).hbm = s.hbm := rfl
@[simp] theorem State.hwRec_hostMem (s : State) (a : Nat) (r : W64) : (s.hwRec a r).hostMem = s.hostMem := rfl
@[simp] theorem State.hwRec_wins (s : State) (a : Nat) (r : W64) : (s.hwRec a r).wins = s.wins := rfl
@[simp] theorem State.hwRec_flights (s : State) (a : Nat) (r : W64) : (s.hwRec a r).flights = s.flights := rfl
@[simp] theorem State.hwRec_lanes (s : State) (a : Nat) (r : W64) : (s.hwRec a r).lanes = s.lanes := rfl
@[simp] theorem State.hwRec_freqs (s : State) (a : Nat) (r : W64) : (s.hwRec a r).freqs = s.freqs := rfl
@[simp] theorem State.hwRec_log (s : State) (a : Nat) (r : W64) : (s.hwRec a r).log = s.log := rfl
@[simp] theorem State.hwRec_resets (s : State) (a : Nat) (r : W64) : (s.hwRec a r).resets = s.resets := rfl
@[simp] theorem State.hwRec_free (s : State) (a : Nat) (r : W64) : (s.hwRec a r).free = s.free := rfl
@[simp] theorem State.hwRec_outs (s : State) (a : Nat) (r : W64) : (s.hwRec a r).outs = s.outs := rfl
@[simp] theorem State.hwRec_tap (s : State) (a : Nat) (r : W64) : (s.hwRec a r).tap = s.tap := rfl
@[simp] theorem State.hwRec_i3cDyn (s : State) (a : Nat) (r : W64) : (s.hwRec a r).i3cDyn = s.i3cDyn := rfl
@[simp] theorem State.hwRec_pins (s : State) (a : Nat) (r : W64) : (s.hwRec a r).pins = s.pins := rfl
@[simp] theorem State.hwRec_tile (s : State) (a : Nat) (r : W64) (j : Nat) : (s.hwRec a r).tile j = s.tile j := rfl
@[simp] theorem State.hwRec_cluster (s : State) (a : Nat) (r : W64) (j : Nat) : (s.hwRec a r).cluster j = s.cluster j := rfl
@[simp] theorem State.hwRec_die (s : State) (a : Nat) (r : W64) (j : Nat) : (s.hwRec a r).die j = s.die j := rfl
@[simp] theorem State.hwRec_port (s : State) (a : Nat) (r : W64) (j : Nat) : (s.hwRec a r).port j = s.port j := rfl
@[simp] theorem State.hwRec_fn (s : State) (a : Nat) (r : W64) (j : Nat) : (s.hwRec a r).fn j = s.fn j := rfl
@[simp] theorem State.hwRec_win (s : State) (a : Nat) (r : W64) (j : Nat) : (s.hwRec a r).win j = s.win j := rfl
@[simp] theorem State.hwRec_ctx (s : State) (a : Nat) (r : W64) (j : CtxRef) : (s.hwRec a r).ctx j = s.ctx j := rfl

/-- A record that found another one valid is the one of its nanosecond. -/
@[simp] theorem State.hwRec_newRec (s : State) (a b : Nat) (r : W64) :
    (s.hwRec a r).newRec b = if b = a then some r else s.newRec b := by
  unfold State.hwRec State.newRec State.now
  by_cases h : s.fresh.time = s.ht.now.toNat
  · by_cases e : b = a
    · subst e; simp [h]
    · have e' : ¬a = b := fun x => e x.symm
      simp only [h, if_true, List.find?_cons, e', decide_false, if_neg e]
      congr 1
      rw [List.find?_filter]
      congr 1
      funext x
      by_cases k : x.1 = b <;> simp [k, e]
  · by_cases e : b = a
    · subst e; simp [h]
    · have e' : ¬a = b := fun x => e x.symm
      simp [h, e, e']

end Sys2Proof.Machine
end

