-- ==== Sys2Proof/Laws/Steps.lean ====
section
/-!
SUPPORT. What the shared frames of the meanings do once their conditions hold: the issue slot, the data stage,
the take of a host command, guarded events; and how the parts of a thread read after an update. -/

namespace Sys2Proof.Machine

/-! ### Threads -/

@[simp] theorem State.setThread_thread (s : State) (t n k m : Nat) (x : Thread) :
    (s.setThread t n x).thread k m = if k = t ∧ m = n then x else s.thread k m := by
  simp only [State.setThread, State.thread, Tile.thread, State.setTile_tile]
  by_cases h : k = t
  · subst h
    simp only [if_true, true_and, sget_sput]
  · simp [h]

@[simp] theorem State.modThread_thread (s : State) (t n k m : Nat) (g : Thread → Thread) :
    (s.modThread t n g).thread k m = if k = t ∧ m = n then g (s.thread t n) else s.thread k m := by
  simp only [State.modThread, State.setThread_thread]

/-- A tile after one of its threads is changed. -/
theorem State.modThread_tile (s : State) (t n k : Nat) (g : Thread → Thread) :
    (s.modThread t n g).tile k = if k = t then { s.tile t with thr := sput (s.tile t).thr n (g (s.thread t n)) } else s.tile k := by
  simp only [State.modThread, State.setThread, State.setTile_tile]

/-- Nothing but the tiles changes with a thread. -/
theorem State.modThread_rest (s : State) (t n : Nat) (g : Thread → Thread) :
    s.modThread t n g = { s with tiles := (s.modThread t n g).tiles } := rfl

@[simp] theorem Thread.setSr_sr (h : Thread) (d n : BitVec 5) (v : W64) :
    (h.setSr d v).sr n = if n = d ∧ n ≠ 0 then v else h.sr n := by
  unfold Thread.setSr Thread.sr
  by_cases hn : n = 0
  · rw [if_pos hn, if_neg (fun e => e.2 hn), if_pos hn]
  · by_cases hd : d = 0
    · rw [if_pos hd, if_neg hn, if_neg (fun e => hn (e.1.trans hd))]
    · simp only [if_neg hn, if_neg hd, sget_sput]
      by_cases e : n = d
      · rw [if_pos (congrArg _ e), if_pos ⟨e, hn⟩]
      · rw [if_neg (fun x => e (BitVec.eq_of_toNat_eq x)), if_neg (fun x => e x.1)]

@[simp] theorem Thread.setSr_vr (h : Thread) (d n : BitVec 5) (v : W64) : (h.setSr d v).vr n = h.vr n := by
  unfold Thread.setSr Thread.vr
  split <;> rfl

@[simp] theorem Thread.setSr_pc (h : Thread) (d : BitVec 5) (v : W64) : (h.setSr d v).pc = h.pc := by
  unfold Thread.setSr
  split <;> rfl

@[simp] theorem Thread.setSr_st (h : Thread) (d : BitVec 5) (v : W64) : (h.setSr d v).st = h.st := by
  unfold Thread.setSr
  split <;> rfl

@[simp] theorem Thread.setSr_wait (h : Thread) (d : BitVec 5) (v : W64) : (h.setSr d v).wait = h.wait := by
  unfold Thread.setSr
  split <;> rfl

@[simp] theorem Thread.setVr_vr (h : Thread) (d n : BitVec 5) (v : W256) : (h.setVr d v).vr n = if n = d then v else h.vr n := by
  unfold Thread.setVr Thread.vr
  simp only [sget_sput]
  by_cases e : n = d
  · simp [e]
  · have : ¬n.toNat = d.toNat := fun x => e (BitVec.eq_of_toNat_eq x)
    simp [e, this]

@[simp] theorem Thread.setVr_sr (h : Thread) (d : BitVec 5) (v : W256) (n : BitVec 5) : (h.setVr d v).sr n = h.sr n := rfl
@[simp] theorem Thread.setVr_pc (h : Thread) (d : BitVec 5) (v : W256) : (h.setVr d v).pc = h.pc := rfl
@[simp] theorem Thread.setVr_st (h : Thread) (d : BitVec 5) (v : W256) : (h.setVr d v).st = h.st := rfl
@[simp] theorem Thread.setVr_wait (h : Thread) (d : BitVec 5) (v : W256) : (h.setVr d v).wait = h.wait := rfl
@[simp] theorem Thread.step_sr (h : Thread) (n : BitVec 5) : h.step.sr n = h.sr n := rfl
@[simp] theorem Thread.step_vr (h : Thread) (n : BitVec 5) : h.step.vr n = h.vr n := rfl
@[simp] theorem Thread.step_pc (h : Thread) : h.step.pc = h.pc + 8 := rfl
@[simp] theorem Thread.step_st (h : Thread) : h.step.st = h.st := rfl
@[simp] theorem Thread.step_wait (h : Thread) : h.step.wait = h.wait := rfl

/-! ### The issue slot -/

/-- A thread that issues is RUNNABLE. -/
theorem Ready.runnable {s r cls op f c} (h : Ready s r cls op f c) : (s.thread r.tid r.thr).st = .runnable := by
  have e := h.slot
  unfold State.canIssue at e
  split at e
  · cases e
  · dsimp only at e
    split at e
    · rename_i p
      simp only [Bool.and_eq_true, decide_eq_true_eq] at p
      exact p.1.1.1.1.1.2
    · cases e

/-- An instruction that issues runs its body on the issued state. -/
theorem issue_ready {s r cls op f c} (h : Ready s r cls op f c) (body : State → CtxRef → State) :
    issue s r cls op f body = .next (body (Issued s r) c) := by
  have hl := h.legal
  have hw := h.word
  have hb := h.bank
  have ha := h.access
  have hp := h.pc
  unfold pcOf at hw hb ha hp
  unfold issue Issued
  rw [h.unit, h.slot]
  dsimp only
  rw [h.unheld, ha]
  simp only [hp, hb, hw, hl, pcOf, bne_self_eq_false, Bool.not_true, Bool.false_eq_true, if_false, ne_eq, not_true_eq_false]

@[simp] theorem Issued_thread (s : State) (r : IssueRef) (t n : Nat) : (Issued s r).thread t n = s.thread t n := by
  simp only [Issued, State.passSlot, State.thread, State.setTile_tile, Tile.thread, Tile.grant]
  by_cases h : t = r.tid
  · subst h
    simp
  · simp [h]

theorem Issued_tile (s : State) (r : IssueRef) (k : Nat) : (Issued s r).tile k =
    if k = r.tid then { s.tile r.tid with grants := ((Issued s r).tile r.tid).grants, issueAt := r.cyc + 1, pmAt := none }
    else s.tile k := by
  simp only [Issued, State.passSlot, State.setTile_tile, Tile.grant]
  by_cases h : k = r.tid
  · subst h
    simp
  · simp [h]

@[simp] theorem Issued_sram (s : State) (r : IssueRef) (k : Nat) : ((Issued s r).tile k).sram = (s.tile k).sram := by
  rw [Issued_tile]
  split
  · subst_vars; rfl
  · rfl

@[simp] theorem Issued_ctx (s : State) (r : IssueRef) (c : CtxRef) : (Issued s r).ctx c = s.ctx c := rfl
@[simp] theorem Issued_ht (s : State) (r : IssueRef) : (Issued s r).ht = s.ht := rfl
@[simp] theorem Issued_layout (s : State) (r : IssueRef) : (Issued s r).layout = s.layout := rfl
theorem Issued_rest (s : State) (r : IssueRef) : Issued s r = { s with tiles := (Issued s r).tiles } := rfl

/-! ### The data stage -/

/-- A data access that is granted goes on from the granted state. -/
theorem dataStage_free {s r wide wr a n} (h : DataFree s r wide wr a n) (c : CtxRef) (op : DataOp) (f : Fields) (j : Nat) (got : List Byte)
    (k : State → State) : s.dataStage r c op f j got wide wr a n k = k (Granted s r wide a) := by
  have hb := h.bank
  unfold dataMask dataPrio at hb
  unfold State.dataStage Granted dataMask dataPrio
  rw [h.access]
  dsimp only
  rw [if_pos hb]

/-- The first data access of an issued instruction that is granted goes on from the staged state. -/
theorem dataStage_ready {s r wide wr a n} (h : DataReady s r wide wr a n) (c : CtxRef) (op : DataOp) (f : Fields) (j : Nat) (got : List Byte)
    (k : State → State) : (Issued s r).dataStage r c op f j got wide wr a n k = k (Staged s r wide a) := dataStage_free h c op f j got k

theorem Granted_tile (s : State) (r : IssueRef) (wide : Bool) (a k : Nat) : (Granted s r wide a).tile k =
    if k = r.tid then { s.tile r.tid with thr := sput (s.tile r.tid).thr r.thr { s.thread r.tid r.thr with wait := .none },
                                          grants := ((Granted s r wide a).tile r.tid).grants }
    else s.tile k := by
  simp only [Granted, State.modThread_tile, State.setTile_tile, Tile.grant]
  by_cases h : k = r.tid
  · subst h
    simp [State.thread, Tile.thread]
  · simp [h]

theorem Staged_tile (s : State) (r : IssueRef) (wide : Bool) (a k : Nat) : (Staged s r wide a).tile k =
    if k = r.tid then { s.tile r.tid with thr := sput (s.tile r.tid).thr r.thr { s.thread r.tid r.thr with wait := .none },
                                          grants := ((Staged s r wide a).tile r.tid).grants, issueAt := r.cyc + 1, pmAt := none }
    else s.tile k := by
  unfold Staged
  rw [Granted_tile]
  by_cases h : k = r.tid
  · subst h
    rw [if_pos rfl, if_pos rfl, Issued_tile, if_pos rfl, Issued_thread]
  · rw [if_neg h, if_neg h, Issued_tile, if_neg h]

@[simp] theorem Staged_thread (s : State) (r : IssueRef) (wide : Bool) (a t n : Nat) : (Staged s r wide a).thread t n =
    if t = r.tid ∧ n = r.thr then { s.thread r.tid r.thr with wait := .none } else s.thread t n := by
  unfold State.thread
  rw [Staged_tile]
  by_cases h : t = r.tid
  · subst h
    simp [Tile.thread, State.thread]
  · simp [h]

@[simp] theorem Staged_sram (s : State) (r : IssueRef) (wide : Bool) (a k : Nat) : ((Staged s r wide a).tile k).sram = (s.tile k).sram := by
  rw [Staged_tile]
  split
  · subst_vars; rfl
  · rfl

@[simp] theorem Staged_ctx (s : State) (r : IssueRef) (wide : Bool) (a : Nat) (c : CtxRef) : (Staged s r wide a).ctx c = s.ctx c := rfl
theorem Staged_rest (s : State) (r : IssueRef) (wide : Bool) (a : Nat) :
    Staged s r wide a = { s with tiles := (Staged s r wide a).tiles } := rfl

/-! ### Results of instructions -/

/-- A thread changed from the issued state: only the thread differs. -/
theorem OnlyThread.issued (s : State) (r : IssueRef) (g : Thread → Thread) : OnlyThread s ((Issued s r).modThread r.tid r.thr g) r := by
  refine ⟨⟨rfl, fun k hk => ?_⟩, ?_, fun n hn => ?_⟩
  · rw [State.modThread_tile, if_neg hk, Issued_tile, if_neg hk]
  · rw [State.modThread_tile, if_pos rfl, Issued_tile, if_pos rfl]
  · rw [State.modThread_thread]
    simp [hn]

/-- A thread changed from the staged state: only the thread differs. -/
theorem OnlyThread.staged (s : State) (r : IssueRef) (wide : Bool) (a : Nat) (g : Thread → Thread) :
    OnlyThread s ((Staged s r wide a).modThread r.tid r.thr g) r := by
  refine ⟨⟨rfl, fun k hk => ?_⟩, ?_, fun n hn => ?_⟩
  · rw [State.modThread_tile, if_neg hk, Staged_tile, if_neg hk]
  · rw [State.modThread_tile, if_pos rfl, Staged_tile, if_pos rfl]
  · rw [State.modThread_thread]
    simp [hn]

/-! ### Host commands and guarded events -/

/-- A command that is accepted runs its body on the state after the take. -/
theorem hostCmd_accepted {s r w k} (h : Accepted s r w k) (body : State → State) : hostCmd s r w k body = .next (body (s.take r w)) := by
  have hp := h.pass
  unfold hostCmd
  rw [h.unit, h.takes, h.op, h.turn, h.wait]
  simp only [Bool.not_true, Bool.false_eq_true, if_false, Bool.or_false, ne_eq, not_true_eq_false, decide_false]
  rw [hp]

/-- A command on a context that is accepted runs its body on the state after the take and the context. -/
theorem hostCtxCmd_accepted {s r w k c} (h : AcceptedCtx s r w k c) (body : State → CtxRef → State) :
    hostCtxCmd s r w k body = .next (body (s.take r w) c) := by
  unfold hostCtxCmd
  rw [hostCmd_accepted h.base, h.ctx]

/-- A guarded event takes place where its guard holds. -/
theorem when_true {b : Bool} (h : b = true) (s f : State) : when_ b s f = .next f := by
  rw [h]
  rfl

/-- A guarded event does not take place where its guard does not hold (log entry 2). -/
theorem when_false {b : Bool} (h : b = false) (s f : State) : when_ b s f = .next s := by
  rw [h]
  rfl

end Sys2Proof.Machine
end

