-- ==== Sys2Proof/Tests/Slice0.lean ====
section
/-!
SUPPORT. Tests: the checks of WellFormed refuse ill-formed terms, small states that meet the hypotheses of the
statements, and single steps against values taken from spec/. -/

namespace Sys2Proof.Tests

open Sys2Proof.Machine

set_option Elab.async false

/-! ### Ill-formed commands: one for each check -/

def nop0 (tid thr : Nat) : Instr := .nop ⟨tid, thr, 0⟩ ⟨0, 0, 0, 0, 0⟩
def zero8 : CmdWords := ⟨0, 0, 0, 0, 0, 0, 0, 0⟩

/-- R26, R83: tile 8,192 and thread 6 do not exist. -/
theorem test_ill_thread : (nop0 8192 0).wellFormed = false ∧ (nop0 0 6).wellFormed = false ∧ (nop0 8191 5).wellFormed = true := by decide
/-- R35, R39: partition 4 and slot 8 do not exist. -/
theorem test_ill_context : (Instr.barrierComplete ⟨4, 0⟩).wellFormed = false ∧ (Instr.barrierComplete ⟨0, 8⟩).wellFormed = false ∧
    (Instr.barrierComplete ⟨3, 7⟩).wellFormed = true := by decide
/-- R313, R317: function 4 and ring 16 do not exist. -/
theorem test_ill_ring : (Instr.identify ⟨4, 0⟩ zero8).wellFormed = false ∧ (Instr.identify ⟨0, 16⟩ zero8).wellFormed = false ∧
    (Instr.identify ⟨3, 15⟩ zero8).wellFormed = true := by decide
/-- R222: tile flag 64, die 4 and global flag 4,096 do not exist. -/
theorem test_ill_flag : (FlagRef.tile 0 64).ok = false ∧ (FlagRef.tile 8192 0).ok = false ∧ (FlagRef.glob 4 0).ok = false ∧
    (FlagRef.glob 0 4096).ok = false ∧ (FlagRef.glob 3 4095).ok = true ∧ (FlagRef.tile 8191 63).ok = true := by decide
/-- R22, R26, R32, R114, R200, R285: units by their numbers. -/
theorem test_ill_units : tidOk 8192 = false ∧ thrOk 6 = false ∧ portOk 16 = false ∧ dieOk 4 = false ∧ cidOk 32 = false ∧ engOk 3 = false ∧
    pfOk 4 = false ∧ grpOk 0 = false ∧ grpOk 3 = false ∧ tidOk 8191 ∧ thrOk 5 ∧ portOk 15 ∧ dieOk 3 ∧ cidOk 31 ∧ engOk 2 ∧ pfOk 3 ∧ grpOk 1 ∧ grpOk 2 := by
  decide
/-- An ill-formed command faults. -/
theorem test_ill_faults : exec (.tileArrival 8192) State.reset = .fault .noSuchUnit ∧ exec (nop0 0 6) State.reset = .fault .noSuchUnit ∧
    exec (.clusterClockStart 32) State.reset = .fault .noSuchUnit := ⟨rfl, rfl, rfl⟩

/-! ### States for tile instructions -/

def c0 : CtxRef := ⟨0, 0⟩
def i0 : IssueRef := ⟨0, 0, 0⟩
def r0 : RingRef := ⟨0, 0⟩
def f0 (d a b : BitVec 5) (m : BitVec 7) (i : BitVec 32) : Fields := ⟨d, a, b, m, i⟩

/-- Context slot 0 of partition 0 RUNNING on cluster 0, whose tile 0 is `x`. -/
def onTile (x : Tile) : State :=
  { State.reset with ctxs := [(0, { st := .running, clusters := 1, run := { islocal := true } })], clusters := [(0, { clk := .running, tileCyc := 6 })], tiles := [(0, x)] }

/-- Thread 0 of tile 0 at 0x20000, where a word stands. -/
def atWord (w : W64) (h : Thread) (x : Tile) : State :=
  onTile { x with thr := [(0, { h with pc := 0x20000, st := .runnable })], sram := mwrite x.sram 0x20000 (toLE 8 w.toNat) }

/-- Whether an instruction issues. -/
def readyB (s : State) (r : IssueRef) (cls op : Nat) (f : Fields) (c : CtxRef) : Bool :=
  r.ok && s.canIssue r = some c && (s.thread r.tid r.thr).wait = .none && pcOk (pcOf s r) && (s.checkAccess r.tid r.cyc (pcOf s r).toNat 8 false none).isNone
    && s.bankFree r.tid r.cyc prioFetch (narrowMask (pcOf s r).toNat) && s.wordAt r.tid (pcOf s r).toNat = encodeWord cls op f
    && legalWord (encodeWord cls op f) (fun d => partOfDie s.layout d = c.part)

theorem ready_of_bool {s : State} {r : IssueRef} {cls op : Nat} {f : Fields} {c : CtxRef} (h : readyB s r cls op f c = true) :
    Ready s r cls op f c := by
  simp only [readyB, Bool.and_eq_true, decide_eq_true_eq, Option.isNone_iff_eq_none] at h
  obtain ⟨⟨⟨⟨⟨⟨⟨h1, h2⟩, h3⟩, h4⟩, h5⟩, h6⟩, h7⟩, h8⟩ := h
  exact ⟨h1, h2, h3, h4, h5, h6, h7, h8⟩

/-- Whether a data access in an issue slot is let through. -/
def freeB (s : State) (r : IssueRef) (wide wr : Bool) (a n : Nat) : Bool :=
  (s.checkAccess r.tid (r.cyc + 4) a n wr none).isNone && s.bankFree r.tid (r.cyc + 4) (dataPrio wide) (dataMask wide a)

theorem free_of_bool {s : State} {r : IssueRef} {wide wr : Bool} {a n : Nat} (h : freeB s r wide wr a n = true) : DataFree s r wide wr a n := by
  simp only [freeB, Bool.and_eq_true, Option.isNone_iff_eq_none] at h
  exact ⟨h.1, h.2⟩

/-- Whether the first data access of an instruction is let through. -/
def dataB (s : State) (r : IssueRef) (wide wr : Bool) (a n : Nat) : Bool := freeB (Issued s r) r wide wr a n

theorem data_of_bool {s : State} {r : IssueRef} {wide wr : Bool} {a n : Nat} (h : dataB s r wide wr a n = true) : DataReady s r wide wr a n :=
  free_of_bool h

/-- Whether an instruction that is held may make its access `k`. -/
def heldB (s : State) (r : IssueRef) (op : DataOp) (f : Fields) (k : Nat) (got : List Byte) (c : CtxRef) : Bool :=
  r.ok && s.canIssue r = some c && (s.thread r.tid r.thr).wait = .replay op f k got && s.mayReplay r op k

theorem held_of_bool {s : State} {r : IssueRef} {op : DataOp} {f : Fields} {k : Nat} {got : List Byte} {c : CtxRef} (h : heldB s r op f k got c = true) :
    HeldAt s r op f k got c := by
  simp only [heldB, Bool.and_eq_true, decide_eq_true_eq] at h
  exact ⟨h.1.1.1, h.1.1.2, h.1.2, h.2⟩

/-- Scalar and vector registers for the witnesses. -/
def regs : Thread := { s := [(2, 0xFFFF_FFFF_FFFF_FFFF), (3, 7)], v := [(1, 0x3F80_0000), (2, 0x4000_0000)] }
/-- A thread whose sA (s2) is an address. -/
def at2 (a : W64) : Thread := { s := [(2, a), (3, 7)], v := [(3, 5)] }

def plainF : Fields := f0 1 2 3 0 0

def ins (cls op : Nat) (f : Fields) (h : Thread) (x : Tile) : State := atWord (encodeWord cls op f) h x

/-- The 27 scalar instructions issue, for a register form and (where there is one) the immediate form. -/
theorem witness_scalar :
    (∀ op ∈ [0x00, 0x01, 0x02, 0x03, 0x04, 0x05, 0x06, 0x07, 0x08, 0x09, 0x0A, 0x0B, 0x0C, 0x0D, 0x0E, 0x0F, 0x10, 0x11, 0x12, 0x13, 0x14, 0x15, 0x16,
      0x18, 0x19, 0x1A, 0x1B], Ready (ins 0 op plainF regs {}) i0 0 op plainF c0) ∧
    (∀ op ∈ [0x00, 0x01, 0x02, 0x03, 0x04, 0x05, 0x06, 0x07, 0x08, 0x0B, 0x0C, 0x0D, 0x0E, 0x0F, 0x10, 0x11],
      Ready (ins 0 op (f0 0 2 3 1 0xFFFF_FFFF) regs {}) i0 0 op (f0 0 2 3 1 0xFFFF_FFFF) c0) := by
  refine ⟨fun op h => ready_of_bool ?_, fun op h => ready_of_bool ?_⟩ <;> revert op <;> decide +kernel

/-- Branches issue, taken and not, with an aligned and a misaligned JR. -/
theorem witness_branches :
    (∀ op ∈ [0x00, 0x01, 0x02, 0x03, 0x04, 0x05, 0x08, 0x09, 0x0A], Ready (ins 1 op plainF regs {}) i0 1 op plainF c0 ∧
      Ready (ins 1 op (f0 0 3 3 0 0) regs {}) i0 1 op (f0 0 3 3 0 0) c0) ∧
    Ready (ins 1 0x0A plainF (at2 0x2FFF8) {}) i0 1 0x0A plainF c0 ∧ ((regs.sr 2).toNat % 8 ≠ 0 ∧ ((at2 0x2FFF8).sr 2).toNat % 8 = 0) := by
  refine ⟨fun op h => ⟨ready_of_bool ?_, ready_of_bool ?_⟩, ready_of_bool (by decide +kernel), by decide⟩ <;> revert op <;> decide +kernel

/-- Loads and stores: the last aligned address of SRAM for each width. -/
theorem witness_memory :
    (∀ p ∈ [(0x00, 1), (0x01, 2), (0x02, 4), (0x03, 8), (0x04, 1), (0x05, 2), (0x06, 4)],
      Ready (ins 2 p.1 plainF (at2 (BitVec.ofNat 64 (0x30000 - p.2))) {}) i0 2 p.1 plainF c0 ∧
      DataReady (ins 2 p.1 plainF (at2 (BitVec.ofNat 64 (0x30000 - p.2))) {}) i0 false false (0x30000 - p.2) p.2) ∧
    (∀ p ∈ [(0x08, 1), (0x09, 2), (0x0A, 4), (0x0B, 8)],
      Ready (ins 2 p.1 plainF (at2 (BitVec.ofNat 64 (0x30000 - p.2))) {}) i0 2 p.1 plainF c0 ∧
      DataReady (ins 2 p.1 plainF (at2 (BitVec.ofNat 64 (0x30000 - p.2))) {}) i0 false true (0x30000 - p.2) p.2 ∧
      Memory.wf ((ins 2 p.1 plainF (at2 (BitVec.ofNat 64 (0x30000 - p.2))) {}).tile 0).sram = true) ∧
    (∀ w : Bool, Ready (ins 3 w.toNat plainF (at2 0x2FFE0) {}) i0 3 w.toNat plainF c0 ∧ DataReady (ins 3 w.toNat plainF (at2 0x2FFE0) {}) i0 true w 0x2FFE0 32 ∧
      Memory.wf ((ins 3 w.toNat plainF (at2 0x2FFE0) {}).tile 0).sram = true) := by
  refine ⟨fun op h => ⟨ready_of_bool ?_, data_of_bool ?_⟩, fun op h => ⟨ready_of_bool ?_, data_of_bool ?_, ?_⟩,
    fun w => ⟨ready_of_bool ?_, data_of_bool ?_, ?_⟩⟩
  all_goals first | (revert op; decide +kernel) | (revert w; decide +kernel)

/-- The vector instructions issue. -/
theorem witness_vector :
    (∀ op ∈ [0x02, 0x03, 0x04, 0x05, 0x06, 0x07, 0x08, 0x0A, 0x0B, 0x0C], Ready (ins 3 op plainF regs {}) i0 3 op plainF c0) ∧
    Ready (ins 3 0x09 (f0 15 15 0 0x6C 0) regs {}) i0 3 0x09 (f0 15 15 0 0x6C 0) c0 ∧ Ready (ins 3 0x0C (f0 1 2 0 0 7) regs {}) i0 3 0x0C (f0 1 2 0 0 7) c0 := by
  refine ⟨fun op h => ready_of_bool ?_, ready_of_bool (by decide +kernel), ready_of_bool (by decide +kernel)⟩
  revert op; decide +kernel

/-! ### Queues and tokens -/

/-- QPUT of 8 bytes at the end of SRAM, and of 0 bytes; a queue of 16 requests. -/
def fullQ : Tile := { queues := [(0, { reqs := List.replicate 16 { seq := 0, thr := 0, sram := 0, va := 0, len := 8 } })] }
theorem witness_qput :
    Ready (ins 4 0 (f0 1 2 3 7 8) (at2 0x2FFF8) {}) i0 4 0 (f0 1 2 3 7 8) c0 ∧ ((at2 0x2FFF8).sr 3).toNat % 8 ≠ 0 ∧
    Ready (ins 4 0 (f0 1 2 4 7 0x1000) (at2 0) {}) i0 4 0 (f0 1 2 4 7 0x1000) c0 ∧ 0x1000 % 2 ^ 13 = 4096 ∧
    Ready (ins 4 0 (f0 1 2 4 0 8) (at2 0) fullQ) i0 4 0 (f0 1 2 4 0 8) c0 ∧ (((ins 4 0 (f0 1 2 4 0 8) (at2 0) fullQ).tile 0).queue 0).reqs.length = 16 := by
  refine ⟨ready_of_bool ?_, ?_, ready_of_bool ?_, ?_, ready_of_bool ?_, ?_⟩ <;> decide +kernel

/-- Queue 0 with ISSUE 2 and DONE 1: request 1 runs, or has stopped. -/
def oneReq (x : Stop) : Tile := { queues := [(0, { issue := 2, done := 1, reqs := [{ seq := 1, thr := 0, sram := 0, va := 0, len := 8, stop := x }] })] }
/-- A null token, a token before DONE, one at ISSUE, a pending one and a suspended one. -/
theorem witness_tokens :
    (∀ op ∈ [0x01, 0x02], ∀ p ∈ [(0, Stop.run), (0x800, .run), (0x802, .run), (0x801, .run), (0x801, .record 0), (0x1000, .run)],
      Ready (ins 4 op plainF (at2 p.1) (oneReq p.2)) i0 4 op plainF c0) ∧
    (0 ≤ ((2 : BitVec 8) - 2).toInt ∧ ((0 : BitVec 8) - 2).toInt < 0 ∧ ((0 : BitVec 8) - 1).toInt < 0 ∧ ((1 : BitVec 8) - 2).toInt < 0 ∧ 0 ≤ ((1 : BitVec 8) - 1).toInt) := by
  refine ⟨fun op h p k => ready_of_bool ?_, by decide⟩
  revert op p; decide +kernel

/-- A request whose bytes have all moved, one with a byte left and one that has stopped. -/
theorem witness_queue_complete :
    let q := fun (m : Nat) (x : Stop) => onTile { queues := [(7, { issue := 1, reqs := [{ seq := 0, thr := 5, sram := 0, va := 0, len := 8, moved := m, stop := x }] })] }
    ∀ p ∈ [(8, Stop.run), (7, .run), (8, .dead)], ∃ z, (((q p.1 p.2).tile 0).queue 7).reqs = [z] ∧ z.moved = p.1 ∧ z.stop = p.2 := by
  intro q p h
  simp only [List.mem_cons, List.not_mem_nil, or_false] at h
  rcases h with rfl | rfl | rfl <;> exact ⟨_, rfl, rfl, rfl⟩

/-- An instruction held for its access `k` in thread 0 of tile 0. -/
def heldOp (op : DataOp) (f : Fields) (k : Nat) (got : List Byte) (h : Thread) (x : Tile) : State :=
  onTile { x with thr := [(0, { h with pc := 0x20000, st := .runnable, wait := .replay op f k got })] }

/-- A load and a store held for their data access, with a free bank and with one that an access of higher
priority has taken. -/
theorem witness_data_replay :
    let s := fun (o : DataOp) (g : List (Nat × Nat × BitVec 12)) => heldOp o plainF 0 [] (at2 8) { grants := g }
    (∀ p ∈ [(DataOp.load 8 false, []), (.load 4 true, []), (.load 8 false, [(4, prioWide, narrowMask 8)]), (.store 8, []), (.store 8, [(4, prioWide, narrowMask 8)])],
      heldB (s p.1 p.2) i0 p.1 plainF 0 [] c0 = true ∧ ((s p.1 p.2).passSlot i0).checkAccess 0 4 8 8 true none = none ∧
      ((s p.1 p.2).passSlot i0).checkAccess 0 4 8 8 false none = none ∧
      ((s p.1 p.2).passSlot i0).bankFree 0 4 prioNarrow (narrowMask 8) = p.2.isEmpty) := by decide +kernel

/-- A trap in a RUNNING context, with and without an earlier trap in its tile. -/
theorem witness_trap : ((onTile {}).ctx c0).st = .running ∧ ((onTile {}).tile 0).trapV = false ∧ ((onTile { trapV := true }).tile 0).trapV = true := by
  decide +kernel

/-! ### Streams, messages and flags of a tile -/

/-- A handle of two blocks over two slots of 32 bytes. -/
def ent32 : BlkEnt :=
  { base := 0, src := 0, xmode := 0, esize := 2, cols := 8, rows := 1, planes := 1, rowStride := 32, planeStride := 32, rep := 2, repStride := 32 }
def hnd (out : Bool) (sl : List SlotSt) : Handle := { outbound := out, slots := sl, ents := [ent32], chk := none, link := none, lateNs := 10, base := 0, size := 32, loops := 1 }
/-- A descriptor in SRAM at 0x100: two slots of 32 bytes at 0x1000, one entry of 8 words of 4 bytes. -/
def descWords (w0 : Nat) : List Nat :=
  [w0, 0x1000 + 32 * 2 ^ 18, 0, 0, 0, 0, 0, 0, 2 * 2 ^ 52, 7, 32, 0]
def desc (w0 : Nat) : List Host.Cell := mwrite [] 0x100 ((descWords w0).flatMap (fun w => toLE 8 w))

/-- SOPEN of a good descriptor on a CLOSED handle, on an OPEN one, and of a descriptor with one slot: at its
first read, before its second, and before its last; and a descriptor whose second half ends past SRAM. -/
theorem witness_sopen :
    let f := f0 0 2 0 0 15
    let s := fun (w0 : Nat) (x : Tile) => ins 8 0 f (at2 0x100) { x with sram := desc w0 }
    let got := fun (w0 k : Nat) => mread (desc w0) 0x100 (32 * k)
    let u := fun (w0 k : Nat) (x : Tile) => heldOp .sopen f k (got w0 k) (at2 0x100) { x with sram := desc w0 }
    let g := fun (w0 : Nat) (x : Tile) => (Granted ((u w0 2 x).passSlot i0) i0 true 0x140).readDesc 0 c0 (bytesWords (mread (desc w0) 0x100 96))
    let x : Tile := { handles := [(15, hnd false [.empty, .empty])] }
    (∀ p ∈ [(2, {}), (2, x), (0, ({} : Tile))], readyB (s p.1 p.2) i0 8 0 f c0 = true ∧ dataB (s p.1 p.2) i0 true false 0x100 32 = true ∧
      ∀ k ∈ [1, 2], heldB (u p.1 k p.2) i0 .sopen f k (got p.1 k) c0 = true ∧ freeB ((u p.1 k p.2).passSlot i0) i0 true false (0x100 + 32 * k) 32 = true) ∧
    fld ((bytesWords (got 2 2)).getD 0 0) 8 5 + 2 = 2 ∧ ((u 2 2 {}).tile 0).handle 15 = none ∧ (g 2 {}).isSome = true ∧
    (((u 2 2 x).tile 0).handle 15).isSome = true ∧ g 0 {} = none ∧
    heldB (heldOp .sopen f 2 [] (at2 0x2FFC0) {}) i0 .sopen f 2 [] c0 = true ∧ 0x30000 < 0x2FFC0 + 32 * 2 + 32 := by
  decide +kernel

/-- SWAIT on a CLOSED handle, a FULL slot, an EMPTY slot that will fill, one that will not, and a slot beyond
the handle's. -/
theorem witness_swait :
    let s := fun (m : BitVec 7) (i : BitVec 32) (x : Tile) => ins 8 1 (f0 0 0 0 m i) {} x
    let x : Tile := { handles := [(0, hnd false [.full, .empty])] }
    let y : Tile := { handles := [(0, { hnd false [.empty, .empty] with blk := 2 })] }
    (∀ p ∈ [((0 : BitVec 7), (0 : BitVec 32), x), (1, 0, x), (0, 0x100, x), (1, 0x100, x), (0, 0xF00, x), (0, 0x00F, x), (1, 0x00F, x), (0, 0, y)],
      readyB (s p.1 p.2.1 p.2.2) i0 8 1 (f0 0 0 0 p.1 p.2.1) c0 = true) ∧
    x.swaitSt 0 0 true = .ready ∧ x.swaitSt 0 0 false = .block ∧ x.swaitSt 0 1 true = .block ∧ x.swaitSt 0 15 true = .misuse ∧ y.swaitSt 0 0 true = .misuse ∧
    (hnd false [.full, .empty]).willFill 1 = true ∧ ({ hnd false [.empty, .empty] with blk := 2 } : Handle).willFill 0 = false := by decide +kernel

/-- SRELEASE of a consumer's and of a producer's turn, of no turn, of the last block, and of a linked stream. -/
theorem witness_srelease :
    let s := fun (m : BitVec 7) (x : Tile) => ins 8 2 (f0 0 0 0 m 0) {} x
    let at0 := fun (h : Handle) => ({ handles := [(0, h)] } : Tile)
    let turn := fun (y : Handle) (prod : Bool) => y.outbound = prod ∧ y.released < y.total ∧ 0 = y.slotOf y.released ∧ y.slotSt 0 = (if prod then SlotSt.empty else .full)
    let use := hnd false [.full, .empty]
    let last := { hnd false [.full] with released := 1, ents := [ent32] }
    (∀ p ∈ [((0 : BitVec 7), at0 use), (1, at0 (hnd true [.empty, .empty])), (0, at0 (hnd false [.empty, .empty])), (0, at0 last),
        (0, at0 { use with link := some 0 }), (0, {})], readyB (s p.1 p.2) i0 8 2 (f0 0 0 0 p.1 0) c0 = true) ∧
    turn use false ∧ turn (hnd true [.empty, .empty]) true ∧ ¬turn (hnd false [.empty, .empty]) false ∧ turn last false ∧ last.released + 1 = last.total := by
  decide +kernel

/-- SEND and SENDW of 64 bytes at the end of SRAM, to tile 0 and to a destination of no tile, at both reads. -/
theorem witness_send :
    let f := f0 1 3 2 0 0xFFFF
    let h := fun (d : Nat) => ({ s := [(2, 0x2FFC0), (3, BitVec.ofNat 64 d)] } : Thread)
    (∀ p ∈ [(0x00, DataOp.send), (0x01, .sendw)], ∀ d ∈ [0, 0x2000],
      readyB (ins 5 p.1 f (h d) {}) i0 5 p.1 f c0 = true ∧ dataB (ins 5 p.1 f (h d) {}) i0 true false 0x2FFC0 32 = true ∧
      ∀ k ∈ [0, 1], heldB (heldOp p.2 f k [] (h d) {}) i0 p.2 f k [] c0 = true ∧
        freeB ((heldOp p.2 f k [] (h d) {}).passSlot i0) i0 true false (0x2FFC0 + 32 * k) 32 = true) ∧
    partOfDie State.reset.layout 0 = c0.part ∧ State.reset.fuses.dis.getLsbD 0 = false ∧ 2 ^ 13 ≤ (0x2000 : W64).toNat := by decide +kernel

/-- RECV with no message, with one that does not match, with one still arriving, and with two of which the
second matches, at a destination that it fits and at one that it does not; its copy at both writes; POLL. -/
def msgs : Tile :=
  { store := [{ tag := 1, data := List.replicate 64 1, tid := 5, thr := 0, whole := true }, { tag := 2, data := List.replicate 64 2, tid := 8191, thr := 5, whole := true }] }
def taken : Tile := { store := msgs.store.map (fun m => if m.tag = 2 then { m with taker := some 0 } else m) }
theorem witness_recv_poll :
    let i6 : IssueRef := ⟨0, 0, 6⟩
    let h := fun (a : W64) => ({ s := [(2, a), (3, 0xFFFF)] } : Thread)
    let s := fun (op : Nat) (i : BitVec 32) (x : Tile) => ins 5 op (f0 1 2 3 0 i) (h 0x2FFC0) x
    let late : Tile := { store := msgs.store.map (fun m => { m with cyc := 6 }) }
    let u := fun (k : Nat) => heldOp .recv (f0 1 2 3 0 2) k [] (h 0x2FFC0) taken
    let hit := fun (m : Held) => m.whole = true ∧ m.cyc < 6 ∧ m.taker = none ∧ m.tag &&& 0xFFFF = (2 : BitVec 16) &&& 0xFFFF
    (∀ p ∈ [((2 : BitVec 32), msgs), (3, msgs), (2, late), (2, {})], readyB (s 2 p.1 p.2) i6 5 2 (f0 1 2 3 0 p.1) c0 = true ∧
      readyB (s 3 p.1 p.2) i6 5 3 (f0 1 2 3 0 p.1) c0 = true) ∧
    (∀ m ∈ late.store, ¬hit m) ∧
    (∃ x m, msgs.store = [x] ++ m :: [] ∧ ¬hit x ∧ hit m ∧ x.taker ≠ some 0 ∧ m.data.length = 64) ∧
    freeB ((Issued (s 2 2 msgs) i6).setTile 0 { (Issued (s 2 2 msgs) i6).tile 0 with store := taken.store }) i6 true true 0x2FFC0 32 = true ∧
    0x30000 < 0x2FFE0 + 64 ∧ readyB (ins 5 2 (f0 1 2 3 0 2) (h 0x2FFE0) msgs) i6 5 2 (f0 1 2 3 0 2) c0 = true ∧
    (∀ k ∈ [0, 1], heldB (u k) i6 .recv (f0 1 2 3 0 2) k [] c0 = true ∧ freeB ((u k).passSlot i6) i6 true true (0x2FFC0 + 32 * k) 32 = true) ∧
    (((u 0).tile 0).takenBy 0).isSome = true := by
  refine ⟨by decide +kernel, by decide +kernel, ⟨_, _, rfl, ?_⟩, ?_⟩ <;> decide +kernel

/-- Flag instructions on the tile's last flag, on an owned global flag and on one of no owner. -/
theorem witness_flags :
    let s := fun (op : Nat) (m : BitVec 7) (i : BitVec 32) (own : Nat) =>
      let s := ins 6 op (f0 0 0 0 m i) {} {}
      s.setDie 3 { s.die 3 with flg := { gfOwn := [(4095, own)] } }
    (∀ op ∈ [0, 1, 2, 3], ∀ p ∈ [((0 : BitVec 7), (63 : BitVec 32), 0), (1, 0x3FFF, 1), (1, 0x3FFF, 0)],
      readyB (s op p.1 p.2.1 p.2.2) i0 6 op (f0 0 0 0 p.1 p.2.1) c0 = true) ∧
    (s 0 1 0x3FFF 1).gfOwner 3 4095 = c0.slot + 1 ∧ (s 0 1 0x3FFF 0).gfOwner 3 4095 ≠ c0.slot + 1 := by decide +kernel

/-- FENCE with a store of its thread left, with one of another thread, and with none; the control instructions. -/
theorem witness_fence_control :
    let q := fun (n : Nat) => ({ queues := [(7, { reqs := [{ seq := 0, thr := n, sram := 0, va := 0, len := 8 }] })] } : Tile)
    (∀ x ∈ [q 0, q 1, {}], readyB (ins 6 4 (f0 0 0 0 0 0) {} x) i0 6 4 (f0 0 0 0 0 0) c0 = true) ∧
    (∀ op ∈ [0, 1, 2], readyB (ins 10 op (f0 0 0 0 0 0) {} {}) i0 10 op (f0 0 0 0 0 0) c0 = true) ∧
    readyB (ins 10 0 (f0 0 0 0 0 255) {} {}) i0 10 0 (f0 0 0 0 0 255) c0 = true := by decide +kernel

/-- Wait times at the ends of TMO. -/
theorem witness_wait_times : ∀ p ∈ [(0, 0), (2, 0), (2, 0xFFFF_0000), (4, 0), (4, 0x0FA0_0000), (4, 0x0FA1_0000)],
    (p.1 / 2 % 4 = 0 ∨ p.1 / 2 % 4 = 1 ∨ p.1 / 2 % 4 = 2) ∧ tmoOk (f0 0 0 0 (BitVec.ofNat 7 p.1) (BitVec.ofNat 32 p.2)) = true := by decide +kernel

/-! ### Jobs and updates -/

/-- A BF16 job of one output tile of 1 × 1 with K = 32: A at 0x1000, B at 0x2000, OUT at 0x3000. -/
def jobW (w0 : Nat) : List W64 :=
  [BitVec.ofNat 64 (w0 + 2 ^ 56), 31 * 2 ^ 24, 0x1000 + 64 * 2 ^ 18 + 0x2000 * 2 ^ 36, 64, 0x3000 + 32 * 2 ^ 18, 0, 0, 0]
def bf : Nat := 1 + 2 ^ 4 + 2 ^ 12
def jobSram (w0 : Nat) : List Host.Cell := mwrite [] 0x8000 ((jobW w0).flatMap (fun w => toLE 8 w.toNat))
def theJob : Job := { words := jobW bf, seq := 0, order := 0, s0 := 0 }

/-- CJOB of a good job, of one with a bad format, with a full queue, a barred slot and a bank group without
power, at both reads. -/
theorem witness_cjob :
    let f := f0 1 2 0 0 0
    let on := fun (y : Cluster) (s : State) => ({ s with clusters := [(0, { y with clk := .running })] } : State)
    let s := fun (w0 : Nat) (x : Tile) (y : Cluster) => on y (ins 7 0 f (at2 0x8000) { x with sram := jobSram w0 })
    let got := fun (w0 : Nat) => mread (jobSram w0) 0x8000 32
    let u := fun (w0 : Nat) (x : Tile) (y : Cluster) => on y (heldOp .cjob f 1 (got w0) (at2 0x8000) { x with sram := jobSram w0 })
    let full : Cluster := { eng := [(0, { q := List.replicate 16 { words := [], seq := 0, order := 0, s0 := 0 } })] }
    let bars : Tile := { handles := [(0, { hnd false [.empty] with base := 0x1000 })] }
    let off : Cluster := { g1 := { st := .off } }
    let g := fun (w0 : Nat) (x : Tile) (y : Cluster) => Granted ((u w0 x y).passSlot i0) i0 true 0x8020
    (∀ p ∈ [(bf, ({} : Tile), ({} : Cluster)), (bf + 5, {}, {}), (bf, {}, full), (bf, bars, {}), (bf, {}, off)],
      readyB (s p.1 p.2.1 p.2.2) i0 7 0 f c0 = true ∧ dataB (s p.1 p.2.1 p.2.2) i0 true false 0x8000 32 = true ∧
      heldB (u p.1 p.2.1 p.2.2) i0 .cjob f 1 (got p.1) c0 = true ∧ freeB ((u p.1 p.2.1 p.2.2).passSlot i0) i0 true false 0x8020 32 = true ∧
      bytesWords (got p.1 ++ (u p.1 p.2.1 p.2.2).sramRead 0 0x8020 32) = jobW p.1) ∧
    (g bf {} {}).jobCheck c0 0 0 (jobW bf) = none ∧ ((g bf {} {}).cluster 0).postCause 0 4 (jobW bf) = none ∧ (g bf {} {}).jobSlot 0 4 (jobW bf) = none ∧
    (g bf {} {}).jobOff 0 (jobW bf) = none ∧ (g (bf + 5) {} {}).jobCheck c0 0 0 (jobW (bf + 5)) ≠ none ∧
    ((g bf {} full).cluster 0).postCause 0 4 (jobW bf) = some 2 ∧ ((g bf bars {}).jobSlot 0 4 (jobW bf)).isSome = true ∧
    ((g bf {} off).jobSlot 0 4 (jobW bf)) = none ∧ full.depthAt 0 4 = 16 ∧ ({} : Cluster).depthAt 0 4 < 16 := by decide +kernel

/-- UPD.SPLIT of one group with its planes at 0x1000 to 0x1100, for AdamW and SGD. -/
def updSram : List Host.Cell := mwrite [] 0x8000 ([0x1000 + 0x1020 * 2 ^ 18 + 0x1040 * 2 ^ 36, 0x1080 + 0x10C0 * 2 ^ 18, 0, 0, 0, 0, 0, 0].flatMap (fun w => toLE 8 w))
def updF (m : Nat) : Fields := f0 0 2 0 (BitVec.ofNat 7 m) 0
def updS (m : Nat) : State := ins 9 0 (updF m) (at2 0x8000) { sram := updSram }

/-- The record's two reads, and a group's reads and writes. -/
theorem witness_upd :
    let got := fun (n : Nat) => mread updSram 0x8000 n
    let u := fun (m k : Nat) (b : List Byte) => heldOp .upd (updF m) k b (at2 0x8000) { sram := updSram }
    let r := readUpd (bytesWords (got 64))
    (∀ m ∈ [0, 1], readyB (updS m) i0 9 0 (updF m) c0 = true ∧ dataB (updS m) i0 true false 0x8000 32 = true ∧ Memory.wf updSram = true ∧
      heldB (u m 1 (got 32)) i0 .upd (updF m) 1 (got 32) c0 = true ∧ freeB ((u m 1 (got 32)).passSlot i0) i0 true false 0x8020 32 = true ∧
      r.rsv = false ∧ r.gfmt < 2 ∧ 0 < r.n ∧ planesOverlap r.n (r.planes (decide (m = 1))) = false ∧ badPlane r.n (r.planes (decide (m = 1))) = none ∧
      (let rs := groupReads r (decide (m = 1)) 0
       let ws := groupWrites r (decide (m = 1)) 0 (updGroup r (decide (m = 1)) [])
       (∀ i ∈ List.range rs.length, heldB (u m (i + 2) (got 64)) i0 .upd (updF m) (i + 2) (got 64) c0 = true ∧
         freeB ((u m (i + 2) (got 64)).passSlot i0) i0 true false (rs.getD i 0) 32 = true ∧ rs.getD i 0 + 32 ≤ 0x30000) ∧
       (∀ i ∈ List.range ws.length, heldB (u m (i + rs.length + 2) (got 64)) i0 .upd (updF m) (i + rs.length + 2) (got 64) c0 = true ∧
         freeB ((u m (i + rs.length + 2) (got 64)).passSlot i0) i0 true true (ws.getD i (0, [])).1 32 = true))) := by
  decide +kernel

/-- Records that UPD.SPLIT refuses: a reserved word, planes that overlap, a plane past the end of SRAM. -/
theorem witness_upd_refused :
    (readUpd [0, 0x1000, 0, 0, 0, 0, 1, 0]).rsv = true ∧
    (let u := readUpd [0x1000 + 0x1000 * 2 ^ 18 + 0x1040 * 2 ^ 36, 0x1080 + 0x10C0 * 2 ^ 18, 0, 0, 0, 0, 0, 0]
     planesOverlap u.n (u.planes false) = true) ∧
    (let u := readUpd [0x1000 + 0x1020 * 2 ^ 18 + 0x1040 * 2 ^ 36, 0x1080 + 0x3FFE0 * 2 ^ 18, 0, 0, 0, 0, 0, 0]
     (badPlane u.n (u.planes false)).isSome = true) := by decide +kernel

/-! ### Supersteps, barriers and the exchange -/

/-- A context of one cluster with its superstep state, and tile 0 as given. -/
def withRun (run : Run) (x : Tile) : State := { onTile x with ctxs := [(0, { st := .running, clusters := 1, run := run })] }

/-- The last tile arrives, a tile that is not the last, one with a thread that runs, a fenced one. -/
theorem witness_tile_arrival :
    let lone := fun (x : Tile) => withRun { islocal := true } x
    let two : State := { lone {} with tiles := [(0, {}), (1, { thr := [(0, { st := .runnable })] })] }
    (lone {}).ctxOfTile 0 = some c0 ∧ ((lone {}).ctx c0).run.phase = .compute ∧
    ((lone {}).tile 0).thr = [] ∧ ((lone {}).cluster 0).jobs.length = 0 ∧
    (∀ t ∈ ((lone {}).ctx c0).tids, ((lone {}).setTile 0 { (lone {}).tile 0 with arrived := true }).tileIn t = true) ∧
    two.tileIn 1 = false ∧ 1 ∈ (two.ctx c0).tids ∧ ((lone { fenced := true }).tile 0).fenced = true ∧
    (lone { thr := [(0, { st := .runnable })] }).tileReady 0 = false := by decide +kernel

/-- A module-local context at its barrier; the root of a hall context with its child in; neither. -/
def ths0 (x : Ths) : State :=
  let s := withRun { phase := .barrier } {}
  { s.setDie 0 { s.die 0 with ths := [(0, x)] } with ports := [(1, { link := { st := .up } }), (2, { link := { st := .up } })] }
def rootThs : Ths := { cfg := 0x3_0005, child := 2, arr := 2, self := true }
theorem witness_barrier :
    ((withRun { phase := .barrier, islocal := true } {}).ctx c0).run.islocal = true ∧ ((ths0 rootThs).ctx c0).run.phase = .barrier ∧
    ((ths0 rootThs).ths c0).hall = true ∧ ((ths0 rootThs).ths c0).root = true ∧ ((ths0 rootThs).ths c0).self = true ∧
    (ths0 rootThs).childrenIn rootThs = true ∧ (ths0 { rootThs with arr := 0 }).childrenIn { rootThs with arr := 0 } = false := by decide +kernel

/-- ARRIVE for the superstep at hand, the next, a stale and a far one; two bad copies; another hall context's;
a port DOWN. -/
theorem witness_arrive :
    let s := ths0 { rootThs with arr := 0 }
    let w := fun (n : Nat) => arriveWord rootThs (BitVec.ofNat 32 n)
    (s.port 1).isUp = true ∧ (s.port 0).isUp = false ∧ goodCopy tyArrive 0 (w 0) = some (w 0) ∧ goodCopy tyArrive 1 1 = none ∧
    s.hallCtx (bits (symBody (w 0)) 15 0) = some c0 ∧ s.hallCtx 6 = none ∧ rootThs.child.getLsbD 1 = true ∧ rootThs.child.getLsbD 2 = false ∧
    bits (symBody (w 0)) 47 16 = 0 ∧ bits (symBody (w 1)) 47 16 = 1 ∧ bits (symBody (w 2)) 47 16 = 2 ∧
    (BitVec.ofNat 32 (bits (symBody (w 0x8000_0001)) 47 16) - (s.ctx c0).run.ssn).toInt = -2147483647 ∧
    (BitVec.ofNat 32 (bits (symBody (w 0xFFFF_FFFF)) 47 16) - (s.ctx c0).run.ssn).toInt = -1 ∧
    (BitVec.ofNat 32 (bits (symBody (w 0x7FFF_FFFF)) 47 16) - (s.ctx c0).run.ssn).toInt = 2147483647 := by decide +kernel

/-- COMPLETE from the parent port for the superstep at hand, in time and late, and for another superstep. -/
theorem witness_complete :
    let leaf : Ths := { cfg := 0x1_0005 + 2 * 2 ^ 18, self := true }
    let s := ths0 leaf
    let w := fun (n t : Nat) => completeWord leaf (BitVec.ofNat 32 n) (BitVec.ofNat 64 t)
    (s.port 2).isUp = true ∧ goodCopy tyComplete (w 0 0) 0 = some (w 0 0) ∧ goodCopy tyComplete 0 0 = none ∧ s.hallCtx (bits (symBody (w 0 0)) 15 0) = some c0 ∧
    2 ∈ s.parents leaf ∧ 1 ∉ s.parents leaf ∧ s.atBarrier c0 = true ∧ bits (symBody (w 0 0)) 23 16 = (s.ctx c0).run.ssn.toNat % 256 ∧
    bits (symBody (w 255 0)) 23 16 ≠ (s.ctx c0).run.ssn.toNat % 256 ∧ bits (symBody (w 0 9)) 47 24 = 9 ∧
    s.ht.now.toNat + 64 ≤ xStartOf 0 false ∧ xStartOf 0 false < ({ s with ht := { s.ht with now := 4000 } } : State).ht.now.toNat + 64 := by decide +kernel

/-- Times completed from their low bits at the ends of the range. -/
theorem witness_nearest : (0 < 24 ∧ 0 < 2 ^ 24 ∧ 2 ^ 24 ≤ 2 ^ 24) ∧ nearest 0 24 (2 ^ 24) = 2 ^ 24 ∧ nearest (2 ^ 24 - 1) 24 (2 ^ 24) = 2 ^ 24 - 1 ∧
    nearest 1 24 (2 ^ 25 - 1) = 2 ^ 25 + 1 := by decide +kernel

/-- A Strict context with MISS_ACT past its deadline, at it, without a budget, and an Elastic one. -/
def strictS (b : W32) (now : W64) (strict : Bool) : State :=
  let s := { onTile {} with ctxs := [(0, { st := .running, clusters := 1, strict := strict })] }
  { s.setDie 0 { s.die 0 with budget := [(0, b)], ss := [(0, { missAct := true })] } with ht := { s.ht with now := now } }
theorem witness_overrun :
    let s := strictS 100
    ((s 101 true).budget c0 0 ≠ 0 ∧ (s 101 true).deadline c0 0 < 101 ∧ ((s 101 true).ss 0 0).missAct = true ∧ 0 ∈ ((s 101 true).ctx c0).dies ∧
      ((s 101 true).ctx c0).strict = true ∧ ((s 101 true).ctx c0).run.arrAt = none ∧ ((s 101 true).ctx c0).run.phase = .compute) ∧
    ¬(s 100 true).deadline c0 0 < 100 ∧ (strictS 0 101 true).budget c0 0 = 0 ∧ ((s 101 false).ctx c0).strict = false := by decide +kernel

/-- A context that has met two misses on one die and one on another in a nanosecond, beside a context that met
none. -/
theorem witness_instant :
    let s : State := { onTile {} with ctxs := [(0, { st := .running, clusters := 1, strict := true, run := { instant := [(0, causeComputeOverrun, 1), (0, causeLateConsumer, 0)] } }),
      (1, { st := .running, clusters := 2 })] }
    s.plat.powered = true ∧ s.pending = [] ∧ s.pins = [] ∧ (s.ctx c0).st = .running ∧ (s.ctx c0).run.instant ≠ [] ∧
    (∀ x ∈ allCtx, x ≠ c0 → (s.ctx x).run.instant = []) ∧ (∀ x ∈ (s.ctx c0).run.instant, x.1 ∈ (s.ctx c0).dies) ∧
    (s.ss 0 c0.slot).missInfo.getLsbD 31 = false := by decide +kernel

/-- An idle nanosecond: a module as reset leaves it, and one whose contexts run. -/
theorem witness_idle : State.reset.pending = [] ∧ State.reset.plat.powered = true ∧ State.reset.pins = [] ∧
    (∀ c ∈ allCtx, ((onTile {}).ctx c).run.instant = []) ∧ (onTile {}).pending = [] := by decide +kernel

/-- At x_start with every list read, before it, and with a list to read; a list with a bad entry. -/
theorem witness_exchange_start :
    let run : Run := { phase := .barrier, tbcV := true, xstart := 256, islocal := true }
    let s := fun (t : W64) (x : Tile) => ({ withRun run x with ht := { State.reset.ht with now := t } } : State)
    let t := fun (x : Tile) => ((s 256 x).setCtx c0 { (s 256 x).ctx c0 with run := { run with phase := .exchange } }).checkLists c0
    ((s 256 {}).ctx c0).run.xstart.toNat ≤ (s 256 {}).ht.now.toNat ∧ ¬((s 255 {}).ctx c0).run.xstart.toNat ≤ (s 255 {}).ht.now.toNat ∧
    (∀ k ∈ ((s 256 {}).ctx c0).tids, ((s 256 {}).tile k).xch.next = none) ∧ ((s 256 { xch := { next := some 0 } }).tile 0).xch.read = false ∧
    ((t {}).ctx c0).st = .running ∧ ((t { xch := { next := some 0, read := true, list := [⟨1 + 0x1FFF * 2 ^ 6, 0⟩, ⟨0, 0⟩] } }).ctx c0).st ≠ .running := by
  decide +kernel

/-- An exchange phase that is done, one that is not; a HALT that waits, one at its boundary. -/
def xchS (x : Tile) (halts : List RingRef) : State :=
  { withRun { phase := .exchange, tbcV := true, arrAt := some 0, islocal := true, haltBy := halts } x with ht := { State.reset.ht with now := 1000 } }
theorem witness_next_superstep :
    let s := xchS { thr := [(0, { st := .blocked, wait := .sync }), (1, { st := .blocked, wait := .fence })] } []
    s.exchanging c0 = true ∧ s.phaseDone c0 = true ∧ (∀ d ∈ (s.ctx c0).dies, s.missCauses c0 d = 0) ∧ s.pairOn = false ∧
    (xchS { xch := { list := [⟨1, 0⟩, ⟨0, 0⟩], read := true } } []).phaseDone c0 = false ∧ (xchS {} [r0]).phaseDone c0 = true ∧
    ((withRun { phase := .boundary, haltBy := [r0] } {}).ctx c0).run.phase = .boundary := by decide +kernel

/-- A list of one send and its END, read and not yet read. -/
theorem witness_list_read :
    let s := fun (r : Bool) => withRun { phase := .barrier } { arrived := true, xch := { next := some 0x2FFE0, read := r } }
    (s false).ctxOfTile 0 = some c0 ∧ ((s false).tile 0).xch.next = some 0x2FFE0 ∧ (s false).tileIn 0 = true ∧ ((s false).tile 0).xch.read = false ∧
    ((s true).tile 0).xch.read = true := by decide +kernel

/-- A send entry of 2 units to tile 1 at cycle 0: the first unit due, sent, and before its cycle; a RECV entry
whose cycle has passed. -/
def sendE : XEntry := ⟨1 + 1 * 2 ^ 6, 0x1000 + 1 * 2 ^ 18⟩
def recvE : XEntry := ⟨2 + 1 * 2 ^ 6, 0x1000⟩
theorem witness_units :
    let s := fun (x : XUnit) => xchS { xch := x } []
    sendE.isSend = true ∧ sendE.count = 2 ∧ sendE.peer = 1 ∧ recvE.isRecv = true ∧ recvE.count = 1 ∧
    (s { list := [sendE] }).exchanging c0 = true ∧ (s { list := [sendE] }).ctxOfTile 0 = some c0 ∧ ((s { list := [sendE] }).tile 0).xch.list[0]? = some sendE ∧
    ((s { list := [sendE] }).ctx c0).run.xstart.toNat + sendE.start + 1 ≤ 1000 ∧ (0, 0) ∉ ((s { list := [sendE] }).tile 0).xch.sent ∧
    ((s { list := [recvE] }).ctx c0).run.xstart.toNat + (recvE.start + 0) < 1000 ∧ (0, 0) ∉ ((s { list := [recvE] }).tile 0).xch.got := by decide +kernel

/-- Units at a router on their way, at their tile, on a lane in use, for a fenced tile, for a port, of a stale
epoch, and expected by a RECV entry. -/
def fl (d : XDest) (arr : Bool) (cyc : Nat) : Flight :=
  { id := 0, ctx := c0, cxh := 0, src := 1, dest := d, data := 5, lane := 0, yx := false, rr := 0, rc := 0, cycle := cyc, arrived := arr }
theorem witness_flights :
    let s := fun (f : Flight) (x : Tile) => ({ xchS x [] with flights := [f], ports := [(0, { xch := { owner := some c0 } })] } : State)
    let r : Tile := { xch := { list := [recvE] } }
    (∀ f ∈ [fl (.tile 0) false 4, fl (.tile 0) true 0, fl (.tile 2047) false 0, fl (.port 0 3) true 0], (s f {}).flights.find? (fun g => g.id = 0) = some f) ∧
    (s (fl (.tile 0) false 4) {}).ht.now.toNat ≥ 4 ∧ ¬(1001 ≤ (s (fl (.tile 0) false 1001) {}).ht.now.toNat) ∧
    outOf (0, 0) (destRouter (.tile 0)) false outTile = outTile ∧ outOf (0, 0) (destRouter (.tile 2047)) false outTile = outEast ∧
    (s (fl (.tile 0) false 4) { fenced := true }).fencedDest (fl (.tile 0) false 4) outTile = true ∧
    (s (fl (.tile 0) false 4) {}).fencedDest (fl (.tile 0) false 4) outTile = false ∧
    (s (fl (.tile 0) true 0) r).cxh c0 = (fl (.tile 0) true 0).cxh ∧ (s (fl (.tile 0) true 0) r).ctxOfTile 0 = some c0 ∧
    recvAt ((s (fl (.tile 0) true 0) r).tile 0).xch.list 0 = some (0, recvE) ∧ recvE.peer = (fl (.tile 0) true 0).src ∧
    (s { fl (.tile 0) true 0 with cxh := 1 } r).cxh c0 ≠ 1 ∧ ((s (fl (.port 0 3) true 0) {}).port 0).xch.owner = some c0 ∧
    [({ ctx := c0, cycle := 4, chan := chanOf (0, 0) outEast, lane := 0, unit := 1, src := 2 } : LaneUse)].find?
      (fun l => l.cycle = 4 && l.chan = chanOf (0, 0) outEast && l.lane = 0) ≠ none := by decide +kernel

/-- Watch slots of a live context: the countdown at 0, above 0; a streak at its top; one that reaches its
threshold, and one that has passed it. -/
theorem witness_watch :
    let s := fun (n st : Nat) (cfg : W32) =>
      let s := onTile {}
      s.setDie 3 { s.die 3 with watch := [(255, { own := 32, count := n, stat := BitVec.ofNat 32 st, cfg := cfg })] }
    (∀ p ∈ [(0, 0x1_FFFF, (0 : W32)), (0, 0x3_0000, 0), (1, 0, 0), (0, 0x1_0002, 0x3_0000), (0, 0x1_0003, 0x3_0000)],
      (sget {} ((s p.1 p.2.1 p.2.2).die 3).watch 255).owner = some c0 ∧ (sget {} ((s p.1 p.2.1 p.2.2).die 3).watch 255).count = p.1 ∧
      ((s p.1 p.2.1 p.2.2).ctx c0).live = true) ∧
    ((0x1_0002 : W32).getLsbD 16 = true ∧ (0x1_0002 : W32).getLsbD 17 = false ∧ min (0x1_0002 % 65536 + 1) 65535 = (0x3_0000 : W32).toNat / 65536) := by
  decide +kernel

/-! ### Clocks and Clover -/

/-- Clocks that start, run with and without demand, and stop with and without a demand. -/
theorem witness_clocks :
    let s := fun (x : ClkSt) (w : Bool) (t : Tile) => ({ onTile t with clusters := [(0, { clk := x, want := w })] } : State)
    (∀ p ∈ [(ClkSt.starting, false), (.running, false), (.gating, false), (.gating, true), (.stopped, false)],
      ((s p.1 p.2 {}).cluster 0).clk = p.1 ∧ ((s p.1 p.2 {}).cluster 0).want = p.2) ∧ (s .running false {}).hasDemand 0 = false ∧
    (s .running false { thr := [(0, { st := .runnable })] }).hasDemand 0 = true ∧ State.reset.plat.trip = false ∧ State.reset.plat.pf = true ∧
    (({ k := 0 } : Cluster).tilePh < 80 ∧ ({ tilePh := 79, cloverPh := 79 } : Cluster).cloverPh < 80) := by decide +kernel

/-- Clocks that may not start, and a change of mode at a boundary, between two, and of stopped clocks. -/
theorem witness_modes :
    let s := fun (p : Plat) => ({ State.reset with plat := p, clusters := [(0, { clk := .starting })] } : State)
    (s { pstate := .standby }).plat.pstate = .standby ∧ (s { trip := true }).plat.trip = true ∧ (s {}).plat.pstate ≠ .standby ∧
    (∀ x ∈ [({ clk := .stopped, cyc := 5 } : Cluster), { clk := .running, cyc := 16 }], x.clk ≠ .running ∨ x.cyc % 16 = 0) ∧
    ¬(({ clk := .running, cyc := 5 } : Cluster).clk ≠ .running ∨ ({ clk := .running, cyc := 5 } : Cluster).cyc % 16 = 0) := by decide +kernel

/-- A scoreboard with room for a job of three regions, and one that is full. -/
theorem witness_scoreboard :
    let j : Job := { theJob with clearAt := 1000 }
    let x := fun (n : Nat) => ({ eng := [(0, { q := List.replicate n j }), (1, { q := List.replicate n j })] } : Cluster)
    (x 1).depthAt 0 0 < 16 ∧ ((x 1).jobsAll.map (fun j => ((x 1).entriesAt j.2 0).length)).sum + (jobRegions (jobW bf)).length ≤ 64 ∧
    (x 15).depthAt 0 0 < 16 ∧ 64 < ((x 15).jobsAll.map (fun j => ((x 15).entriesAt j.2 0).length)).sum + (jobRegions (jobW bf)).length := by decide +kernel

/-- K formats. -/
theorem witness_kc : jobFmtA [0] % 8 = 0 ∧ jobFmtA [1] % 8 = 1 ∧ jobFmtA [2] % 8 = 2 ∧ 3 ≤ jobFmtA [3] % 8 ∧ 3 ≤ jobFmtA [0xE] % 8 := by decide

/-- Engine 2 of cluster 0 with its jobs, at a Clover cycle. -/
def engS (js : List Job) (cyc : Nat) (x : Tile) : State :=
  { onTile x with clusters := [(0, { clk := .running, cyc := cyc, eng := [(2, { q := js })] })] }
/-- A job whose done flag is on, of four output tiles. -/
def job4 : Job := { theJob with words := [BitVec.ofNat 64 (bf + 2 ^ 56 + 2 ^ 25 + 63 * 2 ^ 26), 0x1F00_0011, 0x1000 + 64 * 2 ^ 18 + 0x2000 * 2 ^ 36, 64, 0x3000 + 32 * 2 ^ 18, 0, 0, 0] }
theorem witness_tile_start :
    (engS [theJob] 0 {}).ctxOfCid 0 = some c0 ∧ ((engS [theJob] 0 {}).ctx c0).live = true ∧ ((engS [theJob] 0 {}).engine 0 2).q = [] ++ theJob :: [] ∧
    theJob.started = 0 ∧ theJob.s0 ≤ 0 ∧ jobTiles job4.words = 4 ∧ jobP job4.words = 256 ∧ (0 < 1 ∧ 1 < jobTiles job4.words) ∧
    ({ job4 with started := 1 } : Job).s0 + 1 * max (jobKc job4.words) 256 ≤ 256 ∧ ¬(0 + 1 * max (jobKc job4.words) 256 ≤ 255) ∧
    (∀ k ∈ [({ theJob with started := 1 } : Job)], k.started = jobTiles k.words ∧ k.started ≠ 0) := by decide +kernel

/-- A feed window at its tile cycle and at another, and before its Clover cycle. -/
theorem witness_feed :
    let s := engS [{ theJob with s0 := 48 }] 16 {}
    s.cloverCtx 0 = some c0 ∧ 16 * 1 ≤ (s.cluster 0).cyc ∧ (s.cluster 0).tileAt (16 * 1) = 0 ∧ ¬(16 * 2 ≤ (s.cluster 0).cyc) ∧
    (s.cluster 0).due 0 1 ≠ [] ∧ (∀ a ∈ (s.cluster 0).due 0 1, a.writes = false ∧ a.addr + 32 ≤ 0x30000) ∧ (s.cluster 0).cloverAt ((s.cluster 0).tileAt 16) / 16 = 1 ∧
    (∀ a ∈ ((s.cluster 0).due 0 1).take 1, wideMask a.addr &&& wideMask 0x1000 ≠ 0) ∧ ∀ i ∈ List.range 32, (s.bank 0 (groupOf (0x1000 + i))).serves = true := by
  decide +kernel

/-- A wavefront at its cycle and one before, a unit to drain, the end of a tile and of a job. -/
theorem witness_wave_drain :
    let j := fun (st wv dr : Nat) => ({ theJob with started := st, waves := wv, drained := dr } : Job)
    let w := jobW bf
    (∀ p ∈ [(542, 1, 0, 0), (798, 1, 1, 0), (798, 1, 1, 1)], (engS [j p.2.1 p.2.2.1 p.2.2.2] p.1 {}).cloverCtx 0 = some c0 ∧
      ((engS [j p.2.1 p.2.2.1 p.2.2.2] p.1 {}).engine 0 2).q = [j p.2.1 p.2.2.1 p.2.2.2]) ∧
    0 + 0 * max (jobKc w) 256 + jobKc w + 510 = 542 ∧ jobKc w + 510 + 256 = 798 ∧ jobTiles w = 1 ∧ jobDoneEn w = false ∧ jobDoneEn job4.words = true ∧
    0 < jobRows w 0 ∧ 0 < rowUnits w 0 ∧ rowUnits w 0 = 1 ∧ unitCols w 0 0 = (0, 1) ∧ (j 1 1 0).sAt 0 + jobKc w + 255 + 0 + (0 + 1 - 1) < 798 ∧
    jobWatchEn w = false ∧ jobZoutEn w = false ∧ ((engS [j 1 1 0] 798 {}).bank 0 (groupOf (outAddr w 0 0))).serves = true ∧
    (∀ i, i < jobRows w 0 → sget 0 [(0, 1)] i = rowUnits w 0) ∧ (∀ c ∈ [0, 1, 2, 3, 4], jobDrain [BitVec.ofNat 64 (c * 2 ^ 16)] = c) := by decide +kernel

/-- A unit that is due and one that is not yet, and a row with none; the update of a scale entry that may be
made, and one that waits for an earlier one. -/
theorem witness_drain_due :
    let j : Job := { theJob with started := 1 }
    let y := fun (cyc : Nat) => (engS [j] cyc {}).engine 0 2
    (y 0).rowTile 0 = some (j, 0) ∧ (y 0).rowTile 1 = none ∧ sget 0 j.rows 0 = 0 ∧ 16 * ((j.sAt 0 + jobKc j.words + 255 + 0 + (0 + 1 - 1)) / 16 + 1) ≤ 288 ∧
    ¬(16 * ((j.sAt 0 + jobKc j.words + 255 + 0 + (0 + 1 - 1)) / 16 + 1) ≤ 287) ∧
    ((engS [j] 798 {}).cluster 0).mayUpdate 2 j 0 = true ∧ ((engS [theJob] 0 {}).cluster 0).mayStart theJob 0 = true := by decide +kernel

/-- Scale steps: a saturated one, a low one at CLEAN_THR and below, and one that is not low. -/
theorem witness_scaling :
    let low := fun (k : TileStat) => k.sat = false ∧ k.nonf = false ∧ magAbove (lowBound 3 1).1 (lowBound 3 1).2 k.m k.e = true
    ({ sat := true } : TileStat).sat = true ∧ low {} ∧ ¬low { m := 2 ^ 20 } ∧ min (0 + 1) 65535 < 2 ∧ 1 ≤ min (0 + 1) 65535 := by decide +kernel
/-! ### Streams, transfers and translation -/

/-- Whether a translation gives places. -/
def okB {ε α : Type} : Except ε α → Bool
  | .ok _ => true
  | .error _ => false

/-- The tables of context slot 0 on die 0: VA 0 to 1 GiB at PA 0, all rights (R180). -/
def mapped (s : State) : State :=
  let d := s.die 0
  { s.setDie 0 { d with str := { d.str with root := [(0, 1)] } } with hbm := [(0, 0x0F)] }

/-- Blocks that may start and that may not: inbound, outbound and linked streams. -/
theorem witness_block_start :
    let s := fun (y : Handle) => onTile { handles := [(15, y)] }
    let inb := hnd false [.empty, .empty]
    let out := { hnd true [.full, .empty] with released := 1 }
    (∀ y ∈ [inb, out, hnd true [.full, .empty], { inb with active := true }, { out with link := some 255 }, { inb with link := some 255 }],
      ((s y).tile 0).handle 15 = some y ∧ (s y).ctxOfTile 0 = some c0 ∧ (s y).dmaRuns c0 = true ∧ y.blk < y.total) ∧
    inb.active = false ∧ inb.stop = .run ∧ inb.slotSt (inb.slotOf 0) = .empty ∧ out.slotSt (out.slotOf 0) = .full ∧ 0 < out.released ∧
    ¬(0 < (hnd true [.full, .empty]).released) ∧ (0 - ((s out).link 0 255).ccount).toInt < bits ((s out).link 0 255).cfg.toNat 7 0 + 1 ∧
    ¬((0 - ((s inb).link 0 255).pcount).toInt < 0) := by decide +kernel

/-- A block whose last byte has moved, one with bytes left, the last block of an outbound and of a linked stream. -/
theorem witness_block_complete :
    let e := { ent32 with base := 0 }
    let h := { hnd false [.filling, .empty] with active := true, inner := 32 }
    let o := { hnd true [.full, .draining] with active := true, inner := 32, blk := 1, released := 2 }
    (∀ y ∈ [h, o, { o with link := some 0 }, { h with inner := 0 }], ((onTile { handles := [(0, y)] }).tile 0).handle 0 = some y ∧
      (y.blkOf y.blk = some (e, 0) ∨ y.blkOf y.blk = some (e, 1)) ∧ y.active = true) ∧
    e.bytes = 32 ∧ o.blk + 1 = o.total ∧ h.blk + 1 ≠ h.total := by decide +kernel

/-- The next unit of a load (with its bank free, and taken), of a store, and of a stream; one that is
presented again. -/
theorem witness_units_move :
    let s := fun (q : Nat) (x : Tile) => mapped (onTile { x with
      queues := [(q, { issue := 1, reqs := [{ seq := 0, thr := 0, sram := 0x2FFE0, va := 0x1000, len := 32 }] })],
      handles := [(0, { hnd false [.empty, .empty] with active := true })] })
    let ready := fun (q u : Nat) (x : Tile) =>
      (s q x).ctxOfTile 0 = some c0 ∧ ((s q x).nextUnit 0 u 0).isSome = true ∧ (s q x).dmaRuns c0 = true ∧ ((s q x).cluster 0).clk = .running ∧
      (match (s q x).nextUnit 0 u 0 with
        | none => true
        | some z =>
          let r := (s q x).translateAll 0 c0 (!z.toSram) z.vas
          okB r.2 && (r.1.checkAccess 0 0 z.a 32 z.toSram z.own).isNone) = true
    (ready 0 0 {} ∧ ready 7 7 {} ∧ ready 0 8 {}) ∧ ((s 0 {}).tile 0).dmaHeld = none ∧ ((s 0 {}).tile 0).dmaAt ≤ 0 ∧
    (s 0 {}).bankFree 0 0 prioDma (wideMask 0x2FFE0) = true ∧ (s 0 { grants := [(0, prioExchange, wideMask 0x2FFE0)] }).bankFree 0 0 prioDma (wideMask 0x2FFE0) = false ∧
    (s 0 {}).bankTaken 0 0 prioDma (wideMask 0x2FFE0) = false ∧
    ready 0 0 { dmaHeld := some (0, 0, 0x2FFE0) } ∧ ((s 0 { dmaHeld := some (0, 0, 0x2FFE0) }).tile 0).dmaHeld = some (0, 0, 0x2FFE0) := by decide +kernel

/-- An SWAIT that is late: in a Strict context with MISS_ACT, in others; one at its last time; a stream
without LATE_NS. -/
theorem witness_late :
    let s := fun (strict act : Bool) (now : W64) =>
      let s := onTile { thr := [(5, { st := .blocked, wait := .slot 0 0 true 100 false })], handles := [(0, hnd false [.empty, .empty])] }
      let s := s.setDie 0 { s.die 0 with ss := [(0, { missAct := act })] }
      ({ s with ctxs := [(0, { st := .running, clusters := 1, strict := strict })], ht := { s.ht with now := now } } : State)
    (∀ strict : Bool, ∀ act : Bool, (s strict act 111).ctxOfTile 0 = some c0 ∧ ((s strict act 111).thread 0 5).wait = .slot 0 0 true 100 false ∧
      ((s strict act 111).ctx c0).st = .running ∧ ((s strict act 111).ctx c0).strict = strict ∧ ((s strict act 111).ss 0 c0.slot).missAct = act) ∧
    ((s true true 111).tile 0).handle 0 = some (hnd false [.empty, .empty]) ∧ (hnd false [.empty, .empty]).lateNs ≠ 0 ∧
    100 + (hnd false [.empty, .empty]).lateNs + 1 ≤ (s true true 111).ht.now.toNat ∧
    ¬(100 + (hnd false [.empty, .empty]).lateNs + 1 ≤ (s true true 110).ht.now.toNat) := by decide +kernel

/-- MMU registers: an idle and a busy invalidation, a function that does not see the die; a record in use with
a holder, one without, a free one. -/
theorem witness_mmu :
    let s := fun (i : Option W32) (f : W64) (x : Tile) =>
      let s := onTile x
      s.setDie 0 { s.die 0 with str := { inval := i, frec := [(31, { fva := f })], tlb := [⟨0, 0, 0, false⟩] } }
    let busy := BitVec.ofNat 64 (2 ^ 63)
    (s none busy {}).sees 0 0 = true ∧ (s none busy {}).sees 3 0 = false ∧ ((s none busy {}).die 0).str.inval = none ∧
    ((s (some 8) busy {}).die 0).str.inval = some 8 ∧ ((s none busy {}).frec 0 31).fva.getLsbD 63 = true ∧ ((s none 0 {}).frec 0 31).fva.getLsbD 63 = false ∧
    (s none busy {}).recHolder 0 31 = none ∧ (s none busy (oneReq (.record 31))).recHolder 0 31 = some (0, 0) ∧
    (s none busy (oneReq (.record 31))).ctxOfTile 0 = some c0 ∧
    (((s none busy (oneReq (.record 31))).setStop 0 0 .dead).freeFrec 0 31).ctxOfTile 0 = some c0 ∧
    (1 : W32).getLsbD 0 = true ∧ (1 : W32).getLsbD 1 = false ∧ (2 : W32).getLsbD 1 = true := by decide +kernel

/-- The last populated byte of a stack, of a die and of the module, and the byte after. -/
theorem witness_placed : (79999999999 < 2 ^ 37 ∧ 80000000000 < 2 ^ 37 ∧ 19 < 20 ∧ 3 < 4 ∧ 399999999999 < 400000000000 ∧ 400000000000 < 2 ^ 43) ∧
    paStack .p1 0 (19 * 2 ^ 37 + 79999999999) = some (19, 79999999999) ∧ paStack .p1 0 (2 ^ 46 + 4096 * 20) = some (0, 4096) ∧
    paStack .p1 0 (2 ^ 46 + 4096) = some (5, 0) ∧ (diesOf .p1 0).length * 400000000000 < 2 ^ 45 ∧ paStack .p1 0 (2 ^ 46 + 1600000000000) = none := by
  decide +kernel

/-! ### Messages and flags that travel -/

/-- A message that meets each of the six answers, one whose port has taken a header in this exchange cycle,
and entries freed in this exchange cycle. -/
def msgTo (dst : W64) (cxh : BitVec 16) : Msg := { dst := dst, tag := 7, cxh := cxh, data := List.replicate 64 1 }
def sending (m : Msg) (retry : Bool) (x : SendSt) (y : Tile) (st : CtxSt) (now : W64) : State :=
  let s := onTile { y with thr := [(0, { st := .blocked, wait := .send 1 m retry 1 0 1000 x }), (1, { st := .runnable })] }
  { s with ctxs := [(0, { st := st, clusters := 1 })], ht := { s.ht with now := now } }
theorem witness_message_arrival :
    let s := fun (m : Msg) (y : Tile) (st : CtxSt) => sending m false .travelling y st 0
    let h := State.reset.cxh c0
    let full : Tile := { store := List.replicate 32 { tag := 0, data := List.replicate 64 0, tid := 0, thr := 0, whole := true } }
    (∀ st ∈ [CtxSt.running, .faulted], ((s (msgTo 0 h) {} st).thread 0 0).wait = .send 1 (msgTo 0 h) false 1 0 1000 .travelling) ∧
    cxhSlot h = c0 ∧ (s (msgTo 256 h) {} .running).ctxOfTile 256 ≠ some c0 ∧ (s (msgTo 0 h) {} .running).ctxOfTile 0 = some c0 ∧
    cxhSlot (h + 1) = c0 ∧ (s (msgTo 0 h) {} .running).cxh c0 ≠ h + 1 ∧ ((s (msgTo 0 h) { fenced := true } .running).tile 0).fenced = true ∧
    ((s (msgTo 0 h) {} .faulted).ctx c0).st = .faulted ∧ 32 < (((s (msgTo 0 h) full .running).tile 0).store.map (fun k => k.data.length / 64)).sum + 64 / 64 ∧
    (s (msgTo 0 h) full .running).tailAt 0 0 = none ∧ (s (msgTo 0 h) {} .running).tailAt 0 0 = none ∧ (s (msgTo 0 h) {} .running).plat.pstate ≠ .standby ∧
    (s (msgTo 0 h) { hdrAt := 1 } .running).ht.now.toNat < ((s (msgTo 0 h) { hdrAt := 1 } .running).tile 0).hdrAt ∧
    (((s (msgTo 0 h) {} .running).tile 0).thread 1).st = .runnable := by
  decide +kernel

/-- The rest of a message whose entries are reserved, with no RECV that waits, and with two of which the later
thread issued first. -/
theorem witness_message_held :
    let m : Held := { tag := 7, data := List.replicate 64 1, tid := 0, thr := 0 }
    let recv := fun (o : Nat) => Wait.recv plainF 0x1000 7 0xFFFF 1000 o
    let s := fun (ws : List (Nat × Thread)) => onTile { thr := (0, { st := .blocked, wait := .send 1 (msgTo 0 (State.reset.cxh c0)) false 1 0 0 (.replied msgAck) }) :: ws, store := [m] }
    let two := [(1, ({ st := .blocked, wait := recv 5 } : Thread)), (2, { st := .blocked, wait := recv 4 })]
    (∀ ws ∈ [[], two], (s ws).tailAt 0 0 = some (0, m) ∧ (s ws).ctxOfTile 0 = some c0 ∧ ((s ws).ctx c0).st = .running) ∧
    (List.range 6).filterMap ((s []).tile 0).recvOf = [] ∧
    firstRecv ((List.range 6).filterMap (Tile.recvOf { (s two).tile 0 with store := [{ m with whole := true }] })) = some 2 ∧ ((s two).thread 0 2).wait = recv 4 := by decide +kernel

/-- Replies to SEND and SENDW: taken, FULL with time left, FULL at the limit and past it; a retry due and not
yet; an exhausted sender; a stale epoch. -/
theorem witness_replies :
    let h := State.reset.cxh c0
    let s := fun (cxh : BitVec 16) (x : SendSt) (now : W64) => sending (msgTo 0 cxh) true x {} .running now
    (s h (.replied msgFull) 0).cxh (cxhSlot h) = h ∧ (s (h + 1) (.replied msgFull) 0).cxh (cxhSlot (h + 1)) ≠ h + 1 ∧
    ((s h (.replied msgFull) 0).ctx (cxhSlot h)).st = .running ∧
    (∀ x ∈ [SendSt.replied msgAck, .replied msgFull, .backoff 64, .spent], ((s h x 936).thread 0 0).wait = .send 1 (msgTo 0 h) true 1 0 1000 x) ∧
    msgAck ≠ msgFull ∧ (0 + min (64 * 2 ^ (1 - 1)) 4096 < 0 + 1000 ∧ 0 + 1000 ≤ 936 + min (64 * 2 ^ (1 - 1)) 4096 ∧ 936 < 0 + 1000) ∧
    0 + 1000 ≤ (s h .spent 1000).ht.now.toNat ∧ 64 ≤ (s h (.backoff 64) 64).ht.now.toNat ∧ (s h (.backoff 64) 63).ht.now.toNat < 64 := by decide +kernel

/-- A RECV and a flag waiter at their time and before; a waiter that its flag releases, and one whose cycle of
expiry is not over. -/
theorem witness_time_outs :
    let s := fun (w : Wait) (fl : Bool) (now : W64) =>
      let s := onTile { thr := [(0, { st := .blocked, wait := w })] }
      ({ s.setFlag (.glob 3 63) fl with ht := { s.ht with now := now }, freqs := [{ g := .glob 3 63, kind := .wait, src := .thread, tid := 0, thr := 0, cxh := s.cxh c0, arrived := true, order := 50 }] } : State)
    let r := Wait.recv plainF 0 5 0xFFFF 100 0
    let f := Wait.flag (.glob 3 63) false 100
    ((s r false 100).thread 0 0).wait = r ∧ ((s f false 100).thread 0 0).wait = f ∧ (s r false 100).ctxOfTile 0 = some c0 ∧ ((s r false 100).ctx c0).st = .running ∧
    100 ≤ (s r false 100).ht.now.toNat ∧ (s r false 99).ht.now.toNat < 100 ∧
    ((((s f false 100).evalUpTo 1 (.glob 3 63) 99).thread 0 0).wait = f ∧ (((s f true 100).evalUpTo 1 (.glob 3 63) 99).thread 0 0).wait ≠ f) ∧
    ((s f false 100).expiryCycle (.glob 3 63) 100 < (s f false 100).flagCycle (.glob 3 63)) ∧
    (let u : State := { s f false 100 with clusters := [(0, { clk := .running, tileCyc := 160, tilePh := 1 })] }
     ¬u.expiryCycle (.tile 0 63) 100 < u.flagCycle (.tile 0 63)) := by decide +kernel

/-- Flag requests: on their way, arrived, of a stale epoch; sets, clears and claims at one arbiter. -/
theorem witness_arbiter :
    let q := fun (k : FlagKind) (arr : Bool) (e : BitVec 16) =>
      ({ g := .glob 3 4095, kind := k, src := .thread, tid := 0, thr := 0, cxh := State.reset.cxh c0 + e, arrived := arr, order := 0 } : FlagReq)
    let s := fun (l : List FlagReq) => ({ onTile {} with freqs := l } : State)
    (s [q .set false 0]).freqs[0]? = some (q .set false 0) ∧ (s [q .set false 0]).cxh (cxhSlot (q .set false 0).cxh) = (q .set false 0).cxh ∧
    (s [q .set false 1]).cxh (cxhSlot (q .set false 1).cxh) ≠ (q .set false 1).cxh ∧ (FlagRef.glob 3 4095).ok = true ∧
    (s [q .set true 0, q .clear true 0]).freqs.filter (fun x : FlagReq => x.g = .glob 3 4095 && x.arrived) = [q .set true 0, q .clear true 0] ∧
    (q .clear true 0).kind ≠ .set ∧ (q .claim true 0).kind = .claim ∧ (q .wait true 0).kind = .wait ∧ (s []).flag (.glob 3 4095) = false := by decide +kernel

/-! ### Cross-module slots and frames -/

/-- Entry 0 of a port's list: a TX or RX slot of 512 bytes with window [0, 64), from HBM or the buffer, to a
window or a channel. -/
def slotRam (kind src dst va : Nat) : List (Nat × W64) :=
  [(0, BitVec.ofNat 64 (kind + 2 ^ 4 * src + 2 ^ 5 * dst)), (1, BitVec.ofNat 64 (511 * 2 ^ 16)), (2, BitVec.ofNat 64 va), (3, BitVec.ofNat 64 (9 + 2 ^ 8 * 3))]
/-- Port 3 in the exchange phase of its context at time `now`, with its slot 0. -/
def slotS (ram : List (Nat × W64)) (sl : XSlot) (y : Port) (now : W64) : State :=
  let s := mapped (withRun { phase := .exchange, tbcV := true, arrAt := some 0, islocal := true } {})
  let y := { y with xch := { y.xch with ram := ram, owner := some c0, slots := [sl] } }
  { s with ports := [(3, y)], ht := { s.ht with now := now } }
def upPort : Port := { link := { st := .up }, ht := { known := true, phdid := 3, plocked := true, pdepth := 2 } }
def tx0 (st : XSlotSt) (n : Nat) : XSlot := { entry := 0, tx := true, st := st, next := n }
def rx0 (st : XSlotSt) (l : List Nat) : XSlot := { entry := 0, tx := false, st := st, landed := l }

/-- A TX slot from HBM that is due, one that is not, one whose VA does not translate. -/
theorem witness_prefetch :
    let s := fun (src va : Nat) => slotS (slotRam 1 src 0 va) (tx0 .idle 0) upPort 0
    let e := fun (src va : Nat) => ((s src va).port 3).xch.ent 0
    (∀ v ∈ [0, 2 ^ 30], ((s 1 v).port 3).xch.owner = some c0 ∧ ((s 1 v).port 3).xch.slot 0 = some (tx0 .idle 0) ∧ (e 1 v).src = true ∧ (e 1 v).bytes = 512 ∧
      (e 1 v).va = v) ∧
    ((s 1 0).ctx c0).st = .running ∧ ((s 1 0).ctx c0).run.phase ≠ .compute ∧ (e 0 0).src = false ∧ okB ((s 1 0).vaRead 0 c0 0 512).2 = true ∧
    okB ((s 1 (2 ^ 30)).vaRead 0 c0 (2 ^ 30) 512).2 = false := by decide +kernel

/-- Slots at the start, the end and past the windows, on ports that are usable and not. -/
theorem witness_slot_windows :
    let s := fun (k : Nat) (sl : XSlot) (y : Port) (now : W64) => slotS (slotRam k 0 0 0) sl y now
    let slow : Port := { upPort with ht := { upPort.ht with slow := true } }
    (∀ sl ∈ [tx0 .idle 0, tx0 .active 1, tx0 .sent 2, rx0 .idle [], rx0 .active [0]], ∀ y ∈ [upPort, slow, {}],
      ((s 1 sl y 58).port 3).xch.owner = some c0 ∧ (s 1 sl y 58).exchanging c0 = true ∧ ((s 1 sl y 58).port 3).xch.slot 0 = some sl) ∧
    (upPort.link.st = .up ∧ upPort.ht.slow = false ∧ upPort.ht.known = true ∧ upPort.ht.phdid.toNat = (s 1 (tx0 .idle 0) upPort 0).pairHdid 3) ∧
    slow.ht.slow = true ∧ ({} : Port).link.st = .down ∧ 1 < frames 512 ∧ 0 + (0 + 64) ≤ 58 + 6 ∧ ¬(0 + (0 + 64) ≤ 57 + 6) ∧ [0].length < frames 512 ∧
    0 + ((s 1 (tx0 .idle 0) upPort 64).port 3).xch.lastWindow ≤ 64 ∧ ¬(0 + ((s 1 (tx0 .idle 0) upPort 64).port 3).xch.lastWindow ≤ 63) := by decide +kernel

/-- The slot that sends: with data fetched, without, with a pending unit; a port that may not send. -/
theorem witness_transmit :
    let s := fun (src : Nat) (sl : XSlot) (y : Port) => slotS (slotRam 1 src 0 0) sl y 0
    let got : XSlot := { tx0 .active 0 with pref := true, data := List.replicate 16 0 }
    let busy : Port := { upPort with tx := { busy := 1 } }
    let pend : Port := { upPort with xch := { pend := [7] } }
    (∀ sl ∈ [tx0 .active 0, got], ∀ y ∈ [upPort, busy, pend], (s 1 sl y).txSlot c0 ((s 1 sl y).port 3).xch = some sl) ∧
    (s 0 (tx0 .active 1) upPort).txSlot c0 ((s 0 (tx0 .active 1) upPort).port 3).xch = some (tx0 .active 1) ∧
    (((s 1 got upPort).port 3).xch.txData got (((s 1 got upPort).port 3).xch.ent 0)).isSome = true ∧
    (((s 1 (tx0 .active 0) upPort).port 3).xch.txData (tx0 .active 0) (((s 1 (tx0 .active 0) upPort).port 3).xch.ent 0)) = none ∧
    (((s 0 (tx0 .active 0) upPort).port 3).xch.txData (tx0 .active 0) (((s 0 (tx0 .active 0) upPort).port 3).xch.ent 0)).isSome = true ∧
    (((s 0 (tx0 .active 0) pend).port 3).xch.txData (tx0 .active 0) (((s 0 (tx0 .active 0) pend).port 3).xch.ent 0)) = none ∧
    upPort.tx.buf.length < 1024 ∧ upPort.tx.busy ≤ 0 ∧ 0 < frames 512 ∧ ¬busy.tx.busy ≤ 0 := by decide +kernel

/-- A frame of port 3's slot, as it is sent. -/
def frame0 (kind n seq fidx : Nat) : Frame := mkFrame kind n 9 seq (State.reset.cxh c0) (List.replicate 8 0) fidx

set_option maxRecDepth 40000 in
/-- ACK and NAK of a frame in the buffer, of another, from a port that is not UP; the 16th NAK; a waiting ACK;
a replay now and later. -/
theorem witness_replay :
    let h := fun (n : Nat) => ({ seq := 5, frame := frame0 0 8 5 0, entry := 0, fidx := 0, cxh := State.reset.cxh c0, naks := n } : TxFrame)
    let y := fun (n : Nat) => ({ upPort with tx := { seq := 6, buf := [h n], nakq := [5] }, rx := { expect := 1, waiting := true } } : Port)
    let s := fun (n : Nat) (now : W64) => slotS (slotRam 1 0 0 0) (tx0 .active 1) (y n) now
    let ack := symWord 0x82 5
    let nak := symWord 0x83 5
    ((s 0 0).port 3).link.st = .up ∧ ((slotS [] (tx0 .idle 0) {} 0).port 3).link.st ≠ .up ∧
    (symOk ack = true ∧ symType ack = 0x82 ∧ symOk nak = true ∧ symType nak = 0x83 ∧ symOk 1 = false) ∧
    ((s 0 0).port 3).tx.buf.find? (fun f => f.seq = 5) = some (h 0) ∧ ((s 0 0).port 3).tx.buf.find? (fun f => f.seq = 6) = none ∧
    16 ≤ (h 15).naks + 1 ∧ (h 14).naks + 1 < 16 ∧ ((s 0 0).port 3).rx.waiting = true ∧ ((s 0 0).port 3).tx.nakq = 5 :: [] ∧
    (s 0 0).replayOk 3 { h 0 with entry := 1 } = true ∧ (s 0 0).replayOk 3 (h 0) = false := by decide +kernel

set_option maxRecDepth 40000 in
/-- Frames that come: a bad SOF, a bad CRC, a repeated one, a reserved kind, without a slot, early, beyond its
slot, and one that lands. -/
theorem witness_frames :
    let s := fun (y : Port) (now : W64) => slotS (slotRam 2 0 0 0) (rx0 .active []) y now
    let f := frame0 0 8 0
    let ok := fun (g : Frame) => Frame.sofOk g = true ∧ Frame.crcOk g = true
    let t := (s upPort 0).touch.nakGap 3 0
    (ok (f 0) ∧ Frame.kind (f 0) ≠ 2 ∧ Frame.reserved (f 0) = false) ∧ Frame.sofOk { f 0 with sof := 0 } = false ∧ Frame.crcOk { f 0 with trailer := 0 } = false ∧
    ((s {} 0).port 3).link.st ≠ .up ∧ (ok (frame0 2 2 0 0) ∧ Frame.kind (frame0 2 2 0 0) = 2) ∧ (ok (frame0 3 8 0 0) ∧ Frame.kind (frame0 3 8 0 0) = 3) ∧
    (t.port 3).rx.seen 0 = false ∧ ((s { upPort with rx := { expect := 1 } } 0).port 3).rx.seen 0 = true ∧ t.portCtx 3 = some c0 ∧
    (t.rxSlot 3 (Frame.tag (f 0))).isSome = true ∧ t.rxSlot 3 8 = none ∧
    ¬(t.ht.now.toNat + 6 < (t.ctx c0).run.xstart.toNat + (0 + (t.port 3).ht.delay.toNat / 16)) ∧
    (0 + 6 < 0 + (0 + ((s { upPort with ht := { upPort.ht with delay := 112 } } 0).port 3).ht.delay.toNat / 16)) ∧
    frames 512 ≤ Frame.fidx (f 2) ∧ Frame.fidx (f 1) < frames 512 := by decide +kernel

set_option maxRecDepth 40000 in
/-- Windows: one that takes a frame and one that fails each check; an address without translation. -/
theorem witness_window_frames :
    let good : Win := { open_ := true, base := 0, size := 512, hdid := 3, rcxh := State.reset.cxh c0, lcxh := State.reset.cxh c0, w := true }
    let s := fun (w : Win) => let s := slotS (slotRam 2 0 0 0) (rx0 .active []) upPort 0; s.setWin 0 w
    let x := frame0 0 8 0 1
    let e := ((s good).port 3).xch.ent 0
    let ok := fun (w : Win) => (s w).winReason c0 ((s w).win e.win) ((s w).port 3).ht.phdid x (e.va + 256 * Frame.fidx x) (Frame.data x).length = none
    ok good ∧ ¬ok { good with open_ := false } ∧ ¬ok { good with hdid := 2 } ∧ ¬ok { good with rcxh := 1 } ∧ ¬ok { good with size := 511 } ∧
    ¬ok { good with w := false } ∧ ¬ok { good with lcxh := 1 } ∧ e.win < 32 ∧ ((s good).vaWrite 0 c0 256 (Frame.data x)).2 = none ∧
    ((slotS [] (rx0 .active []) upPort 0).vaWrite 0 c0 (2 ^ 30) [0]).2 ≠ none := by decide +kernel

set_option maxRecDepth 40000 in
/-- Digests of the twin: one that agrees, one that differs, one of another superstep and one on another port. -/
theorem witness_digests :
    let s := fun (g : List W64) (ssn : W32) =>
      let s := withRun { phase := .barrier, digest := g, ssn := ssn, islocal := true } {}
      ({ s with ports := [(14, upPort)], pair := { on := true } } : State)
    let x := frame0 2 2 0 0
    (((s [] 0).port 14).link.st = .up ∧ Frame.sofOk x = true ∧ Frame.crcOk x = true ∧ Frame.reserved x = false ∧ Frame.kind x = 2) ∧
    ((s (List.replicate 4 0) 0).pairOn = true ∧ (s (List.replicate 4 0) 0).cxh c0 = Frame.cxh x ∧ cxhSlot (Frame.cxh x) = c0 ∧
      ((s (List.replicate 4 0) 0).ctx c0).run.digest.length = 4 ∧ ((s (List.replicate 4 0) 0).ctx c0).run.compared = false ∧
      ((s (List.replicate 4 0) 0).ctx c0).run.ssn = (Frame.word x 4).truncate 32) ∧
    (∀ d, d < 4 → (List.replicate 4 (0 : W64))[d]? = some (Frame.word x d)) ∧ ([1, 0, 0, 0] : List W64)[0]? ≠ some (Frame.word x 0) ∧
    ((s [] 1).ctx c0).run.ssn ≠ (Frame.word x 4).truncate 32 ∧ Frame.crcOk { x with trailer := 1 } = false := by decide +kernel

/-- Blocks with H = 0, with H = 1 and a control word, and with H = 1 and an empty map, at the first block of a
codeword and later. -/
theorem witness_blocks :
    let s := fun (n : Nat) => ({ State.reset with ports := [(15, { upPort with rx := { blk := n } })] } : State)
    (∀ n ∈ [0, 19], ((s n).port 15).link.st = .up ∧ ((s n).port 15).rx.blk = n) ∧ (State.reset.port 15).link.st = .down ∧
    (6 : BitVec 257).getLsbD 0 = false ∧ ((1 : BitVec 257).getLsbD 0 = true ∧ bits (1 : BitVec 257).toNat 4 1 = 0) ∧
    ((3 : BitVec 257).getLsbD 0 = true ∧ bits (3 : BitVec 257).toNat 4 1 ≠ 0) := by decide +kernel

set_option maxRecDepth 40000 in
/-- The arguments of a frame at the ends of their ranges. -/
theorem witness_frame_fields : (3 < 4 ∧ 0 < 8 ∧ 8 ≤ 8 ∧ 255 < 256 ∧ 4095 < 4096 ∧ 2 ^ 24 - 1 < 2 ^ 24 ∧ (List.replicate 8 (0 : W256)).length = 8) ∧
    Frame.crcOk (mkFrame 3 8 255 4095 0xFFFF (List.replicate 8 0) (2 ^ 24 - 1)) = true := by decide +kernel

/-! ### Reduction channels -/

/-- Channel 63 of port 3: two units, a local source at VA 0 and a remote source with a backup, to the port buffer. -/
def chanS (y : Chan) (now : W64) (va : Nat) : State :=
  let s := slotS (slotRam 2 0 1 63) (rx0 .active []) upPort now
  let w := fun (i n : Nat) => (68 * 63 + i, BitVec.ofNat 64 n)
  let x := { (s.port 3).xch with
             chans := [(63, y)]
             chanRam := [w 0 (1 + 2 + 2 ^ 6 + 2 ^ 8), w 4 1, w 5 va, w 8 (2 + 8 + 9 * 16 + 3 * 2 ^ 12 + 10 * 2 ^ 28 + 3 * 2 ^ 36), w 9 0x1000, w 10 100, w 11 0x2000] }
  s.setXch 3 x
/-- A unit that may form, one whose remote source has not landed, one formed already, one beyond the channel,
and one whose source does not translate. -/
theorem witness_form :
    let s := fun (y : Chan) (va : Nat) => chanS y 0 va
    let on : Chan := { st := .armed, prim := [unitKey 1 0] }
    (∀ v ∈ [0, 2 ^ 30], ((s on v).port 3).xch.owner = some c0 ∧ (s on v).exchanging c0 = true ∧ 0 < (((s on v).port 3).xch.chHdr 63).count ∧
      ∀ e ∈ ((s on v).port 3).xch.chSrcs 63, e.2.kind ≠ 2 ∨ unitKey e.1 0 ∈ on.prim ∨ unitKey e.1 0 ∈ on.bkTook) ∧
    ((s on 0).srcsElems c0 3 63 0 (((s on 0).port 3).xch.chSrcs 63)).2.isSome = true ∧
    ((s on (2 ^ 30)).srcsElems c0 3 63 0 (((s on (2 ^ 30)).port 3).xch.chSrcs 63)).2 = none ∧ unitKey 1 1 ∉ on.prim ∧
    ¬(2 < (((s on 0).port 3).xch.chHdr 63).count) := by decide +kernel

/-- A remote source past its deadline, at it and already marked; a channel at rest. -/
theorem witness_deadline :
    let s := fun (y : Chan) (now : W64) => chanS y now 0
    let due := fun (y : Chan) (now : W64) => (((s y now).port 3).xch.chSrcs 63).filter (fun e => e.2.kind = 2 && !y.pastDl.contains e.1 &&
      decide (((s y now).ctx c0).run.xstart.toNat + e.2.dl < (s y now).ht.now.toNat))
    (∀ n ∈ [100, 101], (s { st := .armed } (BitVec.ofNat 64 n)).exchanging c0 = true ∧
      (((s { st := .armed } (BitVec.ofNat 64 n)).port 3).xch.chan 63).st = .armed) ∧
    due { st := .armed } 101 = [(1, ((s { st := .armed } 101).port 3).xch.chSrc 63 1)] ∧ due { st := .armed } 100 = [] ∧
    due { st := .armed, pastDl := [1] } 101 = [] ∧ (((s {} 101).port 3).xch.chan 63).st = .idle ∧ (State.reset.port 3).xch.owner = none := by decide +kernel

/-- A source with a backup landed, the unit brought by its primary, and neither. -/
theorem witness_backups :
    let x := ((chanS { st := .armed, bk := [unitKey 1 0, unitKey 1 1], prim := [unitKey 1 1] } 101 0).port 3).xch
    (x.chSrc 63 1).kind = 2 ∧ 1 < (x.chHdr 63).count ∧ (x.chHdr 63).count < 2 ^ 20 ∧ unitKey 1 0 ∈ (x.chan 63).bk ∧ unitKey 1 0 ∉ (x.chan 63).prim ∧
    unitKey 1 1 ∈ (x.chan 63).prim ∧ unitKey 1 0 ∈ ((x.takeBackups 63 1 (x.chSrc 63 1)).chan 63).bkTook := by decide +kernel

/-! ### Links and hall time -/

def linkS (y : Port) (now : W64) : State := { State.reset with ports := [(15, y)], ht := { State.reset.ht with now := now } }

/-- Training at its last time and past it, with eight, four and too few lanes, at 160 and 161 of skew; the end
of ALIGN. -/
theorem witness_training :
    let y := fun (st : PortSt) (ctl : W32) => ({ upPort with link := { st := st, ctl := ctl } } : Port)
    let s := fun (st : PortSt) (ctl : W32) (now : W64) => linkS (y st ctl) now
    (∀ st ∈ [PortSt.detect, .train, .align, .down], ((s st 7 30000000).port 15).link.st = st) ∧
    30000000 ≤ ((s .train 7 30000000).port 15).link.since + 30000000 ∧ ((s .train 7 30000001).port 15).link.since + 30000000 < 30000001 ∧
    ((s .align 7 1000001).port 15).link.since + 1000000 < 1000001 ∧
    (7 : W32).getLsbD 2 = true ∧ (3 : W32).getLsbD 2 = false ∧ (0x0F : BitVec 8) &&& 0x0F = 0x0F ∧ (0xF0 : BitVec 8) &&& 0xF0 = 0xF0 ∧
    ((0x33 : BitVec 8) &&& 0x0F ≠ 0x0F ∧ (0x33 : BitVec 8) &&& 0xF0 ≠ 0xF0 ∧ (0x33 : BitVec 8) ≠ 0xFF) ∧ 160 < 161 ∧
    (((s .align 7 1000000).port 15).ht.known = true ∧ symOk (symWord 0x84 5) = true ∧ symType (symWord 0x84 5) = 0x84 ∧ symOk 1 = false) := by decide +kernel

/-- Ports that lose their signal, a lane in use and one that is not; GOING_AWAY of another module and of the twin. -/
theorem witness_down :
    let four : Port := { upPort with link := { st := .degraded, lanes4 := true, upper := true } }
    ((linkS upPort 0).port 15).link.st = .up ∧ (State.reset.port 15).link.st = .down ∧
    (four.link.st = .degraded ∧ ¬(four.link.lanes4 = false ∨ (if four.link.upper then 4 ≤ 3 else 3 < 4)) ∧
      (four.link.lanes4 = false ∨ (if four.link.upper then 4 ≤ 4 else 4 < 4))) ∧
    (symOk (symWord 0x20 5) = true ∧ symType (symWord 0x20 5) = 0x20 ∧ bits (symBody (symWord 0x20 5)) 15 0 ≠ ((linkS upPort 0).hdid ^^^ 1).toNat) ∧
    bits (symBody (symWord 0x20 ((linkS upPort 0).hdid ^^^ 1).toNat)) 15 0 = ((linkS upPort 0).hdid ^^^ 1).toNat := by decide +kernel

/-- Time symbols at an exchange boundary and beside it; requests, responses and follow-ups of the exchange
under way and of another. -/
theorem witness_stamps :
    let y : Port := { upPort with ht := { upPort.ht with seq := 255, t1 := some 16384, t2 := some 16400 } }
    let s := fun (free : Bool) => let s := linkS y 1024; ({ s with ht := { s.ht with parent := 15, parentV := true, st := if free then .free else .locked } } : State)
    ((s true).ht.master = false ∧ (s true).ht.now.toNat % 1024 = 0) ∧ (linkS y 1023).ht.now.toNat % 1024 ≠ 0 ∧ ((s true).port 15).link.st = .up ∧
    (∀ t ∈ [1, 2, 3], symOk (symWord t 255) = true ∧ symType (symWord t 255) = t ∧ bits (symBody (symWord t 255)) 7 0 = 255) ∧ symOk 1 = false ∧
    (((s true).port 15).ht.t1 = some 16384 ∧ ((s true).port 15).ht.t2 = some 16400 ∧ ((s true).port 15).ht.seq.toNat = 255) ∧
    (upPort.ht.t1 = none ∧ upPort.ht.seq.toNat ≠ 255) ∧ (s true).isParent 15 = true ∧ ((s true).port 15).ht.plocked = true ∧ (s true).ht.loaded = false ∧
    (s false).ht.st = .locked ∧ (linkS y 1024).isParent 15 = false := by decide +kernel

/-- The hall-time loop: one that may lock, a step due and not yet, a bound at 6 ns and past it, a restriction
at its end. -/
theorem witness_loop :
    let s := fun (h : HallTime) => ({ State.reset with ht := h } : State)
    ((s { st := .acquire, parentV := true }).ht.master = false ∧ (s { st := .acquire, parentV := true }).ht.st = .acquire) ∧ State.reset.ht.st ≠ .acquire ∧
    ((s { st := .locked, now := 125000 }).ht.goodAt + 125000 * ((s { st := .locked, now := 125000 }).ht.steps + 1) ≤ 125000 ∧ ¬(0 + 125000 * (0 + 1) ≤ 124999)) ∧
    ((s { bound := 96 }).ht.bound.toNat ≤ 96 ∧ 96 < (s { bound := 97 }).ht.bound.toNat ∧ (s { bound := 97 }).ht.told = false) ∧
    ((s { limited := true, lostAt := some 0, now := 1000000 }).ht.lostAt = some 0 ∧ 0 + 1000000 ≤ (s { limited := true, lostAt := some 0, now := 1000000 }).ht.now.toNat) := by
  decide +kernel

/-- The tree: no candidate, one, two of which the first is less; TREE from the parent and from another port,
whole and not. -/
theorem witness_tree :
    let s := fun (l : List (Nat × Port)) => ({ State.reset with ports := l, ht := { State.reset.ht with now := 1024, depth := 5 } } : State)
    let far : Port := { upPort with ht := { upPort.ht with pdepth := 3 } }
    (∀ q, q < 16 → (s []).candidate q = false) ∧ (s [(15, upPort)]).candidate 15 = true ∧
    (∀ q, q < 16 → q ≠ 15 → (s [(0, far), (15, upPort)]).candidate q = true → (s [(0, far), (15, upPort)]).parentKey 15 < (s [(0, far), (15, upPort)]).parentKey q) ∧
    (s [(0, far), (15, upPort)]).candidate 0 = true ∧ (s []).ht.now.toNat % 1024 = 0 ∧ (s []).ht.master = false ∧ (s []).ht.parentV = false ∧
    (symOk (symWord 4 0) = true ∧ symType (symWord 4 0) = 4 ∧ symType (symWord 5 0) ≠ 4) ∧ (s [(15, upPort)]).isParent 15 = false ∧
    ({ s [] with ht := { (s []).ht with parent := 15, parentV := true } } : State).isParent 15 = true ∧ upPort.ht.plocked = true ∧ upPort.ht.pdepth.toNat < 8 := by
  decide +kernel

/-- Hall time set: an edge with two sets that wait, from each state of hall time; an edge that counts for
nothing; a set at two seconds and just before it. -/
theorem witness_hall_set :
    let s := fun (h : HallTime) (n : Nat) => ({ State.reset with ht := { h with master := true, now := BitVec.ofNat 64 n, sets := [(none, 7, 5)] } } : State)
    ((s {} 0).ht.master = true ∧ (s {} 0).plat.powered = true ∧ (s {} 0).ht.st = .free ∧ (s {} 0).ht.sets ≠ []) ∧ State.reset.ht.master = false ∧
    ((s { st := .holdover } 0).ht.st ≠ .free ∧ (s { st := .acquire } 0).ht.st ≠ .holdover) ∧ ({ State.reset.plat with powered := false } : Plat).powered = false ∧
    (∀ q ∈ (s {} 2000000004).ht.sets, (s {} 2000000004).ht.now.toNat < q.2.2 + 2000000000) ∧
    ((s {} 2000000005).ht.sets = [(none, 7, 5)] ∧ 5 + 2000000000 ≤ (s {} 2000000005).ht.now.toNat) ∧
    (match exec .htPpsInEdge (s { st := .acquire } 100) with
      | .next t => t.ht.st = .locked && t.ht.now = 7 && t.ht.loaded && t.ht.sets.isEmpty && t.ht.bound = 32 && t.ht.pps = 7
      | _ => false) = true ∧
    (match exec .htPpsInEdge (s { loaded := true } 100) with
      | .next t => t.ht.st = .acquire && t.ht.now = 100 && t.ht.todoff = 7 - 100
      | _ => false) = true := by
  decide +kernel

/-! ### Host commands -/

/-- Whether a host command is taken and passes checks 1 to 6. -/
def accB (s : State) (r : RingRef) (w : CmdWords) (k : CmdSpec) : Bool :=
  r.ok && s.canTake r && decide (bits w.w0.toNat 7 0 = k.op) && s.atTurn r && !(s.resourceWait r.pf w) && ((s.take r w).precheck r.pf w k).isNone

theorem accepted_of_bool {s : State} {r : RingRef} {w : CmdWords} {k : CmdSpec} (h : accB s r w k = true) : Accepted s r w k := by
  simp only [accB, Bool.and_eq_true, decide_eq_true_eq, Bool.not_eq_true', Option.isNone_iff_eq_none] at h
  exact ⟨h.1.1.1.1.1, h.1.1.1.1.2, h.1.1.1.2, h.1.1.2, h.1.2, h.2⟩

/-- Ring 0 of function 0 with one command waiting. -/
def ring0 : Ring := { ctl := 0x14, tail := 1 }
def cfg0 : Cfg := ⟨1, true, false, true, 0, 0, []⟩
def hosted (s : State) : State := { s with fns := [(0, { rings := [(0, ring0)] })], cfg := some cfg0 }
def cw (op : Nat) (w1 w2 w3 w4 : Nat) : CmdWords := ⟨BitVec.ofNat 64 op, BitVec.ofNat 64 w1, BitVec.ofNat 64 w2, BitVec.ofNat 64 w3, BitVec.ofNat 64 w4, 0, 0, 0⟩
/-- A context in a state, on cluster 0, with the handle 0. -/
def inState (st : CtxSt) : Ctx := { st := st, clusters := 1, allocPa := 2 ^ 21, alloc2m := 1 }
def ctxS (x : Ctx) : State := hosted { onTile {} with ctxs := [(0, x)] }
/-- Whether a command that names context slot 0 of partition 0 passes checks 1 to 7. -/
def ctxB (s : State) (w : CmdWords) (k : CmdSpec) : Bool :=
  accB s r0 w { k with cxh := true } && decide ((s.take r0 w).checkCxh 0 (BitVec.ofNat 16 (bits w.w0.toNat 31 16)) = some c0)

theorem acceptedCtx_of_bool {s : State} {w : CmdWords} {k : CmdSpec} (h : ctxB s w k = true) : AcceptedCtx s r0 w k c0 := by
  simp only [ctxB, Bool.and_eq_true, decide_eq_true_eq] at h
  exact ⟨accepted_of_bool h.1, h.2⟩

/-- Ring writes: a tail inside and beyond the ring, a disabled ring, a legal and an illegal size, EN on and off. -/
theorem witness_rings :
    let s := hosted State.reset
    (s.plat.powered = true ∧ s.plat.perst = true ∧ s.plat.pcie.off = false) ∧ (s.ring r0).ctl.getLsbD 4 = true ∧ (State.reset.ring ⟨3, 15⟩).ctl.getLsbD 4 = false ∧
    bits 15 15 0 < (s.ring r0).n ∧ (s.ring r0).n ≤ bits 16 15 0 ∧ (0x1C : W32).getLsbD 4 = true ∧ (0xC : W32).getLsbD 4 = false ∧
    (4 ≤ bits 0x1C 3 0 ∧ bits 0x1C 3 0 ≤ 12) ∧ ¬(4 ≤ bits 0x13 3 0) ∧ ({ s with plat := { s.plat with perst := false } } : State).plat.perst = false := by
  decide +kernel

/-- Every command of the table is taken and passes its checks on some ring, and each check fails on another:
recovery, function, partition, configuration, reserved bits, lock; one names a context that is not there. -/
theorem witness_commands :
    (∀ e ∈ Claims.commandTable, accB (ctxS (inState .loaded)) r0 (cw e.2.op 0 0 0 0) e.2 = true) ∧
    (let w := cw 0x03 0 0 0 0
     let k : CmdSpec := { op := 0x03, pf0 := true, masks := [2 ^ 64 - 1, 2 ^ 32 - 1], lock := some 2 }
     let s := hosted State.reset
     let t := s.take r0 w
     (s.canTake r0 = true ∧ State.reset.canTake r0 = false ∧ s.resourceWait 0 w = false) ∧
     ({ t with plat := { t.plat with recovery := true } } : State).precheck 0 w k = some codeBusy ∧ t.precheck 1 w k = some codeBadOpcode ∧
     ({ t with parts := 0 } : State).precheck 0 w { k with needP := true } = some codeNoResource ∧
     ({ t with cfg := none } : State).precheck 0 w { k with needC := true } = some codeConfigInvalid ∧
     t.precheck 0 { w with w3 := 1 } k = some codeBadParam ∧ ({ t with plat := { t.plat with lock := 4 } } : State).precheck 0 w k = some codeLocked ∧
     t.checkCxh 0 0 = none) := by decide +kernel

/-- A ring with a command in progress, and one without. -/
theorem witness_reply : let s := (hosted State.reset).take r0 (cw 0x01 0 0 0 0)
    ((s.ring r0).cur ≠ none ∧ ((hosted State.reset).ring r0).cur = none ∧ Memory.wf s.hostMem = true ∧ s.plat.pcie.off = false) ∧
    0x01 ∈ opcodes ∧ 0xFF ∉ opcodes ∧ accB (hosted State.reset) r0 (cw 0x01 0 0 0 0) { op := 0x01 } = true ∧
    accB (hosted State.reset) r0 (cw 0xFF 0 0 0 0) { op := 0xFF } = true ∧ accB (hosted State.reset) r0 (cw 0x02 0 0 0 0) { op := 0x02 } = true := by
  decide +kernel

/-- A configuration image that passes every check: HDID 5, Master, ports 14 and 15. -/
def cfgImg : List Byte :=
  let b := toLE 4 0x50444347 ++ toLE 4 1 ++ toLE 4 64 ++ toLE 4 0 ++ toLE 4 0x10005 ++ toLE 4 0xC000 ++ List.replicate 56 0
  b ++ toLE 8 (crc64 0 b).toNat
set_option maxRecDepth 40000 in
/-- CONFIG_APPLY of a valid image, of an invalid one, unaligned, with a context; CONFIG_READ with and without
a configuration. -/
theorem witness_config :
    let s := { hosted State.reset with hostMem := mwrite [] 0x1000 cfgImg }
    let k : CmdSpec := { op := 0x03, pf0 := true, masks := [2 ^ 64 - 1, 0xFFFFFFFF], lock := some 2 }
    (∀ a ∈ [0x1000, 0x1001, 0x2000], accB s r0 (cw 0x03 a 88 0 0) k = true) ∧ accB (ctxS (inState .created)) r0 (cw 0x03 0 88 0 0) k = true ∧
    cfgCheck (mread s.hostMem 0x1000 88) 88 = none ∧ cfgCheck (mread s.hostMem 0x2000 88) 88 = some 1 ∧ ((ctxS (inState .created)).ctx c0).st ≠ .free ∧
    s.anyCtx = false ∧ s.plat.cfgBy = none ∧ accB s r0 (cw 0x04 0 0 0 0) { op := 0x04, masks := [2 ^ 64 - 1] } = true ∧
    accB { s with cfg := none } r0 (cw 0x04 0 0 0 0) { op := 0x04, masks := [2 ^ 64 - 1] } = true ∧ s.cfg = some cfg0 ∧
    (cfgOf cfgImg).hdid = 5 ∧ (cfgOf cfgImg).portEn = 0xC000 := by decide +kernel

/-- PART_CREATE of each layout and of none, with partitions and without; PART_DESTROY of a partition with and
without a context, and of none. -/
theorem witness_partitions :
    let k : CmdSpec := { op := 0x10, pf0 := true, needC := true, masks := [3], lock := some 3 }
    let q : CmdSpec := { op := 0x11, pf0 := true, masks := [3], lock := some 3 }
    let bare : State := { hosted State.reset with parts := 0 }
    (∀ n ∈ [0, 1, 2, 3], accB (hosted State.reset) r0 (cw 0x10 n 0 0 0) k = true ∧ accB bare r0 (cw 0x10 n 0 0 0) k = true ∧
      accB (hosted State.reset) r0 (cw 0x11 n 0 0 0) q = true) ∧ accB (ctxS (inState .created)) r0 (cw 0x11 0 0 0 0) q = true ∧
    bare.parts = 0 ∧ (hosted State.reset).parts ≠ 0 ∧ (hosted State.reset).partExists 0 = true ∧ (hosted State.reset).partExists 1 = false ∧
    ((ctxS (inState .created)).ctx ⟨0, 0⟩).st ≠ .free ∧ ∀ c, c < 8 → ((hosted State.reset).ctx ⟨0, c⟩).st = .free := by decide +kernel

/-- CTX_CREATE of a context that fits, of one without a cluster, and of one whose cluster is taken. -/
theorem witness_create :
    let k : CmdSpec := { op := 0x12, needP := true, needC := true, masks := [2 ^ 33 - 1, 2 ^ 48 - 1, 2 ^ 32 - 1, 2 ^ 49 - 1] }
    let s := hosted State.reset
    (∀ n ∈ [1, 0], accB s r0 (cw 0x12 n (2 ^ 21) 1 (2 ^ 21)) k = true) ∧ accB (ctxS (inState .created)) r0 (cw 0x12 1 (2 ^ 22) 1 0) k = true ∧
    (s.take r0 (cw 0x12 1 (2 ^ 21) 1 (2 ^ 21))).createCheck 0 1 (2 ^ 21) 1 (2 ^ 21) = none ∧ s.freeSlot 0 = some 0 ∧
    s.createCheck 0 0 (2 ^ 21) 1 0 = some codeBadParam ∧ (ctxS (inState .created)).createCheck 0 1 (2 ^ 22) 1 0 = some codeNoResource := by decide +kernel

/-- Teardown and reset of a context, its drain and its scrub. -/
theorem witness_remove :
    let s := ctxS (inState .loaded)
    let gone := fun (k : TdKind) (w : Bool) (due : Nat) => ctxS { inState .tearing with td := some { kind := k, owner := none, wiped := w, due := due } }
    ctxB s (cw 0x13 0 0 0 0) { op := 0x13, needP := true } = true ∧ ctxB s (cw 0x14 0 0 0 0) { op := 0x14, needP := true } = true ∧
    (s.ctx c0).sampleBy = none ∧ (s.ctx c0).td = none ∧ (∀ k ∈ [TdKind.teardown, .reset], ((gone k false 0).ctx c0).td = some ⟨k, none, none, false, 0⟩ ∧
      (gone k false 0).drained c0 = true) ∧ ((gone .teardown true 1).ctx c0).td = some ⟨.teardown, none, none, true, 1⟩ ∧
    ((gone .teardown true 1).ht.now.toNat < 1 ∧ 0 ≤ (gone .teardown true 0).ht.now.toNat) ∧ Memory.wf s.hbm = true ∧ (s.allocSpan c0 0).1 < (s.allocSpan c0 0).2 := by
  decide +kernel

/-- A header with one entry: thread 0 of every tile at 0x20000. -/
def hdr0 : Hdr := ⟨1, false, false, false, 1, 0, 0, 0, 0, [], [], [⟨0, 0, true, 0, 0x20000⟩]⟩
/-- A TILE segment of 8 bytes with a good prefix. -/
def seg0 : List Byte := let b := toLE 8 0x1122334455667788; toLE 4 0x53474553 ++ toLE 4 (1 + 2 ^ 16) ++ toLE 4 8 ++ toLE 4 (crc32c b).toNat ++ b
/-- LOAD_SEGMENT that loads, with bad parameters, a bad prefix and a bad body; of a RUNNING and a FAULTED context. -/
theorem witness_load :
    let k : CmdSpec := { op := 0x20, needP := true, needC := true, masks := [2 ^ 64 - 1, 2 ^ 32 - 1, 2 ^ 17 - 1, 2 ^ 48 - 1] }
    let s := fun (x : Ctx) => ({ ctxS x with hostMem := mwrite [] 0x1000 seg0 } : State)
    let w := cw 0x20 0x1000 24 1 0
    (∀ st ∈ [CtxSt.created, .loaded, .done, .running, .faulted], ctxB (s { inState st with hdr := some hdr0 }) w k = true) ∧
    (loadCmd w).ok = true ∧ (loadCmd (cw 0x20 0x1001 24 1 0)).ok = false ∧ prefixCheck (mread (s {}).hostMem 0x1000 24) 1 24 = none ∧
    prefixCheck (mread (s {}).hostMem 0x2000 24) 1 24 = some codeBadParam ∧
    okB ((s { inState .created with hdr := some hdr0 }).loadBody c0 (loadCmd w) (seg0.drop 16)) = true ∧
    okB ((s (inState .created)).loadBody c0 (loadCmd w) (seg0.drop 16)) = false := by decide +kernel

/-- PATCH of SRAM, of HBM and with bad parameters, on LOADED and other contexts; RELOCATE with a record whose
base is known, and with one that is not. -/
theorem witness_patch :
    let k : CmdSpec := { op := 0x22, needP := true, needC := true, masks := [2 ^ 48 - 1, 2 ^ 16 - 1, 2 ^ 64 - 1] }
    let s := fun (x : Ctx) => mapped (ctxS x)
    (∀ st ∈ [CtxSt.loaded, .halted, .running, .faulted, .created, .done], ∀ a ∈ [0x2FFF8, 1, 0x30000], ∀ f ∈ [1, 2, 3, 5, 9],
      ctxB (s (inState st)) (cw 0x22 a f 7 0) k = true) ∧
    (inState .loaded).clusters.getLsbD 0 = true ∧ ((s (inState .loaded)).vaWrite 0 c0 0x2FFF8 (toLE 8 7)).2 = none ∧
    ((s (inState .loaded)).vaWrite 0 c0 (2 ^ 30) (toLE 8 7)).2 ≠ none ∧
    ctxB (s (inState .loaded)) (cw 0x21 0 0 0 0) { op := 0x21, needP := true, needC := true } = true ∧
    ((s (inState .loaded)).relocateAll c0 []).2 = (0, none) := by decide +kernel

/-- START, HALT and RESUME in every state. -/
theorem witness_run :
    let x : Ctx := { inState .loaded with hdr := some hdr0, segTcs := [1] }
    (∀ st ∈ [CtxSt.created, .loaded, .running, .halted, .done, .faulted],
      ctxB (ctxS (inState st)) (cw 0x23 0 0 0 0) { op := 0x23, needP := true, needC := true } = true ∧
      ctxB (ctxS (inState st)) (cw 0x24 0 0 0 0) { op := 0x24, needP := true } = true ∧
      ctxB (ctxS (inState st)) (cw 0x25 0 0 0 0) { op := 0x25, needP := true, needC := true } = true) ∧
    ctxB (ctxS x) (cw 0x23 0 0 0 0) { op := 0x23, needP := true, needC := true } = true ∧ ((ctxS x).ctx c0).hdr = some hdr0 ∧
    ((ctxS x).startCheck c0 hdr0).2 = none ∧ ((ctxS { x with segTcs := [0] }).startCheck c0 hdr0).2 = some codeTcMismatch ∧
    (x.tables = [] ∧ 0 ∈ ((ctxS x).ctx c0).tids ∧ hdr0.entryAt 0 0 = some 0x20000 ∧ hdr0.entryAt 0 1 = none) := by decide +kernel

/-- DMA_HOST through a context, at a physical address, of a FAULTED and of no context, with a bad length; its end. -/
theorem witness_dma :
    let k : CmdSpec := { op := 0x30, needP := true, needC := true, cxh := true, masks := [2 ^ 64 - 1, 2 ^ 48 - 1, 0x37FFFFFFF] }
    let s := fun (st : CtxSt) => mapped (ctxS (inState st))
    (∀ n ∈ [32, 31, 32 + 2 ^ 33], ∀ st ∈ [CtxSt.loaded, .faulted, .free], accB (s st) r0 (cw 0x30 0x1000 0x20 n 0) k = true) ∧
    (dmaCmd (cw 0x30 0x1000 0x20 32 0)).phys = false ∧ (dmaCmd (cw 0x30 0x1000 0x20 (32 + 2 ^ 33) 0)).phys = true ∧
    (s .loaded).checkCxh 0 0 = some c0 ∧ (s .free).checkCxh 0 0 = none ∧ okB ((s .loaded).dmaPlaces 0 (some c0) true 0x20).2 = true ∧
    ((((s .loaded).take r0 (cw 0x30 0x1000 0x20 32 0)).ring r0).cur.map Cur.op = some 0x30) ∧
    ((((s .loaded).take r0 (cw 0x31 0x1000 0x20 32 0)).ring r0).cur.map Cur.op = some 0x31) := by decide +kernel

/-- WINDOW_OPEN of pages the context may write, of others, with bad parameters, and with no window left;
WINDOW_CLOSE of a window of the function. -/
theorem witness_windows :
    let k : CmdSpec := { op := 0x31, needP := true, needC := true, masks := [2 ^ 48 - 1, 2 ^ 48 - 1, 0x1FF03FFFFFFFF] }
    let s := mapped (ctxS (inState .loaded))
    let w := fun (b n : Nat) => cw 0x31 b n 0 0
    (∀ p ∈ [(0, 4096), (0, 0), (2 ^ 30, 4096)], ctxB s (w p.1 p.2) k = true) ∧ (s.rangesOk c0 true [(0, 4096)]).2 = true ∧ (s.rangesOk c0 true [(2 ^ 30, 4096)]).2 = false ∧
    (s.win 0).open_ = false ∧ (({ s with wins := (List.range 256).map (fun i => (i, { open_ := true })) } : State).win 255).open_ = true ∧
    accB s r0 (cw 0x32 0xFF 0 0 0) { op := 0x32, needP := true, masks := [0xFF] } = true ∧ ((s.setWin 255 { open_ := true }).win 255).open_ = true := by decide +kernel

/-- FLAG_SET and FLAG_READ in every state, of a flag of the context and of another. -/
theorem witness_host_flags :
    let k : CmdSpec := { op := 0x40, needP := true, masks := [0x11FFF7FFF] }
    let q : CmdSpec := { op := 0x41, needP := true, masks := [0x3F001FFF7FFF] }
    let s := fun (st : CtxSt) => ctxS (inState st)
    (∀ st ∈ [CtxSt.created, .loaded, .running, .halted, .done, .faulted], ∀ t ∈ [0, 0x100 * 2 ^ 16],
      ctxB (s st) (cw 0x40 (t + 2 ^ 32) 0 0 0) k = true ∧ ctxB (s st) (cw 0x41 t 0 0 0) q = true) ∧
    (s .loaded).hostFlag c0 (cmdFlag (cw 0x40 0 0 0 0) 0) = true ∧ (s .loaded).hostFlag c0 (cmdFlag (cw 0x40 (0x100 * 2 ^ 16) 0 0 0) 0) = false := by
  decide +kernel

/-- SCRATCH_SAMPLE in every state, at the end of SRAM and past it, with dumps enabled, not enabled and one in
progress. -/
theorem witness_sample :
    let k : CmdSpec := { op := 0x42, needP := true, masks := [2 ^ 23 - 1] }
    let s := fun (x : Ctx) (b i : W64) => let s := ctxS x; s.setDie 0 { s.die 0 with rst := { dumpBase := b, dumpInfo := i } }
    (∀ st ∈ [CtxSt.created, .loaded, .running, .halted, .done, .faulted], ∀ o ∈ [0x2FFE0, 0x2FFE1], ctxB (s (inState st) 1 0) (cw 0x42 o 0 0 0) k = true) ∧
    (((s (inState .done) 1 0).die 0).rst.dumpEn = true ∧ ((s (inState .done) 1 0).die 0).rst.dumpV = false ∧ 0x2FFE0 + 32 * (0 + 1) ≤ 0x30000) ∧
    ((s (inState .done) 0 0).die 0).rst.dumpEn = false ∧ ((s (inState .done) 1 (BitVec.ofNat 64 (2 ^ 63))).die 0).rst.dumpV = true ∧
    ((s { inState .done with sampleBy := some (none, 0) } 1 0).ctx c0).sampleBy ≠ none ∧ ((s (inState .done) 1 0).ctx c0).sampleBy = none := by decide +kernel

/-- EVENT_READ with records held and asked for, with bad parameters; EVENT_ACK of an LSEQ that exists, of one
that does not, and behind the cursor. -/
theorem witness_log_commands :
    let rec0 : LogRec := ⟨5, 1, 0, 0, true, 0, noInfo⟩
    let s : State := { hosted State.reset with log := { next := 6, recs := [rec0] } }
    let t := s.setFn 0 { s.fn 0 with cursor := 5 }
    (∀ n ∈ [0, 1, 4096, 4097], accB s r0 (cw 0x50 0x1000 0 n 0) { op := 0x50, masks := [2 ^ 64 - 1, 2 ^ 49 - 1, 2 ^ 13 - 1] } = true) ∧
    (∀ n ∈ [4, 5, 6], accB t r0 (cw 0x51 n 0 0 0) { op := 0x51, masks := [2 ^ 48 - 1] } = true) ∧ s.log.oldest.toNat = 5 ∧ t.log.next.toNat ≤ 6 ∧
    (4 < t.log.next.toNat ∧ 4 < (t.fn 0).cursor.toNat) ∧ (t.fn 0).cursor.toNat ≤ 5 ∧ [rec0].getLast? = some rec0 := by decide +kernel

/-! ### Platform commands -/

/-- POWER_MODE to the mode in force, to the other, under a change; a change that may complete. -/
theorem witness_power_mode :
    let k : CmdSpec := { op := 0x60, pf0 := true, needC := true, masks := [1], lock := some 4 }
    let s := hosted State.reset
    let u : State := { s with plat := { s.plat with change := some ⟨true, none, 0⟩ } }
    (∀ n ∈ [0, 1], accB s r0 (cw 0x60 n 0 0 0) k = true ∧ accB u r0 (cw 0x60 n 0 0 0) k = true) ∧ s.plat.change = none ∧ s.plat.envelope = false ∧
    u.plat.change = some ⟨true, none, 0⟩ ∧ (∀ i, i < 32 → u.runsOn i = false) ∧ u.controlRuns = true ∧
    ({ ctxS (inState .running) with plat := u.plat } : State).runsOn 0 = true := by decide +kernel

/-- BANK_POWER in each state of a group, of a cluster of the function and of a disabled one; the ends of a change. -/
theorem witness_banks :
    let k : CmdSpec := { op := 0x61, needP := true, needC := true, masks := [0x7F] }
    let s := fun (st : BankSt) (now : W64) =>
      let s := (hosted State.reset).setBank 31 2 { st := st }
      ({ s with ht := { s.ht with now := now } } : State)
    (∀ st ∈ [BankSt.on, .goingOff, .off, .goingOn], ∀ n ∈ [0x3F, 0x7F], accB (s st 0) r0 (cw 0x61 n 0 0 0) k = true ∧ ((s st 0).bank 31 2).st = st) ∧
    partOfDie (s .on 0).layout (31 / 8) = 0 ∧ (s .on 0).fuses.dis.getLsbD 31 = false ∧ ({ dis := BitVec.ofNat 32 (2 ^ 31) } : Fuses).dis.getLsbD 31 = true ∧
    (s .goingOff 0).inFlight 31 2 = 0 ∧ 0 ≤ ((s .goingOff 0).bank 31 2).t0 + bankOffLimit ∧
    ((s .goingOff (BitVec.ofNat 64 (bankOffLimit + 1))).bank 31 2).t0 + bankOffLimit < bankOffLimit + 1 := by decide +kernel

/-- LIFECYCLE of a listed transition and of others, with a context; LOCK that changes and that does not. -/
theorem witness_lifecycle :
    let k : CmdSpec := { op := 0x70, pf0 := true, masks := [3], lock := some 1 }
    let q : CmdSpec := { op := 0x71, pf0 := true, masks := [0x1FF] }
    (∀ n ∈ [0, 1, 2, 3], accB (hosted State.reset) r0 (cw 0x70 n 0 0 0) k = true) ∧ accB (ctxS (inState .created)) r0 (cw 0x70 3 0 0 0) k = true ∧
    State.reset.fuses.lcs.toNat = 2 ∧ (∃ c ∈ allCtx, ((ctxS (inState .created)).ctx c).st ≠ .free) ∧ (∀ c ∈ allCtx, ((hosted State.reset).ctx c).st = .free) ∧
    (∀ n ∈ [0, 0x1FF], accB (hosted State.reset) r0 (cw 0x71 n 0 0 0) q = true) ∧ (0 : BitVec 9) ||| 0x1FF ≠ 0 := by decide +kernel

/-- LINK_CONTROL of a port with EN and without; a port of another partition's die. -/
theorem witness_link_control :
    (∀ n ∈ [0x0F, 0x1F, 0x9F], accB (hosted State.reset) r0 (cw 0x81 n 0 0 0) { op := 0x81, needP := true, needC := true, masks := [0xFF] } = true) ∧
    partOfDie .p1 (15 / 4) = 0 ∧ partOfDie .p4 (15 / 4) ≠ 0 := by decide +kernel

/-- FW_UPDATE of the least and of a bad length, and while another runs; its end with power, without, and after
a flash failure. -/
theorem witness_firmware :
    let k : CmdSpec := { op := 0xF0, pf0 := true, masks := [2 ^ 64 - 1, 0xFFFFFFFF], lock := some 0 }
    let s := hosted State.reset
    let u : State := { s with plat := { s.plat with fwBy := some (none, true, []) } }
    (∀ n ∈ [4096, 4095, 2 ^ 24 + 4096], accB s r0 (cw 0xF0 0 n 0 0) k = true ∧ accB u r0 (cw 0xF0 0 n 0 0) k = true) ∧ s.plat.fwBy = none ∧
    u.plat.fwBy = some (none, true, []) ∧ (u.plat.powered = true ∧ u.plat.pf = true) ∧ s.plat.recovery = false ∧
    ({ u with plat := { u.plat with pf := false } } : State).plat.pf = false := by decide +kernel

/-! ### Registers, vectors and PCIe -/

/-- Whether the host's link works, a function in D3hot, a die that a function does not see; low and high
words, and offsets that are not supported. -/
theorem witness_registers :
    (State.reset.hostUp = true ∧ ({ State.reset with plat := { State.reset.plat with perst := false } } : State).hostUp = false) ∧
    ({ d3 := true } : Fn).d3 = true ∧ (State.reset.fn 3).d3 = false ∧ State.reset.sees 0 3 = true ∧ State.reset.sees 1 0 = false ∧
    regW 0x3FFFFFC (.w32 1) ≠ none ∧ regW 0x3FFFFF8 (.w64 1) ≠ none ∧ regW 2 (.w32 1) = none ∧ regW 4 (.w64 1) = none ∧ regW 0 (.other 3) = none ∧
    ((1 : W64) &&& 2 = 0) ∧ (0x3FFFFFC % 8 = 4 ∧ 0x3FFFFF8 % 8 = 0 ∧ 0x3FFFFFC / 2 ^ 24 = 3) ∧
    ((4, 1) ∈ ({ his := [(4, 1)] } : Fn).his ∧ (State.reset.fn 3).his = []) := by decide +kernel

/-- The aperture with BAR4 enabled and not, in range and past the populated bytes. -/
theorem witness_aperture :
    let s := fun (b : Nat) => State.reset.setFn 0 { State.reset.fn 0 with b4base := BitVec.ofNat 64 b }
    ((s 1).hostUp = true ∧ ((s 1).fn 0).d3 = false ∧ ((s 1).fn 0).b4base.getLsbD 0 = true ∧ (s 1).partExists 0 = true ∧ paRangeOk (s 1).layout 0 0 64 = true) ∧
    ((s 0).fn 0).b4base.getLsbD 0 = false ∧ paRangeOk (s 1).layout 0 (bits (1 + 2 ^ 36) 47 36 * 2 ^ 36 + 2 ^ 36 - 64) 64 = false := by decide +kernel

/-- NUM_WCTL with CLEAR and without. -/
theorem witness_wctl : (State.reset.hostUp = true ∧ State.reset.sees 0 3 = true ∧ (1 : W32).getLsbD 0 = true) ∧ (2 : W32).getLsbD 0 = false := by decide +kernel

/-- A vector whose time has come, one before it, a masked one, one of a function in D3hot; a count that
reaches its limit and one below. -/
theorem witness_vectors :
    let s := fun (v : Vec) (d3 : Bool) (now : W64) =>
      let s := State.reset.setFn 3 { State.reset.fn 3 with vecs := [(511, v)], d3 := d3 }
      ({ s with ht := { s.ht with now := now } } : State)
    let v : Vec := { mod := 0x101, n := 1, t1 := some 0, masked := false }
    ((s v false 1000).hostUp = true ∧ ((s v false 1000).fn 3).vec 511 = v ∧ 0 < v.n ∧ 0 + 1000 * max 1 (min (bits v.mod.toNat 17 8) 1000) ≤ 1000) ∧
    ¬(0 + 1000 * max 1 (min (bits v.mod.toNat 17 8) 1000) ≤ 999) ∧ ((s v true 1000).fn 3).d3 = true ∧ ((s { v with masked := true } false 1000).fn 3).vec 511 = { v with masked := true } ∧
    (min 256 (v.n + 1) = bits v.mod.toNat 7 0 + 1 ∧ min 256 (0 + 1) < bits v.mod.toNat 7 0 + 1) := by decide +kernel

/-- Functions in D0 and D3hot, the last one to enter, and a PME_Turn_Off with and without a command that runs. -/
theorem witness_pcie :
    let s := fun (l : List Nat) => forAll l (fun (s : State) f => s.setFn f { s.fn f with d3 := true }) State.reset
    (∀ g, g < 4 → g ≠ 3 → ((s [0, 1, 2]).fn g).d3 = true) ∧ ((s []).fn 0).d3 = false ∧ ((s [3]).fn 3).d3 = true ∧ (s []).hostUp = true ∧
    (s []).plat.pcie.turn = none ∧ (∀ r ∈ allRings, ((s []).ring r).cur = none) ∧
    (((hosted State.reset).take r0 (cw 1 0 0 0 0)).ring r0).cur ≠ none ∧ r0 ∈ allRings ∧
    ({ State.reset with plat := { State.reset.plat with pcie := { turn := some 0 } } } : State).plat.pcie.turn ≠ none := by decide +kernel

/-! ### Events and the log -/

/-- A source of one die, one of the module, one of an AON latch and a reserved number. -/
theorem witness_events :
    (evListed evSlotFault = true ∧ evLatch evSlotFault = none ∧ evScopeM evSlotFault = false) ∧ (evListed evLockChange = true ∧ evScopeM evLockChange = true) ∧
    (evLatch evPowerFail).isSome = true ∧ evListed 511 = false ∧ State.reset.plat.powered = true := by decide +kernel

/-- The raise that reaches the limit, the one before, one of a masked source and one under HOLD; a limit of 0. -/
theorem witness_storms :
    (({ limit := 1 } : Evc).raise 0 511 true ⟨0, 511, 0, 0, true, 0, noInfo⟩).2 = true ∧ (({ limit := 2 } : Evc).raise 0 511 true ⟨0, 511, 0, 0, true, 0, noInfo⟩).2 = false ∧
    (({ limit := 1, masked := BitVec.allOnes 512 } : Evc).raise 0 511 true ⟨0, 511, 0, 0, true, 0, noInfo⟩).2 = false ∧
    (({ limit := 1, hold := true } : Evc).raise 0 511 true ⟨0, 511, 0, 0, true, 0, noInfo⟩).2 = true ∧
    (({ limit := 0 } : Evc).raise 0 511 true ⟨0, 511, 0, 0, true, 0, noInfo⟩).2 = false := by decide +kernel

/-- Two sources pending and enabled of which one is claimed; an empty and a full stack; HOLD. -/
theorem witness_claim :
    let n := evSlotFault
    let m := evLockChange
    let e : Evc := { pend := putBit (putBit 0 n true) m true, en := BitVec.allOnes 512, prio := [(m, 3), (n, 3)] }
    (∀ k ∈ [n, m], evListed k = true ∧ e.pend.getLsbD k = true ∧ e.en.getLsbD k = true ∧ e.prioOf k < e.stack.headD 16) ∧ n ≠ m ∧
    e.claim = some (min n m) ∧ ({ e with hold := true } : Evc).hold = true ∧ ({} : Evc).claim = none ∧ ({ stack := [3, 5] } : Evc).stack = 3 :: [5] ∧
    State.reset.controlRuns = true ∧ State.reset.plat.pstate ≠ .standby ∧ ({ State.reset with plat := { State.reset.plat with running := false } } : State).plat.running = false := by
  decide +kernel

/-- A full latch and an empty one, with and without control cores that run. -/
theorem witness_latches :
    let s := State.reset.setDie 0 { State.reset.die 0 with evc := { full := 0x10 } }
    (s.controlRuns = true ∧ (s.die 0).evc.full.getLsbD 4 = true ∧ (s.die 0).evc.full.getLsbD 3 = false ∧ (s.die 0).evc.masked.getLsbD (latchSrc 4) = false) ∧
    ({ s with plat := { s.plat with running := false } } : State).controlRuns = false := by decide +kernel

/-- A record offered with room and without, dropped records to tell of, an open page of 100 ms, a page being
programmed. -/
theorem witness_log :
    let x : LogRec := ⟨0, 1, 3, 0, true, 0, noInfo⟩
    let s := fun (l : Log) (now : W64) =>
      let s := State.reset.setDie 3 { State.reset.die 3 with evc := { offers := [(0, x)] } }
      ({ s with log := l, ht := { s.ht with now := now } } : State)
    ((s {} 0).controlRuns = true ∧ ([0, 1, 2, 3].map (fun k => ((s {} 0).log.turn + k) % 4)).find? (fun d => !((s {} 0).die d).evc.offers.isEmpty) = some 3 ∧
      ((s {} 0).die 3).evc.offers = (0, x) :: []) ∧ (({} : Log).open_ < 256 ∧ ¬({ open_ := 256 } : Log).open_ < 256) ∧ 0 < ({ run := 1 } : Log).run ∧
    ([0, 1, 2, 3].map (fun k => (0 + k) % 4)).find? (fun d => !(State.reset.die d).evc.offers.isEmpty) = none ∧
    ((s { open_ := 1 } 100000000).log.openAt + 100000000 ≤ (s { open_ := 1 } 100000000).ht.now.toNat ∧ ¬(0 + 100000000 ≤ (s {} 99999999).ht.now.toNat)) ∧
    ((s { prog := some (7, 0) } 0).log.prog = some (7, 0) ∧ (s {} 0).plat.powered = true ∧ (s {} 0).plat.pf = true) := by decide +kernel

/-! ### Power and pins, throttle, watchdogs and resets -/

/-- With power and without; each image choice of BOOT. -/
theorem witness_power_up :
    let off : State := { State.reset with plat := { State.reset.plat with powered := false } }
    off.plat.powered = false ∧ State.reset.plat.powered = true ∧ off.fuses.lcs ≠ 0 ∧
    bootImage 0 off.plat.fwImgA off.plat.fwImgB off.fuses.lcs = some false ∧ bootImage 0 ⟨false, 0, false, false⟩ ⟨false, 0, false, false⟩ 2 = none := by decide +kernel

/-- PERST# and PF# high and low, in STANDBY and outside, with and without power. -/
theorem witness_pins :
    let s := fun (p : Plat) => ({ State.reset with plat := p } : State)
    ((s {}).plat.powered = true ∧ (s {}).plat.perst = true ∧ (s {}).plat.pf = true ∧ (s {}).plat.pstate ≠ .standby) ∧ (s { perst := false }).plat.perst = false ∧
    (s { pf := false }).plat.pf = false ∧ (s { pstate := .standby }).plat.pstate = .standby ∧ (s { powered := false }).plat.powered = false := by decide +kernel

/-- A module that has had no demand for 1 ms, one that has; every function in D3hot; a wake by a function and
by a latch. -/
theorem witness_power_states :
    let s := fun (p : PState) (l : List Nat) (now : W64) (full : BitVec 5) =>
      let s := forAll l (fun (s : State) f => s.setFn f { s.fn f with d3 := true }) State.reset
      let s := s.setDie 3 { s.die 3 with evc := { full := full } }
      ({ s with plat := { s.plat with pstate := p }, ht := { s.ht with now := now } } : State)
    ((s .active [] 1000000 0).controlRuns = true ∧ (s .active [] 1000000 0).busy = false ∧ (s .active [] 1000000 0).plat.idleAt + 1000000 ≤ 1000000) ∧
    ((s .idle [0, 1, 2, 3] 0 0).controlRuns = true ∧ (s .idle [0, 1, 2, 3] 0 0).plat.pf = true ∧ (∀ f, f < 4 → ((s .idle [0, 1, 2, 3] 0 0).fn f).d3 = true) ∧
      ∀ e ∈ (s .idle [0, 1, 2, 3] 0 0).ctxs, e.2.st ≠ .running) ∧
    ((s .standby [0, 1, 2] 0 0).plat.pstate = .standby ∧ ((s .standby [0, 1, 2] 0 0).fn 3).d3 = false) ∧
    (((s .standby [0, 1, 2, 3] 0 2).die 3).evc.full.getLsbD 1 = true ∧ ((s .standby [0, 1, 2, 3] 0 4).die 3).evc.full.getLsbD 2 = true) := by decide +kernel

/-- Control steps at 94, 95, 99, 100, 119 and 120 °C, at and beside the limits of power, and at the tenth step
above; an apply on and off its boundary. -/
theorem witness_throttle :
    let t := fun (n : Nat) => ({ d0 := 0, d1 := 0, d2 := 0, d3 := BitVec.ofNat 8 n } : Temps)
    let s := fun (p : Plat) (now : W64) => ({ State.reset with plat := p, ht := { State.reset.ht with now := now } } : State)
    (∀ n ∈ [94, 95, 99, 100, 119, 120], hottest (t n) = n) ∧ ((s {} 100000).plat.stepAt + 100000 ≤ 100000 ∧ ¬((s {} 99999).plat.stepAt + 100000 ≤ 99999)) ∧
    (let u := (({ s {} 100000 with plat := { (s {} 100000).plat with stepAt := 100000, power := 1800 } } : State).setTemps (t 95)).setTherm (t 95)
     u.controlRuns = true ∧ u.plat.pf = true ∧ u.plat.trip = false ∧ u.plat.k = 16) ∧
    (({ k := 10, overCnt := 9 } : Plat).k = 10 ∧ 105 * 1800 < 100 * 1891 ∧ ¬(105 * 1800 < 100 * 1890)) ∧ (100 * 1710 ≤ 95 * 1800 ∧ 95 * 1800 < 100 * 1711) ∧
    (({ cyc := 32 } : Cluster).cyc % 16 = 0 ∧ ({ cyc := 33 } : Cluster).cyc % 16 ≠ 0) ∧
    ((s { trip := true, tripPower := true } 10000000).plat.trip = true ∧ (s { trip := true, tripPower := true } 10000000).plat.tripAt + 10000000 ≤ 10000000) := by
  decide +kernel

/-- A watchdog past its limit, at it, and with LIMIT 0; an engine that holds work and one that holds none. -/
theorem witness_watchdogs :
    let s := fun (lim : W32) (now : Nat) =>
      let s := onTile { thr := [(0, { st := .blocked, wait := .queue 0 })], queues := [(7, { issue := 1, reqs := [{ seq := 0, thr := 0, sram := 0, va := 0, len := 8 }] })] }
      let s := s.setDie 0 { s.die 0 with rst := { wdog := [(0, lim)] } }
      ({ s with ht := { s.ht with now := BitVec.ofNat 64 now } } : State)
    (∀ n ∈ [1000, 1001], sget 0 ((s 1 n).die 0).rst.wdog c0.slot = 1 ∧ ((s 1 n).ctx c0).st = .running ∧ ((s 1 n).ctx c0).run.wdogAt = 0) ∧
    (0 + 1000 * 1 < 1001 ∧ ¬(0 + 1000 * 1 < 1000)) ∧ sget 0 ((s 0 1000000001).die 0).rst.wdog c0.slot = 0 ∧
    (engValid 0 = true ∧ (s 1 0).controlRuns = true ∧ (s 1 0).resetOver 1 0 0 = false ∧ (s 1 0).engWork 0 = c0 :: ((s 1 0).engWork 0).tail) ∧
    State.reset.engWork 0 = [] ∧ engValid 0xFFFF = false := by decide +kernel

/-- RESET_ESCALATE at each level, with good and bad targets, and with the reset already running; a fence past
half a budget. -/
theorem witness_escalate :
    let k := fun (n : Nat) => ({ op := 0x90, cxh := true, masks := [0xFFFF001F], lock := if 3 ≤ n ∧ n ≤ 4 then some 8 else none } : CmdSpec)
    let s := ctxS (inState .loaded)
    (∀ n ∈ [0, 1, 2, 3, 4, 5, 7], accB s r0 (cw 0x90 n 0 0 0) (k n) = true) ∧ accB s r0 (cw (0x90 + 2 ^ 16) 0 0 0 0) (k 0) = true ∧
    s.checkCxh 0 0 = some c0 ∧ s.checkCxh 0 1 = none ∧ engValid 0 = true ∧ engValid 0xFFFF = false ∧ s.resetOver 1 0 0 = false ∧ s.resetOver 2 0 0 = false ∧
    (let q := fun (n : Nat) => ({ s with resets := [{ level := n, target := 0, part := 0, start := 0, owner := none }], ht := { s.ht with now := 40000000 } } : State)
     (q 1).resetOver 1 0 0 = true ∧ (q 2).resetOver 2 0 0 = true ∧ (∃ x ∈ (q 3).resets, x.level = 3 ∧ x.start + 40000000 ≤ (q 3).ht.now.toNat) ∧
     (∃ x ∈ (q 2).resets, x.level = 2 ∧ x.part = partOfDie (q 2).layout (8191 / 2048) ∧ x.start + 2500000 ≤ (q 2).ht.now.toNat)) ∧ nParts s.layout ≤ 1 := by decide +kernel

/-- Resets of each level in progress: at their end, past and within their budgets, with the pins as they may be. -/
theorem witness_resets :
    let s := fun (n : Nat) (c : Option CtxRef) (now : Nat) => ({ ctxS { inState .tearing with td := some ⟨.teardown, none, none, false, 0⟩ } with
      resets := [{ level := n, target := 0, part := 0, start := 0, owner := none, ctx := c }], ht := { State.reset.ht with now := BitVec.ofNat 64 now } } : State)
    (∀ n ∈ [0, 1, 2, 3], ∃ x, (s n (some c0) 80000000).resets[0]? = some x ∧ x.level = n) ∧ (s 0 none 0).resets[1]? = none ∧
    ((s 3 none 0).plat.powered = true ∧ (s 3 none 0).plat.perst = true ∧ (s 3 none 0).plat.pf = true ∧ (s 3 none 0).plat.pwrCycle = false) ∧
    (bits (0 : BitVec 16).toNat 15 13 = 0 ∧ ((s 2 none 0).tile 0).fenced = false) ∧
    (((s 0 (some c0) 200000).ctx c0).td = some ⟨.teardown, none, none, false, 0⟩ ∧ (s 0 (some c0) 200000).drained c0 = true) ∧
    (0 + 200000 ≤ (s 0 none 200000).ht.now.toNat ∧ ¬(0 + 50000 ≤ (s 1 none 49999).ht.now.toNat)) := by decide +kernel

/-- A context that is live for a function's handle, in P1 and P2. -/
theorem witness_handles :
    (ctxS (inState .loaded)).checkCxh 0 0 = some c0 ∧ ({ ctxS (inState .loaded) with layout := .p2 } : State).checkCxh 0 0 = some c0 ∧ c0.ok = true ∧
    (0 < 3 ∧ 3 < 4) ∧ ({ State.reset with layout := .p4, parts := 15 } : State).sees 3 3 = true ∧ ({ stack := [3, 5] } : Evc).stack.Pairwise (· < ·) ∧
    (∀ p ∈ ({ stack := [3, 5] } : Evc).stack, p < 16) := by decide +kernel

/-! ### Invariants -/

def stepS : State := { State.reset with pending := [.perstRise], hbm := [(5, 1)], hostMem := [(0, 2), (7, 3)] }
theorem witness_memory_ok : MemoryOk stepS := ⟨rfl, rfl, fun _ => rfl⟩
theorem witness_owners_ok : OwnersOk stepS := by
  have h : ∀ (c : CtxRef) (i : Nat), (stepS.ctx c).clusters.getLsbD i = true → False := fun _ _ h => by simp [stepS, State.ctx, State.reset, sget] at h
  exact ⟨fun _ _ _ => rfl, fun c i _ h1 => (h c i h1).elim, fun c _ i _ _ h1 => (h c i h1).elim⟩
/-- A step of that state, and a command that changes the layout. -/
theorem witness_step : step stepS = .next { stepS with pending := [] } := rfl
theorem witness_layout : (Instr.partCreate r0 (cw 0x10 1 0 0 0)).wellFormed = true ∧ Layout.p2 ≠ State.reset.layout := by decide +kernel

/-! ### Further cases -/

set_option maxRecDepth 40000 in
/-- A digest of an earlier and one of a later SSN, before the own digests, off the twin ports, with a reserved
bit, of a stale handle. -/
theorem witness_digests_kept :
    let s := fun (g : List W64) (ssn : W32) (inb : List (W32 × List W64)) =>
      let s := withRun { phase := .barrier, digest := g, ssn := ssn, inbox := inb, islocal := true } {}
      ({ s with ports := [(3, upPort), (14, upPort)], pair := { on := true } } : State)
    let x := frame0 2 2 0 0
    let ssn : W32 := (Frame.word x 4).truncate 32
    ((s [] ssn []).ctx c0).st = .running ∧ ((s [] ssn []).ctx c0).run.digest.length ≠ 4 ∧ (∀ e ∈ ((s [] ssn []).ctx c0).run.inbox, e.1 ≠ ssn) ∧
    ((ssn - 1 - ssn).toInt < 0 ∧ -2147483648 < (ssn - 1 - ssn).toInt ∧ ((s [] (ssn - 1) []).ctx c0).run.ssn = ssn - 1) ∧
    (0 < (ssn + 1 - ssn).toInt ∧ ((s [] (ssn + 1) []).ctx c0).run.ssn = ssn + 1) ∧ (s [] 0 []).cxh ⟨0, 1⟩ ≠ Frame.cxh x ∧
    ((s [] 0 []).port 3).link.st = .up ∧ Frame.reserved (frame0 2 2 0 (2 ^ 24)) = true ∧ Frame.crcOk (frame0 2 2 0 (2 ^ 24)) = true ∧
    ((s [1, 0, 0, 0] ssn []).ctx c0).run.digest.length = 4 := by decide +kernel

/-- Four words with a control word, and without; the words of a frame as its SOF, its payload and its trailer
arrive. -/
theorem witness_block_words :
    let ws : List (Bool × W64) := [(true, symWord 0x81 5), (false, 7), (true, symWord 0x04 9), (false, 0)]
    (ws.length = 4 ∧ (ws.filter Prod.fst).map (fun e => symType e.2) = [0x81, 0x04] ∧
      (wordsOf (blockOf ws).toNat).map keptWords = some ws) ∧
    (∀ ty ∈ [0x01, 0x02, 0x04, 0x10, 0x11, 0x20, 0x80, 0x81, 0x82, 0x83, 0x84], symOk (symWord ty 5) = true ∧ symType (symWord ty 5) = ty ∧
      ctlWord (bits (blockOf [(true, symWord ty 5), (false, 0), (false, 0), (false, 0)]).toNat 64 5) = some (symWord ty 5)) ∧
    ((State.reset.port 15).rx.first = none ∧ (State.reset.port 15).rx.unc = false ∧ (State.reset.port 15).rx.part = none ∧ ctlWord 15 = none) ∧
    (({ first := some (symWord 0x10 5, true) } : PortRx).first = some (symWord 0x10 5, true) ∧ ({ unc := true } : PortRx).unc = true) ∧
    ((List.replicate 33 (0 : W64)).length + 1 = 34 ∧ (List.replicate 32 (0 : W64)).length + 1 ≠ 34 ∧ (List.replicate 8 (0 : W256)).length = 8) ∧
    (({ corrected := 15, uncorrectable := false } : FecRes).corrected ≤ 15 ∧ 15 < ({ corrected := 16, uncorrectable := false } : FecRes).corrected) := by
  decide +kernel

/-- A queue of symbols in order, on a port that sends and with PF# low. -/
theorem witness_symbols :
    let q : List W64 := [symWord 0x11 1, symWord 0x10 1, symWord 0x20 1, symWord 0x04 1, symWord 0x01 1]
    q.Pairwise (fun a b => symRank a ≤ symRank b) ∧ queueSym (symWord 0x10 2) q = [symWord 0x11 1, symWord 0x10 1, symWord 0x10 2, symWord 0x20 1, symWord 0x04 1, symWord 0x01 1] ∧
    State.reset.plat.pf = true ∧ ((linkS { upPort with tx := { syms := q } } 0).port 15).tx.syms = q := by decide +kernel

/-- A source that misses a unit with a live copy and without, first and again, in a Strict context and in
another; one that misses none; a channel that waits. -/
theorem witness_late_source :
    let s := fun (y : Chan) (strict : Bool) => let s := chanS y 101 0; s.setCtx c0 { s.ctx c0 with strict := strict }
    let x := fun (y : Chan) => ((s y true).port 3).xch
    let q := (x {}).chSrc 63 1
    let some_ : Chan := { st := .armed, prim := [unitKey 1 0] }
    let all : Chan := { st := .wait, prim := [unitKey 1 0, unitKey 1 1], pastDl := [1] }
    q.kind = 2 ∧ (1 < ((x some_).chHdr 63).count ∧ unitKey 1 1 ∉ some_.prim ∧ unitKey 1 1 ∉ some_.bkTook) ∧
    (∀ u, u < ((x all).chHdr 63).count → unitKey 1 u ∈ all.prim) ∧ (s some_ true).srcDead (x some_) q = false ∧
    (let z := { x some_ with chanRam := (68 * 63 + 8, BitVec.ofNat 64 (2 + 9 * 16 + 3 * 2 ^ 12)) :: (x some_).chanRam, slots := [rx0 .dead []] }
     (z.chSrc 63 1).kind = 2 ∧ (s some_ true).srcDead z (z.chSrc 63 1) = true) ∧
    ((s some_ true).ctx c0).strict = true ∧ ((s some_ false).ctx c0).strict = false ∧
    (∀ e ∈ (x all).chSrcs 63, e.1 ∈ all.pastDl → ∀ n, n < ((x all).chHdr 63).count → e.2.kind ≠ 2 ∨ unitKey e.1 n ∈ all.prim ∨ unitKey e.1 n ∈ all.bkTook) ∧
    ¬(∀ e ∈ (x some_).chSrcs 63, e.1 ∈ [1] → ∀ n, n < ((x some_).chHdr 63).count → e.2.kind ≠ 2 ∨ unitKey e.1 n ∈ some_.prim ∨ unitKey e.1 n ∈ some_.bkTook) := by
  decide +kernel

set_option maxRecDepth 40000 in
/-- Two NAKed frames of which only the second may go now, and none that may. -/
theorem witness_replay_order :
    let h := fun (n : Nat) (e : Nat) => ({ seq := BitVec.ofNat 12 n, frame := frame0 0 8 n 0, entry := e, fidx := 0, cxh := State.reset.cxh c0, naks := 0 } : TxFrame)
    let y := fun (b : Nat) => ({ upPort with tx := { seq := 7, buf := [h 5 0, h 6 1], nakq := [5, 6], busy := b } } : Port)
    let s := fun (b : Nat) => slotS (slotRam 1 0 0 0) (tx0 .active 1) (y b) 0
    ((s 0).port 3).tx.nakq = [5] ++ 6 :: [] ∧ ((s 0).port 3).tx.buf.find? (fun g => g.seq = 5) = some (h 5 0) ∧ (s 0).replayOk 3 (h 5 0) = false ∧
    ((s 0).port 3).tx.buf.find? (fun g => g.seq = 6) = some (h 6 1) ∧ (s 0).replayOk 3 (h 6 1) = true ∧ ((s 0).port 3).tx.busy ≤ 0 ∧ ¬((s 1).port 3).tx.busy ≤ 0 ∧
    ((slotS (slotRam 1 0 0 0) (tx0 .active 1) { upPort with tx := { buf := [h 5 0], nakq := [5] } } 0).replayOk 3 (h 5 0) = false) := by decide +kernel

/-- A port in ALIGN; a Pair and none; a port DOWN with AUTO and without. -/
theorem witness_align :
    let y := fun (st : PortSt) (ctl : W32) => linkS { upPort with link := { st := st, ctl := ctl } } 1024
    ((y .align 3).port 15).link.st = .align ∧ ({ State.reset with pair := { on := true }, layout := .p1, cfg := some cfg0 } : State).pair.on = true ∧ State.reset.pairOn = false ∧
    (((y .down 3).port 15).link.ctl.getLsbD 0 = true ∧ ((y .down 3).port 15).link.ctl.getLsbD 1 = true ∧ (y .down 3).cfg = none) ∧
    ((y .down 1).port 15).link.ctl.getLsbD 1 = false ∧ (y .align 3).ht.now.toNat % 1024 = 0 := by decide +kernel

/-- The TAP in each of its states and with each instruction, with TRST# low and high; a read at the static
address, at a dynamic one and at another. -/
theorem witness_lands :
    let s := fun (st : TapSt) (ir : TapIr) (l : List Bool) => ({ State.reset with tap := { State.reset.tap with trst := false, st := st, ir := ir, irSh := l } } : State)
    (∀ st ∈ [TapSt.capDr, .shDr, .shIr, .upDr, .upIr], ∀ ir ∈ [TapIr.idcode, .bypass, .sample, .extest],
      (s st ir [true]).tap.trst = false ∧ (s st ir [true]).tap.st = st ∧ st ≠ .reset ∧ (s st ir [true]).tap.ir = ir ∧ ∀ b ∈ (s st ir [true]).tap.irSh, b = true) ∧
    ((s .upIr .idcode [true]).tck false false).tap.st ≠ .reset ∧ ({ State.reset with pins := [.trst true] } : State).pins = .trst true :: [] ∧
    (0x30 + State.reset.plat.straps.zeroExtend 7 : BitVec 7) = 0x30 ∧ ({ State.reset with i3cDyn := some 9 } : State).i3cDyn = some 9 ∧ State.reset.i3cDyn = none ∧
    (0x31 : BitVec 7) ≠ 0x30 + State.reset.plat.straps.zeroExtend 7 := by decide +kernel

set_option maxRecDepth 40000 in
/-- A frame whose window passes every check and whose address does not translate. -/
theorem witness_window_translates :
    let w : Win := { open_ := true, base := 0, size := 2 ^ 31, hdid := 3, rcxh := State.reset.cxh c0, lcxh := State.reset.cxh c0, w := true }
    let s := let s := slotS (slotRam 2 0 0 (2 ^ 30)) (rx0 .active []) upPort 0; s.setWin 0 w
    let x := frame0 0 8 0 0
    let e := (s.port 3).xch.ent 0
    s.winReason c0 (s.win e.win) (s.port 3).ht.phdid x (e.va + 256 * Frame.fidx x) (Frame.data x).length = none ∧
    (s.vaWrite 0 c0 (e.va + 256 * Frame.fidx x) (Frame.data x)).2 ≠ none := by decide +kernel

/-- Two rings that can take a command, with the turn at the second; a resource command that waits. -/
theorem witness_turns :
    let s : State := { State.reset with fns := [(0, { turn := 15, rings := [(0, ring0), (15, ring0)] })], cfg := some cfg0 }
    ((⟨0, 15⟩ : RingRef).ok = true ∧ (s.fn 0).turn < 16 ∧ s.canTake ⟨0, 15⟩ = true ∧ s.atTurn ⟨0, 15⟩ = true ∧ s.canTake r0 = true ∧ s.atTurn r0 = false) ∧
    (let t := s.take ⟨0, 15⟩ (cw 0x12 0 0 0 0)
     t.canTake r0 = true ∧ t.atTurn r0 = true ∧ t.resourceWait 0 (cw 0x10 0 0 0 0) = true ∧ t.resourceWait 0 (cw 0x01 0 0 0 0) = false) ∧
    s.resourceWait 0 (cw 0x90 0 0 0 0) = false := by decide +kernel

/-- A context in TEARING that waits for a message, for a frame and for a forced L1; one of another kind; a
transfer with PF# low and in STANDBY. -/
theorem witness_drain :
    let s := ctxS { inState .tearing with td := some ⟨.level2, none, none, false, 0⟩ }
    (s.drained c0 = true ∧ (s.ctx c0).td = some ⟨.level2, none, none, false, 0⟩ ∧ ¬∃ q ∈ s.resets, q.level = 1 ∧ q.ctx = some c0) ∧
    ({ s with tiles := [(0, { thr := [(0, { wait := .send 0 (msgTo 0 0) false 0 0 0 .travelling })] })] } : State).drained c0 = false ∧
    (∃ q ∈ ({ s with resets := [{ level := 1, target := 0, part := 0, start := 0, owner := none, ctx := some c0 }] } : State).resets, q.level = 1 ∧ q.ctx = some c0) ∧
    ({ s with plat := { s.plat with pstate := .standby } } : State).plat.pstate = .standby ∧ s.plat.pstate ≠ .standby ∧
    (∀ n, n < 8 → (s.ctx ⟨0, n⟩).flr = false) ∧ s.plat.pf = true ∧ ({ s with plat := { s.plat with pf := false } } : State).plat.pf = false := by decide +kernel

/-- Function Level Resets of a function with live contexts, one of which waits, with a reset under way, and
without; a region for a sample that exists and one that does not. -/
theorem witness_flr :
    let s := fun (td : Option Td) => ({ ctxS (inState .loaded) with ctxs := [(0, inState .loaded), (1, { inState .running with clusters := 2 }),
      (2, { st := .tearing, td := td })] } : State)
    (∀ td ∈ [none, some ⟨.reset, none, none, false, 0⟩, some ⟨.teardown, none, none, false, 0⟩], (s td).hostUp = true ∧ ((s td).ctx ⟨0, 0⟩).st = .loaded ∧
      ((s td).ctx ⟨0, 1⟩).st = .running ∧ ((s td).ctx ⟨0, 2⟩).st = .tearing ∧ ((s td).ctx ⟨0, 2⟩).td = td ∧ ((s td).ctx ⟨0, 3⟩).st = .free ∧
      ∀ k, k < 8 → ((s td).ctx ⟨0, k⟩).flr = false) ∧
    (paRangeOk State.reset.layout 0 0 (2 ^ 21) = true ∧ paRangeOk State.reset.layout 0 (2 ^ 42) (2 ^ 21) = false) := by decide +kernel

/-- A row with two skips, at the ends of the columns. -/
theorem witness_columns : ([17, 40] : List Nat).Pairwise (· < ·) ∧ [17, 40].length ≤ 2 ∧ 63 < 64 ∧ physOf [17, 40] 63 = 65 ∧ physOf [0, 1] 0 = 2 ∧
    rowSkips 0xA891 = [17, 40] := by decide +kernel

/-- A read of 64 bits and one of a bad size; registers that a control core and a host write; a bit that
hardware sets in the same nanosecond. -/
theorem witness_writers :
    (8 % 8 = 0 ∧ ¬((2 = 4 ∧ 4 % 4 = 0) ∨ (2 = 8 ∧ 4 % 8 = 0))) ∧ State.reset.controlRuns = true ∧ regW 0xA0140 (.w64 1) ≠ none ∧ regW 0x180 (.w64 1) ≠ none ∧
    ({ State.reset with plat := { State.reset.plat with running := false } } : State).controlRuns = false ∧
    (let s := State.reset.hwSet (bar0Bit 3 0xA0008 42)
     s.fresh.time = s.ht.now.toNat ∧ bar0Bit 3 0xA0008 42 ∈ s.fresh.bits ∧ bar0Bit 3 0xA0180 16 ∉ s.fresh.bits) ∧
    ((2 ^ 42 : W64).getLsbD 42 = true ∧ (1 : W64).getLsbD 0 = true ∧ (2 : W64).getLsbD 0 = false) ∧ State.reset.hostUp = true ∧ (State.reset.fn 3).d3 = false := by
  decide +kernel

/-- Two sources of which one rose in this cycle; a source raised again; records of one cycle and of two. -/
theorem witness_rose :
    let n := evSlotFault
    let e : Evc := { en := BitVec.allOnes 512 }
    let a := e.rise 5 n
    let b : Evc := { a with pend := putBit 0 n true }
    (a.roseAt = 5 ∧ a.rose.getLsbD n = true ∧ a.again.getLsbD n = true) ∧ ((b.rise 6 n).rose.getLsbD n = false ∧ (b.rise 6 n).again.getLsbD n = true) ∧
    (let x := fun (k : Nat) => (⟨0, k, 0, 0, true, 0, noInfo⟩ : LogRec)
     (offerRec 5 (x 3) [(5, x 4)] = [(5, x 3), (5, x 4)] ∧ offerRec 6 (x 3) [(5, x 4)] = [(5, x 4), (6, x 3)])) ∧
    (({ lastAt := some 5 } : Log).lastAt = some 5 ∧ ({} : Log).lastAt ≠ some 0) := by decide +kernel

/-- A tile core whose monitor has come to its limit and one before it; a limit of 0; a monitor that begins. -/
theorem witness_monitors :
    let s := fun (at_ : Option Nat) (lim : BitVec 16) (now : Nat) =>
      let s := onTile { pmAt := at_, thr := [(0, { st := .runnable, pc := 0x20000 })] }
      let s := s.setDie 0 { s.die 0 with rst := { pmLim := [(0, lim)] } }
      ({ s with ht := { s.ht with now := BitVec.ofNat 64 now } } : State)
    ((s (some 0) 0 1000).pmFires 0 = true ∧ (s (some 0) 0 999).pmFires 0 = false ∧ (s none 0 1000).pmFires 0 = false ∧ (s (some 0) 2 1999).pmFires 0 = false) ∧
    ((s (some 0) 0 1000).controlRuns = true ∧ (s (some 0) 0 1000).resetOver 1 0 (partOfDie (s (some 0) 0 1000).layout 0) = false) ∧ engValid 0 = true ∧
    (s none 0 7).coreBusy 0 ((s none 0 7).tile 0) = true ∧ pmNext 7 true none = some 7 := by decide +kernel

/-- Resets of each level at their budgets, with an L4 and without; a trip that bars the clusters, and a wake. -/
theorem witness_budgets :
    let s := fun (n now : Nat) (p : Plat) => ({ ctxS { inState .tearing with td := some ⟨.teardown, none, none, false, 0⟩ } with
      resets := [{ level := n, target := 0, part := 0, start := 0, owner := none, ctx := some c0 }], plat := p, ht := { State.reset.ht with now := BitVec.ofNat 64 now } } : State)
    (∀ e ∈ [(0, 200000), (1, 50000), (2, 5000000), (3, 80000000)], ∃ x, (s e.1 e.2 {}).resets[0]? = some x ∧ x.level = e.1 ∧ x.start + e.2 ≤ (s e.1 e.2 {}).ht.now.toNat ∧
      ¬(x.start + e.2 ≤ e.2 - 1)) ∧
    (((s 0 200000 {}).ctx c0).td = some ⟨.teardown, none, none, false, 0⟩ ∧ (s 0 200000 {}).drained c0 = true ∧
      ({ s 0 200000 {} with tiles := [(0, { thr := [(0, { wait := .send 0 (msgTo 0 0) false 0 0 0 .travelling })] })] } : State).drained c0 = false) ∧
    ((s 3 0 { pwrCycle := true }).plat.pwrCycle = true ∧ (s 3 0 {}).plat.pwrCycle = false) ∧ ((s 3 0 { trip := true }).barred = true ∧ (s 3 0 {}).barred = false) := by
  decide +kernel

/-! ### Traps, bytes placed, lateness and the starts of resets -/

/-- Narrow and wide accesses that are misaligned or pass the end of SRAM; a PC that is misaligned and one past
SRAM; illegal words, and another instruction's. -/
theorem witness_misaligned :
    (∀ p ∈ [(2, 0x01, (0x1001 : W64)), (2, 0x0B, 0x2FFFC), (2, 0x00, 0x30000), (3, 0x00, 0x30000), (3, 0x01, 0x10)],
      readyB (ins p.1 p.2.1 plainF (at2 p.2.2) {}) i0 p.1 p.2.1 plainF c0 = true) ∧
    (onTile { thr := [(0, { pc := 0x20004, st := .runnable })] }).canIssue i0 = some c0 ∧
    (onTile { thr := [(0, { pc := 0x30000, st := .runnable })] }).canIssue i0 = some c0 ∧
    legalWord 0xB000_0000_0000_0000 (fun _ => true) = false ∧ legalWord (encodeWord 0 0 (f0 1 2 3 2 0)) (fun _ => true) = false ∧
    legalWord (encodeWord 1 0 (f0 1 2 3 1 0)) (fun _ => true) = false ∧ legalWord (encodeWord 3 2 (f0 16 2 3 0 0)) (fun _ => true) = false ∧
    legalWord (encodeWord 0 1 plainF) (fun _ => true) = true ∧ encodeWord 0 1 plainF ≠ encodeWord 0 0 plainF := by decide +kernel

/-- An access that meets a job's region, one that meets a slot, one to a bank group without power, as a fetch
too; a fetch refused by its bank. -/
def onC (y : Cluster) (s : State) : State := { s with clusters := [(0, { y with clk := .running })] }
def slotAt (x : SlotSt) : Tile := { handles := [(0, { hnd false [x] with base := 0x10000 })] }
theorem witness_barred :
    readyB (onC { g1 := { st := .off } } (ins 2 0x03 plainF (at2 0x10000) {})) i0 2 0x03 plainF c0 = true ∧
    (Issued (onC { g1 := { st := .off } } (ins 2 0x03 plainF (at2 0x10000) {})) i0).checkAccess 0 4 0x10000 8 false none = some .off ∧
    (Issued (onC { g1 := { st := .off } } (ins 2 0x03 plainF (at2 0x10000) {})) i0).checkAccess 0 4 0x10000 8 true none = some .off ∧
    (Issued (ins 2 0x03 plainF (at2 0x10000) (slotAt .filling)) i0).checkAccess 0 4 0x10000 8 false none = some (.slot 0 0 .filling) ∧
    (Issued (ins 2 0x0B plainF (at2 0x10000) (slotAt .full)) i0).checkAccess 0 4 0x10000 8 true none = some (.slot 0 0 .full) ∧
    (onC { g2 := { st := .off } } (ins 0 0 plainF {} {})).checkAccess 0 0 0x20000 8 false none = some .off ∧
    (ins 0 0 plainF {} { grants := [(0, prioExchange, narrowMask 0x20000)] }).bankFree 0 0 prioFetch (narrowMask 0x20000) = false := by decide +kernel

/-- The last unit of a stream with its check unit, whose sum agrees, whose sum differs, and that does not
check; a store of two bytes. -/
theorem witness_places :
    let y : Handle := { hnd false [.filling, .empty] with active := true, blk := 1, inner := 32, chk := some 63 }
    let s := fun (k : Chk) => (onTile { handles := [(0, y)] }).setChk 0 63 k
    ((s {}).streamEnd 0 8 = some 63 ∧ (s {}).chkOf 0 8 = some 63) ∧ ((s { ctl := 3, acc := 5 }).chk 0 63).acc ≠ ((s { ctl := 3, acc := 5 }).chk 0 63).exp ∧
    ((s { ctl := 3, acc := 5 }).chk 0 63).ctl.toNat / 2 % 2 = 1 ∧ ((s {}).chk 0 63).ctl.toNat / 2 % 2 = 0 ∧ (onTile {}).streamEnd 0 0 = none ∧
    ((onTile { handles := [(0, y)] }).tile 0).handle 0 = some y ∧ [2, 3].Nodup ∧ Memory.wf ((s {}).tile 0).sram = true ∧ Memory.wf (s {}).hbm = true ∧
    ((onTile (oneReq .run)).tile 0).queue 0 ≠ {} := by decide +kernel

/-- A format's largest value and beyond it, a subnormal of E4M3, a magnitude halfway between two; NaN,
infinities and zeros of both signs. -/
theorem witness_values : (0 < 7 ∧ 6 < 7 ∧ 2 ^ 4 - 1 < 2 ^ fmtWidth 6) ∧ (∀ c ∈ [0, 1, 2, 3, 4, 5, 6], (fDecode c 1).finite = true) ∧
    (fDecode 3 0x7F = .nan ∧ fDecode 4 0xFC = .inf true) ∧ (fConvert 3 none (.fin false 1 9)).2 = true ∧ (fConvert 3 none (.fin false 7 6)).2 = false ∧
    (roundMag none 3 (-9) 1 (-9)).1 < 2 ^ 3 ∧ 0 < 3 ∧ roundMag none 1 0 5 0 = (2, 1) ∧ roundMag none 1 0 7 0 = (4, 1) ∧
    (FVal.fin true 0 0).finite = true ∧ (FVal.fin true 0 0).isZero = true := by decide +kernel

/-- Handles in order with no recent change. -/
theorem witness_turns_of_slots : let x : Tile := { handles := [(0, hnd false [.full]), (15, hnd true [.empty])] }
    x.slotOld = [] ∧ x.handles.Pairwise (fun p q => p.1 < q.1) ∧ (x.slotHit 0 0 32 true none).isSome = true ∧
    ((x.turnHandle 5 0 none).slotHit 5 0 32 true none).isSome = true ∧ ((x.turnHandle 5 0 none).slotHit 6 0 32 true none) = none := by decide +kernel

/-- Two threads that wait in RECV, of which the one that issued first takes the older of two messages. -/
theorem witness_paired :
    let recv := fun (o : Nat) => Wait.recv plainF 0x1000 0 0 1000 o
    let m := fun (t : BitVec 16) => ({ tag := t, data := List.replicate 64 1, tid := 0, thr := 0, whole := true } : Held)
    let s := onTile { thr := [(1, { st := .blocked, wait := recv 5 }), (2, { st := .blocked, wait := recv 4 })], store := [{ m 1 with whole := false }, m 2, m 3] }
    let takers := (List.range 6).filterMap (s.tile 0).recvOf
    takers = [(5, 1), (4, 2)] ∧ firstRecv takers = some 2 ∧ s.ctxOfTile 0 = some c0 ∧ (s.ctx c0).st = .running ∧ (s.thread 0 2).wait = recv 4 ∧
    (m 2).taker = none ∧ ({ m 1 with whole := false } : Held).whole = false ∧ (List.range 6).filterMap ((onTile {}).tile 0).recvOf = [] := by decide +kernel

/-- A context late in each way: Elastic, Strict with MISS_ACT 0 and with MISS_ACT 1, with a record held and
without. -/
def lateS (strict act : Bool) (info : W32) : State :=
  let s := { xchS {} [] with ctxs := [(0, { st := .running, clusters := 1, strict := strict, run := { phase := .exchange, tbcV := true, tbc := 600, arrAt := some 500, islocal := true, late := 1, slotOver := 1 } })] }
  s.setDie 0 { s.die 0 with budget := [(0, 100)], ss := [(0, { missAct := act, missInfo := info })] }
theorem witness_lateness :
    ((lateS true true 0).exchanging c0 = true ∧ (lateS true true 0).phaseDone c0 = true ∧ ((lateS true true 0).ctx c0).st = .running) ∧
    ((lateS true true 0).missCauses c0 0 = 13 ∧ (lateS false false 0).missCauses c0 0 = 13 ∧ (lateS true false 0).missCauses c0 0 = 13) ∧
    ((lateS true true 0).ss 0 0).missAct = true ∧ ((lateS true false 0).ss 0 0).missAct = false ∧
    ((lateS true true 0x8000_0001).ss 0 0).missInfo.getLsbD 31 = true ∧ ((lateS true true 0).ss 0 0).missInfo.getLsbD 31 = false := by decide +kernel

/-- ZOUT's unit when it is due and before it is; a job without ZOUT. -/
theorem witness_zout :
    let w := (jobW bf).set 6 (2 ^ 36 + 0x8000)
    let j : Job := { theJob with words := w, started := 1 }
    let s := fun (cyc : Nat) => engS [j] cyc {}
    jobZoutEn w = true ∧ jobZoutEn (jobW bf) = false ∧ ((s 0).engine 0 2).zrowTile 0 = some (j, 0) ∧ ((s 0).engine 0 2).zrowTile 1 = none ∧
    (s 288).cloverCtx 0 = some c0 ∧ sget 0 j.zrows (256 * 0 + 0) = 0 ∧ 16 * ((j.sAt 0 + jobKc w + 255 + 0 + (16 * 0 + 1 - 1)) / 16 + 1) ≤ 288 ∧
    ¬(16 * ((j.sAt 0 + jobKc w + 255 + 0 + (16 * 0 + 1 - 1)) / 16 + 1) ≤ 287) ∧ ((s 288).bank 0 (groupOf (jobZoutBase w))).serves = true ∧
    Memory.wf ((s 288).tile 0).sram = true := by decide +kernel

/-- An engine of each class and none; a context that is live and one that is not; a window of a context. -/
theorem witness_reset_starts :
    (engValid 0x1FFF = true ∧ engValid 0x381E = true ∧ engValid 0x5800 = true ∧ engValid 0x7803 = true ∧ engValid 0x9804 = true) ∧
    engValid 0x2003 = false ∧ engValid 0xA000 = false ∧
    ((onTile {}).ctxOfTile 0 = some c0 ∧ ((onTile {}).ctx c0).st = .running ∧ ((onTile {}).ctx c0).td = none ∧ ((onTile {}).ctx ⟨0, 7⟩).st = .free) ∧
    (let s := (onTile {}).setWin 255 { open_ := true, lcxh := (onTile {}).cxh c0 }
     (s.win 255).open_ = true ∧ (s.win 255).lcxh = s.cxh c0 ∧ 255 < 256) := by decide +kernel
/-- A context in removal; a forced L1 of a tile with its context and without. -/
theorem witness_forced : ((ctxS { inState .tearing with td := some ⟨.teardown, none, none, false, 0⟩ }).ctx c0).st = .tearing ∧
    ((onTile {}).recordForced 0 1 0).ctxOfTile 0 = some c0 ∧ (State.reset.recordForced 0 1 0).ctxOfTile 0 = none ∧ r0.ok = true :=
  ⟨rfl, by decide +kernel, by decide +kernel, rfl⟩

/-- Registers at the ends of their blocks, an enabled and a disabled cluster, a held record, and a write that
clears it and one that does not. -/
theorem witness_register_blocks :
    (3 < 4 ∧ 15 < 16 ∧ 1023 < 1024 ∧ 7 < 8 ∧ 511 < 512 ∧ 2047 < 2048 ∧ 31 < 32 ∧ 255 < 256 ∧ 63 < 64 ∧ 4095 < 4096) ∧ State.reset.enabled 31 = true ∧
    ({ State.reset with fuses := { State.reset.fuses with dis := 1 } } : State).enabled 0 = false ∧
    ((State.reset.setDie 0 { State.reset.die 0 with xerr0 := 0x8000_0000_0000_0000 }).die 0).xerr0.getLsbD 63 = true ∧
    ((0x8000_0000_0000_0000 : W64).getLsbD 63 && (0x8000_0000_0000_0000 : W64).getLsbD 63) = true ∧ 3 = servingDie .p4 (partOfDie .p4 3) ∧
    ¬(State.reset.ctx ⟨partOfDie State.reset.layout 3, 7⟩).st = .running := by decide +kernel

/-- A tile output that another unit uses in the cycle of arrival; the same router's output to another tile. -/
theorem witness_collision :
    let f := fl (.tile 0) false 4
    let l : LaneUse := { ctx := c0, cycle := 6, chan := 16384, lane := 0, unit := 1, src := 2 }
    let s : State := { xchS {} [] with flights := [f], lanes := [l] }
    s.flights.find? (fun f => f.id = 0) = some f ∧ s.lanes.find? (fun l => l.cycle = 6 && l.chan = 16384 + 0 && l.lane = 0) = some l ∧
    s.lanes.find? (fun l => l.cycle = 6 && l.chan = 16384 + 1 && l.lane = 0) = none ∧ s.plat.pf = true ∧ s.fencedDest f outTile = false ∧
    (s.die 0).xerr0.getLsbD 63 = false := by decide +kernel

/-! ### Single steps and values against the worked examples and rules of spec/ -/

/-- The state after a command, looked at. -/
def after (i : Instr) (s : State) (f : State → Bool) : Bool :=
  match exec i s with
  | .next t => f t
  | .fault _ => false
  | .refused _ => false

/-- A scalar instruction on s2 and s3: what s1 holds after it. -/
def sreg (op : Nat) (i : Instr) (a b v : W64) : Bool :=
  after i (ins 0 op plainF { s := [(2, a), (3, b)] } {}) (fun t => (t.thread 0 0).sr 1 = v && (t.thread 0 0).pc = 0x20008)

/-- R89: sums wrap, shifts take B mod 64, SRA keeps the sign, comparisons are signed or not, high products. -/
theorem test_scalar :
    sreg 0x00 (.add i0 plainF) 0xFFFF_FFFF_FFFF_FFFF 2 1 = true ∧ sreg 0x01 (.sub i0 plainF) 0 1 0xFFFF_FFFF_FFFF_FFFF = true ∧
    sreg 0x05 (.shl i0 plainF) 1 65 2 = true ∧ sreg 0x07 (.sra i0 plainF) 0x8000_0000_0000_0000 63 0xFFFF_FFFF_FFFF_FFFF = true ∧
    sreg 0x06 (.shr i0 plainF) 0x8000_0000_0000_0000 63 1 = true := by decide +kernel
theorem test_products :
    sreg 0x09 (.mulhu i0 plainF) 0xFFFF_FFFF_FFFF_FFFF 2 1 = true ∧ sreg 0x0A (.mulhs i0 plainF) 0xFFFF_FFFF_FFFF_FFFF 2 0xFFFF_FFFF_FFFF_FFFF = true ∧
    sreg 0x0F (.slt i0 plainF) 0xFFFF_FFFF_FFFF_FFFF 0 1 = true ∧ sreg 0x10 (.sltu i0 plainF) 0xFFFF_FFFF_FFFF_FFFF 0 0 = true := by decide +kernel

/-- R87: the worked word of ADD s5, s6, 100, and its class, opcode and fields. -/
theorem test_add_word : encodeWord 0 0 (f0 5 6 0 1 0x64) = 0x000A_6001_0000_0064 ∧ clsOf 0x000A_6001_0000_0064 = 0 ∧ opOf 0x000A_6001_0000_0064 = 0 ∧
    fieldsOf 0x000A_6001_0000_0064 = f0 5 6 0 1 0x64 := by decide +kernel

/-- R24, R27: TID 0x1368 lies in cluster 0x13. R41: handles 0x68FF and 0x6800. -/
theorem test_numbers : cidOfTile 0x1368 = 0x13 ∧
    ({ State.reset with ctxs := [(13, { epoch := 0xFF })] } : State).cxh ⟨1, 5⟩ = 0x68FF ∧ State.reset.cxh ⟨1, 5⟩ = 0x6800 := by decide +kernel

/-- R17, R91: loads are little-endian; LD8 fills with zeros, LDS8 with the sign; a store writes the low bytes. -/
def loads (op : Nat) (i : Instr) (v : W64) : Bool :=
  after i (ins 2 op plainF (at2 0x100) { sram := [(0x100, 0x80), (0x101, 1), (0x107, 2)] }) (fun t => (t.thread 0 0).sr 1 = v)
theorem test_loads : loads 0x00 (.ld8 i0 plainF) 0x80 = true ∧ loads 0x04 (.lds8 i0 plainF) 0xFFFF_FFFF_FFFF_FF80 = true ∧
    loads 0x03 (.ld64 i0 plainF) 0x0200_0000_0000_0180 = true := by decide +kernel

/-- R53 to R56: x_start of the worked superstep, on time and late; 256 ns after T_bc where the context is
module-local. -/
theorem test_xstart : xStartOf 5000002801 false = 5000004864 ∧ xStartOf 5000003010 false = 5000005120 ∧ xStartOf 0 true = 256 := by decide +kernel

/-- R118, R122: K = 256 in BF16 over four output tiles: Kc = P = 256, the last wavefront at s_0 + 1,534, the
release at s_0 + 1,790. -/
def jobEx (k nb mb : Nat) (masks : Nat) : List W64 :=
  [BitVec.ofNat 64 bf, BitVec.ofNat 64 ((mb - 1) + 16 * (nb - 1) + 2 ^ 8 * masks + 2 ^ 24 * (k - 1)), 0, 0, 0, 0, 0, 0]
theorem test_release : (let j : Job := { words := jobEx 256 2 2 0xFFFF, seq := 0, order := 0, s0 := 100 }
    jobKc j.words = 256 ∧ jobP j.words = 256 ∧ jobTiles j.words = 4 ∧ j.wLast = 100 + 1534 ∧ (jobTiles j.words - 1) * 256 + 256 + 766 = 1790) := by decide +kernel
/-- R129: word 1 of the 512 × 1,000 product: M, N, K, blocks and Kc. -/
theorem test_job_word : (jobEx 2048 4 2 0xE7FF).getD 1 0 = 0x0000_0007_FFE7_FF31 ∧ (let w := jobEx 2048 4 2 0xE7FF
    jobM w = 512 ∧ jobN w = 1000 ∧ jobK w = 2048 ∧ jobTiles w = 8 ∧ jobKc w = 2048) := by decide +kernel

/-- R153: stochastic rounding to BF16 rounds up from 0xF400_0000. R150, R151: saturation and ties of E4M3. -/
theorem test_rounding : (fConvert 1 (some 0xF5A2_1B03) (f32 0x3F80_0C00)).1 = 0x3F81 ∧ (fConvert 1 (some 0xF400_0000) (f32 0x3F80_0C00)).1 = 0x3F81 ∧
    (fConvert 1 (some 0xF3FF_FFFF) (f32 0x3F80_0C00)).1 = 0x3F80 ∧ fConvert 3 none (.fin false 600 0) = (0x7E, true) ∧
    fDecode 3 (fConvert 3 none (.fin false 200 0)).1 = fDecode 3 (fConvert 3 none (.fin false 192 0)).1 := by decide +kernel

/-- R163: the six steps of the worked scale entry, CLEAN_THR 3 and LOW_SHIFT 1, end at 0x0000_0101. -/
def scaleEx (x : W32) (sat : Bool) (m : Nat) : W32 := scaleNext x 0x1_0003 3 { sat := sat, m := m }
theorem test_scale : scaleEx 0 true 600 = 1 ∧ scaleEx 1 true 500 = 2 ∧ scaleEx 2 false 200 = 0x102 ∧ scaleEx 0x102 false 100 = 0x202 ∧
    scaleEx 0x202 false 105 = 1 ∧ scaleEx 1 false 215 = 0x101 ∧ scaleEx 0x101 false 224 = 1 := by decide +kernel

/-- R169: two steps of SGD with momentum: w = 0x3F7F_E000 with m = 0.5, then 0x3F7F_B000 with m = 0.75. -/
theorem test_sgd : (let u : UpdRec := { readUpd [] with lr := 0x3A80_0000, wd := 0, b1 := 0x3F00_0000, gs := 0x3F80_0000 }
    (updElem u true 0x3F80_0000 0x3F00_0000 0 0).1 = 0x3F7F_E000 ∧ (updElem u true 0x3F80_0000 0x3F00_0000 0 0).2.1 = 0x3F00_0000 ∧
    (updElem u true 0x3F7F_E000 0x3F00_0000 0x3F00_0000 0).1 = 0x3F7F_B000 ∧ (updElem u true 0x3F7F_E000 0x3F00_0000 0x3F00_0000 0).2.1 = 0x3F40_0000) := by
  decide +kernel

/-- R173: STREAK reaches ZTHR = 1,000 at step 0x0000_0257. -/
theorem test_streak : (let k : Watch := { cfg := 0x03E8_0000, step := 0x257, stat := 0x1_03E7 }
    k.close.2 = true ∧ bits k.close.1.stat.toNat 15 0 = 1000 ∧ k.close.1.step = 0x258 ∧ ({ k with stat := 0x1_03E6 } : Watch).close.2 = false) := by decide +kernel

/-- R178, R180: VA 0x12_0020_3A40 under the leaf 0x0000_2805_0000_000D lies in stack S8 at 0x1_0000_0A40. -/
theorem test_translation : leafPa 0x0000_2805_0000_000D false 0x12_0020_3A40 = 0x2805_0000_3A40 ∧ pteValid 0x0000_2805_0000_000D 2 = true ∧
    paStack .p1 0 0x2805_0000_3A40 = some (8, 0x1_0000_0A40) ∧ bits 0x12_0020_3A40 47 30 = 0x48 ∧ bits 0x12_0020_3A40 29 21 = 1 := by decide +kernel

/-- R206: a check unit folds the single byte 0x01; the published check value of CRC-64 on the digits 1 to 9. -/
theorem test_crc : crc64 0 [1] = 0x42F0_E1EB_A9EA_3693 ∧ crc64 0 [0x31, 0x32, 0x33, 0x34, 0x35, 0x36, 0x37, 0x38, 0x39] = 0x6C40_DF5F_0B49_7347 := by decide +kernel

/-- R223 to R226: the example of 07_messages_and_synchronisation.md: in cycle 101 P is released and Q claims
while S waits on; a set that comes with the claim leaves the flag at 1 and counts one misuse, and S claims in
the next cycle. -/
def flagEx (l : List FlagReq) : State :=
  let s := onTile { thr := [(0, { st := .blocked, wait := .flag (.glob 1 17) false 1000 }), (1, { st := .blocked, wait := .flag (.glob 1 17) true 1000 }),
    (2, { st := .blocked, wait := .flag (.glob 1 17) true 1000 })] }
  ({ (s.setFlag (.glob 1 17) true).setFlagAt (.glob 1 17) 101 with
     freqs := l
     ht := { s.ht with now := 103 } } : State)
def waitEx (k : FlagKind) (thr n : Nat) : FlagReq := ⟨.glob 1 17, k, .thread, 0, thr, State.reset.cxh c0, true, n, none, 0⟩
theorem test_flags :
    after (.flagEvaluation (.glob 1 17)) (flagEx [waitEx .wait 0 90, waitEx .claim 1 92, waitEx .claim 2 95]) (fun t =>
      !t.flag (.glob 1 17) && (t.thread 0 0).st = .runnable && (t.thread 0 1).st = .runnable && t.freqs = [waitEx .claim 2 95] && (t.die 1).flg.misuse = 0) = true ∧
    after (.flagEvaluation (.glob 1 17)) (flagEx [waitEx .claim 1 92, waitEx .claim 2 95, waitEx .set 3 101]) (fun t =>
      t.flag (.glob 1 17) && t.freqs = [waitEx .claim 2 95] && (t.die 1).flg.misuse != 0 &&
      after (.flagEvaluation (.glob 1 17)) t (fun u => !u.flag (.glob 1 17) && u.freqs = [] && (u.thread 0 2).st = .runnable)) = true := by decide +kernel

/-- R244, R245: the routers of the worked route, and its first outputs by XY and by YX. -/
theorem test_route : routerOf 0x014A = (2, 5) ∧ routerOf 0x1D03 = (26, 33) ∧ outOf (2, 5) (26, 33) false outTile = outEast ∧
    outOf (2, 33) (26, 33) false outTile = outSouth ∧ outOf (2, 5) (26, 33) true outTile = outSouth ∧ (33 - 5) + (26 - 2) + 1 = 53 := by decide +kernel

/-- R254: 2,622,112 bytes are 10,243 frames and 13,931 ns. -/
theorem test_frames : frames 2622112 = 10243 ∧ dataTime 2622112 = 13931 ∧ dataTime (16384 * 256) = 22283 := by decide +kernel

/-- R340: claims of the worked example: 0x8000_0682, 0x8000_0483, 0x8000_0682, 0x8000_12C4. -/
theorem test_claims : (let en : BitVec 512 := BitVec.allOnes 512
    let e := fun (l : List Nat) (st : List Nat) => ({ pend := l.foldl (fun p n => putBit p n true) 0, en := en, stack := st } : Evc)
    (e [0x82, 0xC4] []).claimWord = 0x8000_0682 ∧ (e [0x82, 0xC4, 0x83] [3]).claimWord = 0x8000_0483 ∧ (e [0x82, 0xC4] [2, 3]).claimWord = 0 ∧
    (e [0x82, 0xC4] [3]).claimWord = 0 ∧ (e [0x82, 0xC4] []).claimWord = 0x8000_0682 ∧ (e [0xC4] []).claimWord = 0x8000_12C4) := by decide +kernel

/-- R321: the status word of the third reply of the worked example. -/
theorem test_status : (let s := (hosted State.reset).setFn 0 { (hosted State.reset).fn 0 with attn := 3, rings := [(0, { ring0 with seq := 0x412 })] }
    mread ((s.take r0 (cw 0x41 0 0 0 0)).replyCode r0 codeOk).hostMem 0 4 = toLE 4 0x0412_0300) := by decide +kernel

/-- A step takes the front command and leaves the rest waiting; an idle step of the module at reset. -/
theorem test_queue : step { State.reset with pending := [.perstRise, .pfRise] } = .next { State.reset with pending := [.pfRise] } ∧
    step { State.reset with pending := [.tileArrival 8192] } = .fault .noSuchUnit := ⟨rfl, rfl⟩

/-! ### Where clauses meet: what stands, sleeps, comes first or is stale -/

/-- A tile that arrives with PF# low and in STANDBY; misses on dies of the partition; tables of tiles in
order; a first read that gives the arrival. -/
theorem witness_conditions :
    (State.reset.plat.pf = true ∧ State.reset.plat.pstate ≠ .standby ∧ evLatch evHtUnlock ≠ none ∧ evLatch evIllegalInstr = none ∧ evListed evIllegalInstr = true) ∧ (∀ d ∈ ((onTile {}).ctx c0).dies, d ∈ diesOf (onTile {}).layout c0.part) ∧
    ([(0, {}), (1, {})] : List (Nat × Tile)).Pairwise (fun p q => p.1 < q.1) ∧
    (let s := fun (x : Tile) => withRun { phase := .barrier } { x with arrived := true, xch := { next := some 0x2FFE0 } }
     ((s {}).cluster 0).tileCyc = 6 ∧ (s {}).bankTaken 0 6 prioExchange (wideMask 0x2FFE0) = false ∧
     (s { grants := [(6, 0, wideMask 0x2FFE0)] }).bankTaken 0 6 prioExchange (wideMask 0x2FFE0) = false ∧
     (s { grants := [(6, prioExchange + 1, wideMask 0x2FFE0)] }).bankTaken 0 6 prioExchange (wideMask 0x2FFE0) = true) := by decide +kernel

/-- The DMA port's turn in a compute phase and in an exchange phase, before and after the tile's list is read;
its place before the core's requests and after one. -/
theorem witness_dma_turn :
    let s := fun (p : Phase) (x : Tile) => withRun { phase := p } x
    let listed : Tile := { xch := { next := some 0, read := false, readAt := some 3 } }
    (s .compute {}).dmaTurn c0 0 6 = true ∧ (s .compute {}).dmaTurn c0 0 7 = false ∧ (s .exchange {}).dmaTurn c0 0 5 = true ∧ (s .exchange {}).dmaTurn c0 0 6 = false ∧
    (s .compute listed).dmaTurn c0 0 3 = true ∧ (s .compute listed).dmaTurn c0 0 4 = false ∧
    (s .compute {}).bankTaken 0 0 prioDma (wideMask 0) = false ∧ (s .compute { grants := [(0, prioNarrow, wideMask 0)] }).bankTaken 0 0 prioDma (wideMask 0) = true ∧
    ((s .compute { grants := [(0, prioExchange, wideMask 0)] }).bankFree 0 0 prioDma (wideMask 0) = false ∧ ({} : Tile).issueAt ≤ 0 - 3 ∧ ¬({ issueAt := 7 } : Tile).issueAt ≤ 6 - 3) ∧
    (∀ a ∈ [(0x2FFE0 : Nat), 0], ({ dmaHeld := some (0, 0, a) } : Tile).dmaHeld = some (0, 0, a)) := by decide +kernel

/-- A unit from the last stack and to the first, of a transfer issued at 9; stacks at the ends of the numbers. -/
theorem witness_unit_moved :
    let x : Unit32 := { a := 0, vas := [0], toSram := true, own := none, table := [] }
    let t := (onTile {}).unitMoved c0 0 x [19 * 2 ^ 37 + 79999999999] 9
    (0 < 8192 ∧ 19 * 2 ^ 37 + 79999999999 < 20 * 2 ^ 37) ∧ (t.die 0).str.fly = [⟨(onTile {}).cxh c0, 9⟩] ∧ (t.die 3).str.hbmq = [⟨(onTile {}).cxh c0, 19, false⟩] ∧
    (((onTile {}).unitMoved c0 0 { x with toSram := false } [0] 9).die 0).str.hbmq = [⟨(onTile {}).cxh c0, 0, true⟩] ∧
    (((onTile {}).unitMoved c0 0 { x with toSram := false } [0] 9).die 0).str.fly = [] := by decide +kernel

/-- A mode that stays and one that changes, at a boundary, with cycles in progress. -/
theorem witness_mode_phases :
    let x : Cluster := { clk := .running, cyc := 16, cloverPh := 3, tilePh := 9, toMode := some true }
    (x.cyc % 16 = 0 ∧ true ≠ x.envelope ∧ false = x.envelope) ∧ (x.turn.cloverPh = 0 ∧ x.turn.tilePh = 0) ∧
    ({ x with toMode := some false } : Cluster).turn.cloverPh = 3 := by decide +kernel

/-- A RECV past its time in its tile's cycle of expiry, and in the next; a flag of a cluster that stands, with
a host's set and without, in its first flag cycle and after. -/
theorem witness_expiry :
    let s := fun (ph : Nat) => ({ onTile {} with clusters := [(0, { clk := .running, tileCyc := 6, tilePh := ph })], ht := { State.reset.ht with now := 100 } } : State)
    (s 0).tileCycAt 0 100 < ((s 0).cluster 0).tileCyc ∧ ¬(s 1).tileCycAt 0 100 < ((s 1).cluster 0).tileCyc ∧
    (let q : FlagReq := { g := .tile 0 63, kind := .set, src := .host, tid := 0, thr := 0, cxh := (onTile {}).cxh c0, arrived := true, order := 0 }
     let u := fun (k : FlagKind) (at_ : Nat) => ({ (onTile {}).setFlagAt (.tile 0 63) at_ with clusters := [(0, {})], freqs := [{ q with kind := k }] } : State)
     (∃ p ∈ (u .set 0).freqs, p.g = .tile 0 63 ∧ p.arrived = true ∧ p.src = .host ∧ (p.kind = .set ∨ p.kind = .clear)) ∧ ((u .set 0).cluster 0).clk ≠ .running ∧
     (u .set 0).dueCycle (.tile 0 63) = some 0 ∧ (u .set 1).dueCycle (.tile 0 63) = some 1 ∧ (u .set 0).flagCycle (.tile 0 63) = 0 ∧
     (u .set 0).flagAt (.tile 0 63) = 0 ∧ (u .set 1).flagAt (.tile 0 63) = 1 ∧ (u .wait 0).dueCycle (.tile 0 63) = none ∧
     ((u .set 1).evalFlag (.tile 0 63)).flag (.tile 0 63) = true ∧ ((u .set 1).evalFlag (.tile 0 63)).freqs = []) := by decide +kernel

/-- A prefetch, an arrival and the aperture with PF# low and in STANDBY; a frame of a stale epoch, into a
window and into a channel; a unit for a port of no context and of another. -/
theorem witness_stale :
    let s := slotS (slotRam 2 0 0 0) (rx0 .active []) upPort 0
    let t := s.touch.nakGap 3 0
    bits (Frame.cxh (frame0 0 8 0 0)).toNat 7 0 = (t.ctx c0).epoch.toNat ∧
    bits (Frame.cxh (mkFrame 0 8 9 0 (State.reset.cxh c0 + 1) (List.replicate 8 5) 0)).toNat 7 0 ≠ (t.ctx c0).epoch.toNat ∧
    ((t.port 3).xch.ent 0).dst = false ∧ (((slotS (slotRam 2 0 1 0) (rx0 .active []) upPort 0).port 3).xch.ent 0).dst = true ∧
    ({ State.reset with plat := { State.reset.plat with pf := false } } : State).plat.pf = false ∧ State.reset.hostUp = true ∧
    0 + HostAccess.size (.read 8) ≤ 2 ^ 36 ∧ (State.reset.port 0).xch.owner = none ∧ (∃ o, (s.port 3).xch.owner = some o ∧ o ≠ ⟨0, 1⟩) := by decide +kernel

/-- A port with eight lanes and with four that comes up after it told a dead slot. -/
theorem witness_dead_told :
    let s := fun (four : Bool) => linkS { upPort with link := { st := .align, lanes4 := four }, xch := { deadTold := [0] } } 0
    (((s false).portUp 15).port 15).xch.deadTold = [] ∧ (((s true).portUp 15).port 15).xch.deadTold = [0] := by decide +kernel

/-- A RELOCATE whose records leave a list inside the partition, and one that has written a port of the pair. -/
theorem witness_relocated_lists :
    let h : Hdr := { hdr0 with entries := [⟨0, 0, true, 1, 0x2FF00⟩] }
    let r : RelRec := { addr := 0x2FF00, kind := 1, all := true, addend := 0, base := 0, objwin := 0, tid := 0, die := 0, shift := 0, width := 0 }
    let s := fun (w : Nat) => ({ ctxS { inState .loaded with hdr := some h, relocs := [r] } with
      tiles := [(0, { sram := mwrite [] 0x2FF00 (toLE 8 w) })], pair := { on := true } } : State)
    (s (3 + 13 * 2 ^ 19)).relListsOk c0 = true ∧ (s (3 + 14 * 2 ^ 19)).relListsOk c0 = false := by decide +kernel

/-- A scatter descriptor of the context with an old count; a window closed and opened again. -/
theorem witness_begun :
    let s := (onTile {}).setDie 0 { (onTile {}).die 0 with str := { scat := [(63, { w := [(7, 0x5_0000_0009)] })] } }
    Scat.slot (sget {} (s.die 0).str.scat 63) = c0.slot ∧ 0 ∈ diesOf s.layout c0.part ∧
    Scat.word (sget {} ((s.startCtx c0 hdr0).die 0).str.scat 63) 7 = 9 ∧ ((State.reset.setWin 255 { rejects := 3 }).win 255).rejects = 3 := by decide +kernel

/-- A record of this nanosecond, and none; a held V, and a write that clears it and one that does not. -/
theorem witness_records :
    let s := State.reset.hwRec (bar0Bit 0 0xB0100 63) 7
    s.newRec (bar0Bit 0 0xB0100 63) = some 7 ∧ s.newRec 5 = none ∧ (8 * (2 ^ 24 * 0 + 2 ^ 16 * 0xB + 0x100) + 63 = bar0Bit 0 0xB0100 63) ∧
    (0x8000_0000_0000_0001 : Nat).testBit 63 = true ∧ (0 : Nat).testBit 63 = false ∧ ¬({ s with fresh := { s.fresh with time := 1 } } : State).fresh.time = s.ht.now.toNat := by
  decide +kernel

/-- Faults with V = 0, with V of an earlier cycle, and with V of this cycle: HANG against another cause, and a
lower slot against a higher. -/
theorem witness_fault_records :
    let c3 : CtxRef := ⟨0, 3⟩
    let c7 : CtxRef := ⟨0, 7⟩
    let s := fun (l : List (CtxRef × Nat)) => l.foldl (fun (s : State) e => s.faultDie e.1 e.2 511 0) State.reset
    let got := fun (s : State) => (bits (s.die 0).rst.fault.toNat 13 11, bits (s.die 0).rst.fault.toNat 27 25, bit (s.die 0).rst.fault.toNat 63)
    got State.reset = (0, 0, false) ∧ got (s [(c7, 1)]) = (7, 1, true) ∧ got (s [(c7, 1), (c3, 2)]) = (3, 2, true) ∧ got (s [(c3, 1), (c7, 2)]) = (3, 1, true) ∧
    got (s [(c3, 1), (c7, 3)]) = (7, 3, true) ∧ got (s [(c7, 3), (c3, 1)]) = (7, 3, true) ∧ got (s [(c7, 3), (c3, 3)]) = (3, 3, true) ∧
    (s [(c3, 1)]).newRec (bar0Bit 0 0xB0100 63) = none ∧ ((s [(c3, 1), (c7, 2)]).newRec (bar0Bit 0 0xB0100 63)).isSome = true ∧
    got ({ s [(c3, 1)] with ht := { State.reset.ht with now := 1 } }.faultDie c0 3 0 0) = (3, 1, true) ∧ bits (sget 0 ((s [(c7, 2)]).die 0).rst.ctxStat 7).toNat 11 3 = 0 ∧
    (∀ st ∈ [CtxSt.created, .running, .loaded, .halted, .done], st ≠ .free ∧ st ≠ .tearing ∧ st ≠ .faulted) := by decide +kernel

/-- Work of an engine of another die's DMA group; a write and a read that hold a removal, and none; the stacks
at the ends. -/
theorem witness_hbm_queue :
    let h := (onTile {}).cxh c0
    let s := fun (q : List HbmReq) => (onTile {}).setDie 3 { (onTile {}).die 3 with str := { hbmq := q } }
    (s [⟨h, 19, true⟩]).engWork (engId 4 3 4) = [c0] ∧ (s [⟨h, 19, true⟩]).engWork (engId 4 3 0) = [] ∧ (s [⟨h + 1, 19, true⟩]).engWork (engId 4 3 4) = [] ∧
    engId 4 3 4 ∈ (s [⟨h, 19, true⟩]).heldDma h ∧ (s [⟨h, 19, false⟩]).heldDma h = [] ∧
    (let t := (onTile {}).setDie 0 { (onTile {}).die 0 with str := { fly := [⟨h, 7⟩] } }
     t.oldestDma c0 0 = some 7 ∧ t.engWork (engId 2 0 0) = [c0] ∧ engId 2 0 0 ∈ t.heldDma h) ∧
    (((s [⟨h, 19, true⟩, ⟨h, 15, true⟩]).resetEngine (engId 4 3 4)).die 3).str.hbmq = [⟨h, 15, true⟩] := by decide +kernel

/-- Images that are new, that did not run last, and neither; locks set and not; what a Function Level Reset in
STANDBY leaves; a trip at the wake. -/
theorem witness_boot :
    let off := fun (p : Plat) => ({ State.reset with plat := { p with powered := false } } : State)
    let lit := fun (p : Plat) => after .powerUp (off p) (fun t => (t.fn 0).attn.getLsbD 6)
    lit {} = false ∧ lit { fwB := true } = true ∧ lit { recovery := true } = true ∧ lit { fwImgA := { ({} : Plat).fwImgA with fresh := true } } = true ∧
    ({ lock := 1 } : Plat).lock ≠ 0 ∧ ({} : Plat).lock = 0 ∧ ({ trip := true } : Plat).trip = true ∧
    (let s : State := { ctxS (inState .loaded) with plat := { State.reset.plat with pstate := .standby } }
     s.hostUp = true ∧ after (.functionLevelReset 0) s (fun t => (t.ctx c0).st = .loaded && (t.ctx c0).flr && t.hbm = s.hbm) = true) := by decide +kernel

/-- Vectors in order: one that sends, a masked one and one with nothing to tell; a port that is UP and ports
that are not, with no symbol that waits. -/
theorem witness_flush :
    let s := State.reset.setFn 3 { State.reset.fn 3 with vecs := [(1, { n := 2, masked := false }), (2, { n := 2 }), (511, { masked := false })] }
    (∀ g, g < 4 → (s.fn g).vecs.Pairwise (fun p q => p.1 < q.1)) ∧ 0 < ((s.fn 3).vec 1).n ∧ ((s.fn 3).vec 2).masked = true ∧ ((s.fn 3).vec 511).n = 0 ∧
    s.flush.outs = [.msix 3 1] ∧ ((s.flush.fn 3).vec 1).n = 0 ∧
    (let u : State := { State.reset with ports := [(3, upPort)], clusters := [(0, { clk := .running }), (1, { clk := .starting })] }
     (∀ p, p < 16 → (u.port p).tx.syms = []) ∧ u.plat.pf = true ∧ u.goingAway.outs = List.replicate 2 (.word 3 (symWord 0x20 u.hdid.toNat)) ∧
     (u.stopClocks.cluster 0).clk = .stopped ∧ (u.stopClocks.cluster 1).want = true) := by decide +kernel

end Sys2Proof.Tests
end

/-! ### Context handles (R41, R43) -/

namespace Sys2Proof.Machine

/-- A handle read as a number: its three fields do not overlap. -/
theorem cxhOf_toNat {c : CtxRef} (hc : c.ok = true) (e : BitVec 8) :
    (cxhOf c e).toNat = c.part * 0x4000 + c.slot * 0x800 + e.toNat := by
  simp only [CtxRef.ok, Bool.and_eq_true, decide_eq_true_eq] at hc
  have he := e.isLt
  rw [cxhOf, BitVec.toNat_ofNat, Nat.mod_eq_of_lt (by omega)]

theorem cxhOf_part {c : CtxRef} (hc : c.ok = true) (e : BitVec 8) :
    (cxhOf c e).extractLsb' 14 2 = BitVec.ofNat 2 c.part := by
  apply BitVec.eq_of_toNat_eq
  rw [BitVec.extractLsb'_toNat, cxhOf_toNat hc, BitVec.toNat_ofNat, Nat.shiftRight_eq_div_pow]
  simp only [CtxRef.ok, Bool.and_eq_true, decide_eq_true_eq] at hc
  have he := e.isLt
  omega

theorem cxhOf_slot {c : CtxRef} (hc : c.ok = true) (e : BitVec 8) :
    (cxhOf c e).extractLsb' 11 3 = BitVec.ofNat 3 c.slot := by
  apply BitVec.eq_of_toNat_eq
  rw [BitVec.extractLsb'_toNat, cxhOf_toNat hc, BitVec.toNat_ofNat, Nat.shiftRight_eq_div_pow]
  simp only [CtxRef.ok, Bool.and_eq_true, decide_eq_true_eq] at hc
  have he := e.isLt
  omega

theorem cxhOf_reserved {c : CtxRef} (hc : c.ok = true) (e : BitVec 8) : (cxhOf c e).extractLsb' 8 3 = 0 := by
  apply BitVec.eq_of_toNat_eq
  rw [BitVec.extractLsb'_toNat, cxhOf_toNat hc, Nat.shiftRight_eq_div_pow]
  have he := e.isLt
  simp only [BitVec.ofNat_eq_ofNat, BitVec.toNat_ofNat]
  omega

theorem cxhOf_epoch {c : CtxRef} (hc : c.ok = true) (e : BitVec 8) : (cxhOf c e).extractLsb' 0 8 = e := by
  apply BitVec.eq_of_toNat_eq
  rw [BitVec.extractLsb'_toNat, cxhOf_toNat hc, Nat.shiftRight_zero]
  have he := e.isLt
  omega

/-- A handle names its slot back. -/
theorem cxhSlot_cxhOf {c : CtxRef} (hc : c.ok = true) (e : BitVec 8) : cxhSlot (cxhOf c e) = c := by
  rw [cxhSlot, cxhOf_toNat hc]
  obtain ⟨p, n⟩ := c
  simp only [CtxRef.ok, Bool.and_eq_true, decide_eq_true_eq] at hc
  have he := e.isLt
  simp only [bits, CtxRef.mk.injEq]
  omega

/-- Sixteen bits with zeros in [10:8] are the handle of the slot that they name, with their low byte as epoch. -/
theorem cxhOf_cxhSlot {h : BitVec 16} {e : BitVec 8} (hz : bits h.toNat 10 8 = 0) (he : e.toNat = bits h.toNat 7 0) :
    cxhOf (cxhSlot h) e = h := by
  apply BitVec.eq_of_toNat_eq
  have hh := h.isLt
  simp only [cxhOf, cxhSlot, bits, BitVec.toNat_ofNat] at *
  omega

/-- What check 7 of R322 makes sure of when it accepts a handle. -/
theorem State.checkCxh_eq_some {s : State} {f : Nat} {h : BitVec 16} {c : CtxRef} (hs : s.checkCxh f h = some c) :
    c = cxhSlot h ∧ bits h.toNat 10 8 = 0 ∧ c.part < nParts s.layout ∧ c.part = f ∧ (s.ctx c).epoch.toNat = bits h.toNat 7 0 := by
  simp only [State.checkCxh, Option.ite_none_right_eq_some, Option.some.injEq, Bool.and_eq_true, decide_eq_true_eq] at hs
  obtain ⟨⟨⟨⟨⟨⟨hz, hlt⟩, hf⟩, -⟩, -⟩, hep⟩, rfl⟩ := hs
  exact ⟨rfl, hz, hlt, hf, hep⟩

end Sys2Proof.Machine

/-! ### Partitions and handles -/

namespace Sys2Proof.Claims

open Sys2Proof.Machine

/-- An accepted handle is the present handle of its slot, and its partition is one of the layout. -/
theorem acceptedHandle {s : State} {f : Nat} {h : BitVec 16} {c : CtxRef} (hs : s.checkCxh f h = some c) :
    h.extractLsb' 8 3 = 0 ∧ h = s.cxh c ∧ (s.layout = .p1 → c.part = 0) ∧ (s.layout = .p2 → c.part ≤ 1) := by
  obtain ⟨hslot, hz, hlt, -, hep⟩ := State.checkCxh_eq_some hs
  refine ⟨?_, ?_, fun hl => ?_, fun hl => ?_⟩
  · apply BitVec.eq_of_toNat_eq
    rw [BitVec.extractLsb'_toNat, Nat.shiftRight_eq_div_pow]
    exact hz
  · rw [State.cxh, hslot, cxhOf_cxhSlot hz (hslot ▸ hep)]
  · rw [hl, nParts] at hlt
    omega
  · rw [hl, nParts] at hlt
    omega

/-- Settles O55: the tables by evaluation, the fields of a handle by arithmetic, and accepted handles by what
check 7 of R322 asks. -/
theorem partitionsAndHandles : Obligations.PartitionsAndHandles := by
  refine ⟨by decide, fun s f h c hs => ?_, fun s c hc => ?_, fun s f h c => acceptedHandle⟩
  · obtain ⟨-, -, -, hf, -⟩ := State.checkCxh_eq_some hs
    exact hf
  · exact ⟨cxhOf_part hc _, cxhOf_slot hc _, cxhOf_reserved hc _, cxhOf_epoch hc _, cxhSlot_cxhOf hc _⟩

end Sys2Proof.Claims

/-! ### Commands that stay within `Keeps` -/

namespace Sys2Proof

/-- Commands whose effect is within `Keeps`: all but those that set the partitions, create a context, end a
reset, or take and give the power. -/
def Instr.keepsModule : Instr → Bool
  | .partCreate .. | .partDestroy .. | .ctxCreate .. | .resetComplete .. | .railLoss | .powerUp => false
  | _ => true

end Sys2Proof

namespace Sys2Proof.Machine

/-- Each command's own lemma, joined into one over all commands. -/
theorem exec_keeps {s : State} {c : Instr} (h : c.keepsModule = true) : ResKeeps s (exec c s) := by
  cases c with
  | add => exact execAdd_keeps
  | sub => exact execSub_keeps
  | and => exact execAnd_keeps
  | or => exact execOr_keeps
  | xor => exact execXor_keeps
  | shl => exact execShl_keeps
  | shr => exact execShr_keeps
  | sra => exact execSra_keeps
  | mul => exact execMul_keeps
  | mulhu => exact execMulhu_keeps
  | mulhs => exact execMulhs_keeps
  | min => exact execMin_keeps
  | max => exact execMax_keeps
  | minu => exact execMinu_keeps
  | maxu => exact execMaxu_keeps
  | slt => exact execSlt_keeps
  | sltu => exact execSltu_keeps
  | seq => exact execSeq_keeps
  | sel => exact execSel_keeps
  | clz => exact execClz_keeps
  | popc => exact execPopc_keeps
  | movi => exact execMovi_keeps
  | movhi => exact execMovhi_keeps
  | rdtid => exact execRdtid_keeps
  | rdthr => exact execRdthr_keeps
  | rdssn => exact execRdssn_keeps
  | rdht => exact execRdht_keeps
  | beq => exact execBeq_keeps
  | bne => exact execBne_keeps
  | blt => exact execBlt_keeps
  | bge => exact execBge_keeps
  | bltu => exact execBltu_keeps
  | bgeu => exact execBgeu_keeps
  | j => exact execJ_keeps
  | jal => exact execJal_keeps
  | jr => exact execJr_keeps
  | ld8 => exact execLd8_keeps
  | ld16 => exact execLd16_keeps
  | ld32 => exact execLd32_keeps
  | ld64 => exact execLd64_keeps
  | lds8 => exact execLds8_keeps
  | lds16 => exact execLds16_keeps
  | lds32 => exact execLds32_keeps
  | st8 => exact execSt8_keeps
  | st16 => exact execSt16_keeps
  | st32 => exact execSt32_keeps
  | st64 => exact execSt64_keeps
  | vld => exact execVld_keeps
  | vst => exact execVst_keeps
  | vfma => exact execVfma_keeps
  | vadd => exact execVadd_keeps
  | vsub => exact execVsub_keeps
  | vmul => exact execVmul_keeps
  | vmax => exact execVmax_keeps
  | vmin => exact execVmin_keeps
  | vbcast => exact execVbcast_keeps
  | vcvt => exact execVcvt_keeps
  | vreds => exact execVreds_keeps
  | vredm => exact execVredm_keeps
  | vext => exact execVext_keeps
  | qput => exact execQput_keeps
  | qget => exact execQget_keeps
  | qwait => exact execQwait_keeps
  | send => exact execSend_keeps
  | sendw => exact execSendw_keeps
  | recv => exact execRecv_keeps
  | poll => exact execPoll_keeps
  | fset => exact execFset_keeps
  | fclr => exact execFclr_keeps
  | fwait => exact execFwait_keeps
  | fwaitc => exact execFwaitc_keeps
  | fence => exact execFence_keeps
  | cjob => exact execCjob_keeps
  | sopen => exact execSopen_keeps
  | swait => exact execSwait_keeps
  | srelease => exact execSrelease_keeps
  | updSplit => exact execUpdSplit_keeps
  | sync => exact execSync_keeps
  | halt => exact execHalt_keeps
  | nop => exact execNop_keeps
  | coreDataReplay => exact execCoreDataReplay_keeps
  | dmaReplay => exact execDmaReplay_keeps
  | tileArrival => exact execTileArrival_keeps
  | txPrefetch => exact execTxPrefetch_keeps
  | exchangeListRead => exact execExchangeListRead_keeps
  | barrierComplete => exact execBarrierComplete_keeps
  | thsArriveReceive => exact execThsArriveReceive_keeps
  | thsCompleteReceive => exact execThsCompleteReceive_keeps
  | computeOverrun => exact execComputeOverrun_keeps
  | exchangePhaseStart => exact execExchangePhaseStart_keeps
  | exchangeUnitSend => exact execExchangeUnitSend_keeps
  | exchangeUnitHop => exact execExchangeUnitHop_keeps
  | exchangeUnitArrival => exact execExchangeUnitArrival_keeps
  | exchangeUnitMissing => exact execExchangeUnitMissing_keeps
  | exchangePhaseEnd => exact execExchangePhaseEnd_keeps
  | watchStepClose => exact execWatchStepClose_keeps
  | haltTakesEffect => exact execHaltTakesEffect_keeps
  | clusterClockStart => exact execClusterClockStart_keeps
  | cloverJobStart => exact execCloverJobStart_keeps
  | cloverOutputTileStart => exact execCloverOutputTileStart_keeps
  | cloverFeedWindow => exact execCloverFeedWindow_keeps
  | cloverWavefrontComplete => exact execCloverWavefrontComplete_keeps
  | cloverDrainWrite => exact execCloverDrainWrite_keeps
  | cloverTileDrainComplete => exact execCloverTileDrainComplete_keeps
  | cloverJobComplete => exact execCloverJobComplete_keeps
  | queueRequestComplete => exact execQueueRequestComplete_keeps
  | streamBlockStart => exact execStreamBlockStart_keeps
  | dmaUnitMove => exact execDmaUnitMove_keeps
  | streamBlockComplete => exact execStreamBlockComplete_keeps
  | lateConsumer => exact execLateConsumer_keeps
  | messageArrival => exact execMessageArrival_keeps
  | messageReplyArrival => exact execMessageReplyArrival_keeps
  | sendwRetry => exact execSendwRetry_keeps
  | msgRetryExhausted => exact execMsgRetryExhausted_keeps
  | msgRecvTimeout => exact execMsgRecvTimeout_keeps
  | flagRequestArrival => exact execFlagRequestArrival_keeps
  | flagEvaluation => exact execFlagEvaluation_keeps
  | flagTimeout => exact execFlagTimeout_keeps
  | slotStart => exact execSlotStart_keeps
  | frameTransmit => exact execFrameTransmit_keeps
  | slotSuspend => exact execSlotSuspend_keeps
  | slotTail => exact execSlotTail_keeps
  | frameReceive => exact execFrameReceive_keeps
  | ackSend => exact execAckSend_keeps
  | ackReceive => exact execAckReceive_keeps
  | nakReceive => exact execNakReceive_keeps
  | replayStart => exact execReplayStart_keeps
  | blockReceive => exact execBlockReceive_keeps
  | channelUnitForm => exact execChannelUnitForm_keeps
  | reduceDeadline => exact execReduceDeadline_keeps
  | digestReceive => exact execDigestReceive_keeps
  | tsExchangeStart => exact execTsExchangeStart_keeps
  | tsReqReceive => exact execTsReqReceive_keeps
  | tsRespReceive => exact execTsRespReceive_keeps
  | tsFupReceive => exact execTsFupReceive_keeps
  | htLock => exact execHtLock_keeps
  | parentSelect => exact execParentSelect_keeps
  | holdoverRestrictionEnd => exact execHoldoverRestrictionEnd_keeps
  | holdoverBoundStep => exact execHoldoverBoundStep_keeps
  | treeSend => exact execTreeSend_keeps
  | treeReceive => exact execTreeReceive_keeps
  | hallTimeSet => exact execHallTimeSet_keeps
  | htPpsInEdge => exact execHtPpsInEdge_keeps
  | htPpsOutPulse => exact execHtPpsOutPulse_keeps
  | signalDetect => exact execSignalDetect_keeps
  | trainingComplete => exact execTrainingComplete_keeps
  | trainTimeout => exact execTrainTimeout_keeps
  | alignComplete => exact execAlignComplete_keeps
  | lossOfSignal => exact execLossOfSignal_keeps
  | laneLockLoss => exact execLaneLockLoss_keeps
  | goingAwayReceive => exact execGoingAwayReceive_keeps
  | doorbell => exact execDoorbell_keeps
  | ringEnable => exact execRingEnable_keeps
  | ringDisable => exact execRingDisable_keeps
  | nopCommand => exact execNopCommand_keeps
  | identify => exact execIdentify_keeps
  | configApply => exact execConfigApply_keeps
  | configApplyComplete => exact execConfigApplyComplete_keeps
  | configRead => exact execConfigRead_keeps
  | partCreate => exact absurd h Bool.false_ne_true
  | partDestroy => exact absurd h Bool.false_ne_true
  | ctxCreate => exact absurd h Bool.false_ne_true
  | ctxTeardown => exact execCtxTeardown_keeps
  | ctxReset => exact execCtxReset_keeps
  | drainComplete => exact execDrainComplete_keeps
  | scrubComplete => exact execScrubComplete_keeps
  | loadSegment => exact execLoadSegment_keeps
  | relocate => exact execRelocate_keeps
  | patch => exact execPatch_keeps
  | start => exact execStart_keeps
  | haltCommand => exact execHaltCommand_keeps
  | resume => exact execResume_keeps
  | dmaHost => exact execDmaHost_keeps
  | dmaHostComplete => exact execDmaHostComplete_keeps
  | windowOpen => exact execWindowOpen_keeps
  | windowClose => exact execWindowClose_keeps
  | flagSet => exact execFlagSet_keeps
  | flagRead => exact execFlagRead_keeps
  | scratchSample => exact execScratchSample_keeps
  | sampleComplete => exact execSampleComplete_keeps
  | eventRead => exact execEventRead_keeps
  | eventAck => exact execEventAck_keeps
  | powerMode => exact execPowerMode_keeps
  | powerModeComplete => exact execPowerModeComplete_keeps
  | bankPower => exact execBankPower_keeps
  | bankOffComplete => exact execBankOffComplete_keeps
  | bankOffTimeout => exact execBankOffTimeout_keeps
  | bankOnComplete => exact execBankOnComplete_keeps
  | lifecycle => exact execLifecycle_keeps
  | lock => exact execLock_keeps
  | linkControl => exact execLinkControl_keeps
  | resetEscalate => exact execResetEscalate_keeps
  | fwUpdate => exact execFwUpdate_keeps
  | functionLevelReset => exact execFunctionLevelReset_keeps
  | bar4Access => exact execBar4Access_keeps
  | bar0LowWordRead => exact execBar0LowWordRead_keeps
  | registerWrite => exact execRegisterWrite_keeps
  | mmuInval => exact execMmuInval_keeps
  | mmuInvalComplete => exact execMmuInvalComplete_keeps
  | mmuFaultResume => exact execMmuFaultResume_keeps
  | mmuFaultAbort => exact execMmuFaultAbort_keeps
  | numWctlClear => exact execNumWctlClear_keeps
  | msixModerationTimeout => exact execMsixModerationTimeout_keeps
  | msixUnmask => exact execMsixUnmask_keeps
  | pcieL1Entry => exact execPcieL1Entry_keeps
  | d3hotEntry => exact execD3hotEntry_keeps
  | d0Return => exact execD0Return_keeps
  | pmeTurnOff => exact execPmeTurnOff_keeps
  | eventRaise => exact execEventRaise_keeps
  | stormWindow => exact execStormWindow_keeps
  | evcClaim => exact execEvcClaim_keeps
  | evcEoi => exact execEvcEoi_keeps
  | evcHoldSet => exact execEvcHoldSet_keeps
  | evcHoldRelease => exact execEvcHoldRelease_keeps
  | latchTransfer => exact execLatchTransfer_keeps
  | logAppend => exact execLogAppend_keeps
  | pageCommitTimer => exact execPageCommitTimer_keeps
  | pageProgramComplete => exact execPageProgramComplete_keeps
  | powerUp => exact absurd h Bool.false_ne_true
  | bootSample => exact execBootSample_keeps
  | perstEdge => exact execPerstEdge_keeps
  | perstRise => exact execPerstRise_keeps
  | powerFail => exact execPowerFail_keeps
  | pfRise => exact execPfRise_keeps
  | railLoss => exact absurd h Bool.false_ne_true
  | idleEntry => exact execIdleEntry_keeps
  | standbyEntry => exact execStandbyEntry_keeps
  | standbyWake => exact execStandbyWake_keeps
  | throttleStep => exact execThrottleStep_keeps
  | throttleApply => exact execThrottleApply_keeps
  | tripClear => exact execTripClear_keeps
  | ssWatchdog => exact execSsWatchdog_keeps
  | engineHang => exact execEngineHang_keeps
  | resetBudgetExpiry => exact execResetBudgetExpiry_keeps
  | tileFence => exact execTileFence_keeps
  | resetComplete => exact absurd h Bool.false_ne_true
  | hallTimeSetTimeout => exact execHallTimeSetTimeout_keeps
  | fwUpdateComplete => exact execFwUpdateComplete_keeps
  | clusterGating => exact execClusterGating_keeps

/-- A host command either stays within `Keeps` or runs its body on the state after the take. -/
theorem hostCmd_cases {s t : State} {r : RingRef} {w : CmdWords} {k : CmdSpec} {body : State → State}
    (h : hostCmd s r w k body = .next t) : Keeps s t ∨ t = body (s.take r w) := by
  unfold hostCmd at h
  split at h
  · cases h
  split at h
  · cases h
    exact .inl (Keeps.refl s)
  split at h
  · cases h
    exact .inl (State.passTurn_keeps (Keeps.refl s))
  dsimp only at h
  split at h
  · cases h
    exact .inl (State.replyCode_keeps (State.take_keeps (Keeps.refl s)))
  · cases h
    exact .inr rfl

/-- A guarded event takes place or leaves the state as it was. -/
theorem when_cases {b : Bool} {s f t : State} (h : when_ b s f = .next t) : t = s ∨ t = f := by
  cases b with
  | false => cases h; exact .inl rfl
  | true => cases h; exact .inr rfl

/-! ### The contexts through replies and events

`Keeps` only bounds the clusters of the contexts; these operations leave the whole table as it was. -/

theorem forAll_ctxs {α : Type} {xs : List α} {f : State → α → State} {s : State} (hf : ∀ s a, (f s a).ctxs = s.ctxs) :
    (forAll xs f s).ctxs = s.ctxs := by
  unfold forAll
  induction xs generalizing s with
  | nil => rfl
  | cons a as ih => exact ih.trans (hf s a)

@[simp] theorem State.emit_ctxs (s : State) (o : Out) : (s.emit o).ctxs = s.ctxs := by
  unfold State.emit
  repeat' split
  all_goals rfl

@[simp] theorem State.setRing_ctxs (s : State) (r : RingRef) (x : Ring) : (s.setRing r x).ctxs = s.ctxs := rfl

@[simp] theorem State.touch_ctxs (s : State) : s.touch.ctxs = s.ctxs := rfl

@[simp] theorem State.sendVec_ctxs (s : State) (f v : Nat) : (s.sendVec f v).ctxs = s.ctxs := by
  simp [State.sendVec]

@[simp] theorem State.fireVec_ctxs (s : State) (f v : Nat) : (s.fireVec f v).ctxs = s.ctxs := by
  unfold State.fireVec
  dsimp only
  repeat' split
  all_goals simp

@[simp] theorem State.countVec_ctxs (s : State) (f v : Nat) : (s.countVec f v).ctxs = s.ctxs := by
  unfold State.countVec
  dsimp only
  repeat' split
  all_goals simp

@[simp] theorem State.pme_ctxs (s : State) (f : Nat) : (s.pme f).ctxs = s.ctxs := by
  unfold State.pme
  split <;> simp

@[simp] theorem State.setAttn_ctxs (s : State) (f b : Nat) : (s.setAttn f b).ctxs = s.ctxs := by
  unfold State.setAttn
  dsimp only
  repeat' split
  all_goals simp

@[simp] theorem State.setAttnM_ctxs (s : State) (b : Nat) : (s.setAttnM b).ctxs = s.ctxs :=
  forAll_ctxs fun s f => s.setAttn_ctxs f b

@[simp] theorem State.evcRaise_ctxs (s : State) (d src : Nat) (ht : W64) (offer : Bool) (x : RaiseInfo) :
    (s.evcRaise d src ht offer x).ctxs = s.ctxs := by
  unfold State.evcRaise
  dsimp only
  repeat' split
  all_goals simp

@[simp] theorem State.latchEdge_ctxs (s : State) (d l : Nat) (x : RaiseInfo) : (s.latchEdge d l x).ctxs = s.ctxs := by
  unfold State.latchEdge
  dsimp only
  split <;> simp

@[simp] theorem State.raise_ctxs (s : State) (d src : Nat) (x : RaiseInfo) : (s.raise d src x).ctxs = s.ctxs := by
  unfold State.raise
  dsimp only
  repeat' split
  all_goals simp [forAll_ctxs]

@[simp] theorem State.flush_ctxs (s : State) : s.flush.ctxs = s.ctxs :=
  forAll_ctxs fun s f => by
    split
    · rfl
    · exact forAll_ctxs fun s v => by split <;> simp

@[simp] theorem State.pmeAckIfDone_ctxs (s : State) : s.pmeAckIfDone.ctxs = s.ctxs := by
  unfold State.pmeAckIfDone
  repeat' split
  all_goals simp

@[simp] theorem State.reply_ctxs (s : State) (r : RingRef) (code w1 w2 w3 : Nat) : (s.reply r code w1 w2 w3).ctxs = s.ctxs := by
  unfold State.reply
  dsimp only
  repeat' split
  all_goals simp

@[simp] theorem State.replyTo_ctxs (s : State) (r : Option RingRef) (code w1 w2 w3 : Nat) :
    (s.replyTo r code w1 w2 w3).ctxs = s.ctxs := by
  cases r with
  | none => rfl
  | some r => exact s.reply_ctxs r code w1 w2 w3

@[simp] theorem State.answerLate_ctxs (s : State) (rs : List RingRef) (level : Nat) : (s.answerLate rs level).ctxs = s.ctxs :=
  forAll_ctxs fun s r => s.reply_ctxs r codeTimeout level 0 0

@[simp] theorem State.cursors_ctxs (s : State) : s.cursors.ctxs = s.ctxs :=
  forAll_ctxs fun s f => s.setFn_ctxs f _

@[simp] theorem State.bootFw_ctxs (s : State) : s.bootFw.ctxs = s.ctxs := by
  unfold State.bootFw
  dsimp only
  repeat' split
  all_goals simp

/-! ### The end of an L3 (R38, R372) -/

/-- What the end of an L3 does after the new life-cycle state: the firmware's start, its event and the replies. -/
def State.startAfterL3 (s : State) (q : Reset) : State :=
  let s := s.bootFw
  let s := if q.lcs.isSome then s.raise 0 evLifecycleChange noInfo else s
  (s.replyTo q.owner codeOk 0 0 0).answerLate q.late 3

theorem State.startAfterL3_keeps (s : State) (q : Reset) : Keeps s (s.startAfterL3 q) :=
  State.answerLate_keeps (State.replyTo_keeps (Keeps.ite
    (fun _ => State.raise_keeps (State.bootFw_keeps (Keeps.refl s))) (fun _ => State.bootFw_keeps (Keeps.refl s))))

@[simp] theorem State.startAfterL3_ctxs (s : State) (q : Reset) : (s.startAfterL3 q).ctxs = s.ctxs := by
  unfold State.startAfterL3
  dsimp only
  split <;> simp

/-- The fuses after an L3 that may bring a new life-cycle state. -/
def fusesAfterL3 (f : Fuses) (q : Reset) : Fuses :=
  match q.lcs with
  | none => f
  | some l => { f with lcs := l }

theorem State.endL3_eq (s : State) (q : Reset) :
    s.endL3 q = ({ s.wipeL3.cursors with fuses := fusesAfterL3 s.wipeL3.cursors.fuses q } : State).startAfterL3 q := by
  unfold State.endL3 State.startAfterL3 fusesAfterL3
  cases q.lcs <;> rfl

/-- No partition but the one of P1, and no context. -/
theorem State.endL3_resetLayout (s : State) (q : Reset) :
    (s.endL3 q).layout = .p1 ∧ (s.endL3 q).parts = 1 ∧ (s.endL3 q).ctxs = [] := by
  have hc : Keeps s.wipeL3 s.wipeL3.cursors := State.cursors_keeps (Keeps.refl _)
  rw [State.endL3_eq]
  refine ⟨?_, ?_, ?_⟩
  · exact (State.startAfterL3_keeps _ q).layout.trans hc.layout
  · exact (State.startAfterL3_keeps _ q).parts.trans hc.parts
  · exact (State.startAfterL3_ctxs _ q).trans s.wipeL3.cursors_ctxs

/-! ### Which commands change the layout (R38) -/

/-- A host command whose body keeps the layout keeps it. -/
theorem hostCmd_layout {s t : State} {r : RingRef} {w : CmdWords} {k : CmdSpec} {body : State → State}
    (hb : ∀ y, (body y).layout = y.layout) (h : hostCmd s r w k body = .next t) : t.layout = s.layout := by
  obtain hk | rfl := hostCmd_cases h
  · exact hk.layout
  · exact (hb _).trans (State.take_keeps (Keeps.refl s)).layout

theorem execCtxCreate_layout {r : RingRef} {w : CmdWords} {s t : State} (h : execCtxCreate r w s = .next t) :
    t.layout = s.layout := by
  refine hostCmd_layout (fun y => ?_) h
  dsimp only
  split
  · exact (State.replyCode_keeps (Keeps.refl y)).layout
  · exact (State.replyCode_keeps (Keeps.refl y)).layout
  · exact (State.reply_keeps (State.setRoot_keeps (Keeps.refl _))).layout

theorem execPartDestroy_layout {r : RingRef} {w : CmdWords} {s t : State} (h : execPartDestroy r w s = .next t) :
    t.layout = s.layout := by
  refine hostCmd_layout (fun y => ?_) h
  dsimp only
  split
  · exact (State.replyCode_keeps (Keeps.refl y)).layout
  split
  · exact (State.replyCode_keeps (Keeps.refl y)).layout
  · exact (State.replyCode_keeps (Keeps.refl _)).layout.trans (State.latchConfig_keeps (Keeps.refl y)).layout

theorem execPowerUp_layout {s t : State} (h : execPowerUp s = .next t) : t.layout = s.layout := by
  obtain rfl | rfl := when_cases h
  · rfl
  · exact (State.bootFw_keeps (State.cursors_keeps (Keeps.refl _))).layout

/-- A loss of the rails leaves the layout of a module out of reset. -/
theorem execRailLoss_layout {s t : State} (h : execRailLoss s = .next t) : t.layout = s.layout ∨ t.layout = .p1 := by
  obtain rfl | rfl := when_cases h
  · exact .inl rfl
  · exact .inr rfl

/-- A reset of level 3 with power and all pins high ends. -/
theorem execResetComplete_l3 {s : State} {n : Nat} {x : Reset} (hx : s.resets[n]? = some x) (hl : x.level = 3)
    (hpow : s.plat.powered = true) (hper : s.plat.perst = true) (hpf : s.plat.pf = true) (hcyc : s.plat.pwrCycle = false) :
    execResetComplete n s = .next (s.endL3 x) := by
  simp [execResetComplete, hx, hl, hpow, hper, hpf, hcyc]

theorem execResetComplete_layout {n : Nat} {s t : State} (h : execResetComplete n s = .next t) :
    t.layout = s.layout ∨ t.layout = .p1 := by
  unfold execResetComplete at h
  split at h
  · cases h
    exact .inl rfl
  split at h
  · cases h
    exact .inl rfl
  split at h
  · cases h
    exact .inl (State.replyTo_keeps (State.resetEngine_keeps (Keeps.refl _))).layout
  split at h
  · cases h
    exact .inl (State.endL2_keeps (Keeps.refl _)).layout
  split at h
  · cases h
    exact .inr (s.endL3_resetLayout _).1
  · cases h
    exact .inl rfl

/-- A command other than PART_CREATE leaves the layout as it was, or P1. -/
theorem exec_layout {c : Instr} {s t : State} (h : exec c s = .next t) (hc : ∀ r w, c ≠ .partCreate r w) :
    t.layout = s.layout ∨ t.layout = .p1 := by
  by_cases hk : c.keepsModule = true
  · exact .inl (exec_keeps hk t h).layout
  · unfold Instr.keepsModule at hk
    split at hk
    next r w => exact absurd rfl (hc r w)
    · exact .inl (execPartDestroy_layout h)
    · exact .inl (execCtxCreate_layout h)
    · exact execResetComplete_layout h
    · exact execRailLoss_layout h
    · exact .inl (execPowerUp_layout h)
    · exact absurd rfl hk

/-- A step that ends in another layout than it began with, and not in P1, ran PART_CREATE. -/
theorem step_layout {s t : State} (h : step s = .next t) (hl : t.layout ≠ s.layout) :
    (∃ r w, s.pending.head? = some (.partCreate r w)) ∨ t.layout = .p1 := by
  unfold step at h
  split at h
  · cases h
    exact absurd (tick_keeps (Keeps.refl s)).layout hl
  next c cs hp =>
    rw [hp, List.head?_cons]
    by_cases hc : ∃ r w, c = .partCreate r w
    · obtain ⟨r, w, rfl⟩ := hc
      exact .inl ⟨r, w, rfl⟩
    · exact .inr ((exec_layout h fun r w e => hc ⟨r, w, e⟩).resolve_left hl)

end Sys2Proof.Machine

namespace Sys2Proof.Claims

open Sys2Proof.Machine

/-- Settles O56: the end of an L3 by its wipe, and the steps by what each command can do to the layout. -/
theorem resetLayoutHoldsUntilPartCreate : Obligations.ResetLayoutHoldsUntilPartCreate := by
  refine ⟨⟨rfl, rfl, rfl⟩, fun s n x hx hl hpow hper hpf hcyc => ?_, fun s t => step_layout⟩
  exact ⟨s.endL3 x, execResetComplete_l3 hx hl hpow hper hpf hcyc, s.endL3_resetLayout x⟩

end Sys2Proof.Claims

/-! ### Control instructions (R57, R99) -/

namespace Sys2Proof.Machine

/-- A thread changed from the issued state reads as changed from the state before the issue. -/
theorem Issued_modThread_thread (s : State) (r : IssueRef) (g : Thread → Thread) :
    ((Issued s r).modThread r.tid r.thr g).thread r.tid r.thr = g (s.thread r.tid r.thr) := by
  rw [State.modThread_thread, if_pos ⟨rfl, rfl⟩, Issued_thread]

/-- An instruction that only moves its PC to the next word goes on there. -/
theorem Ready.wentTo_step {s r cls op f c} (h : Ready s r cls op f c) :
    WentTo s ((Issued s r).modThread r.tid r.thr Thread.step) r (pcOf s r + 8) := by
  have e := Issued_modThread_thread s r Thread.step
  exact {
    frame := OnlyThread.issued s r Thread.step
    scalar := fun n => by rw [e, Thread.step_sr]
    vector := fun n => by rw [e, Thread.step_vr]
    pc := by rw [pcOf, e, Thread.step_pc, pcOf]
    runs := by
      rw [e, Thread.step_st, Thread.step_wait]
      exact ⟨h.runnable, h.unheld⟩ }

/-- The order of R57: the lower tile first, and in one tile the lower thread. -/
theorem candBefore_iff (a : Nat × Nat × BitVec 8) (t n : Nat) :
    candBefore a t n = true ↔ a.1 < t ∨ (a.1 = t ∧ a.2.1 ≤ n) := by
  simp only [candBefore, Bool.or_eq_true, Bool.and_eq_true, decide_eq_true_eq]

/-- The budget index of SYNC is the low byte of IMM. -/
theorem ofNat_bits_low_byte (v : BitVec 32) : BitVec.ofNat 8 (bits v.toNat 7 0) = v.truncate 8 := by
  apply BitVec.eq_of_toNat_eq
  simp only [bits, BitVec.toNat_ofNat, BitVec.truncate_eq_setWidth, BitVec.toNat_setWidth]
  omega

end Sys2Proof.Machine

namespace Sys2Proof.Claims

open Sys2Proof.Machine

/-- Settles O13: each instruction runs its body on the issued state; SYNC's candidate by whether the superstep
has one, and which of the two comes first under R57. -/
theorem controlInstructions : Obligations.ControlInstructions := by
  refine fun s r f c => ⟨fun h => ?nop, fun h => ?halt, fun h => ?sync⟩
  case nop =>
    rw [exec_nop, execNop, issue_ready h]
    exact ⟨_, rfl, h.wentTo_step⟩
  case halt =>
    rw [exec_halt, execHalt, issue_ready h]
    rfl
  case sync =>
    rw [exec_sync, execSync, issue_ready h, Issued_ctx, ofNat_bits_low_byte]
    dsimp only
    generalize (s.ctx c).run.cand = kept
    cases kept with
    | none => rfl
    | some a => simp only [candBefore_iff]

end Sys2Proof.Claims

/-! ### The Clover cycles of an output tile (R117) -/

namespace Sys2Proof.Machine

/-- FP32 operands take three passes over the K steps. -/
theorem jobKc_of_fp32 {w : List W64} (h : fmtCode (jobFmtA w) = 0) : jobKc w = 3 * jobK w :=
  if_pos h

/-- 16-bit operands take a cycle for each K step. -/
theorem jobKc_of_16bit {w : List W64} (h0 : fmtCode (jobFmtA w) ≠ 0) (h2 : fmtCode (jobFmtA w) ≤ 2) :
    jobKc w = jobK w :=
  (if_neg h0).trans (if_pos h2)

/-- Operands of 8 and 6 bits take two K steps in a cycle. -/
theorem jobKc_of_narrow {w : List W64} (h : 2 < fmtCode (jobFmtA w)) : jobKc w = jobK w / 2 :=
  (if_neg (Nat.ne_zero_of_lt h)).trans (if_neg (Nat.not_le_of_lt h))

end Sys2Proof.Machine

namespace Sys2Proof.Claims

open Sys2Proof.Machine

/-- Settles O25: by the width that the format code of operand A names. -/
theorem kStepCycles : Obligations.KStepCycles := by
  refine fun w => ⟨fun hfp32 => ?fp32, fun h16 => ?sixteen, fun hnarrow => ?narrow⟩
  case fp32 => exact jobKc_of_fp32 hfp32
  case sixteen =>
    have hcode : fmtCode (jobFmtA w) = 1 ∨ fmtCode (jobFmtA w) = 2 := h16
    exact jobKc_of_16bit (by omega) (by omega)
  case narrow => exact jobKc_of_narrow hnarrow

end Sys2Proof.Claims

/-! ### The frame check (R290) -/

namespace Sys2Proof.Machine

/-- `n` little-endian bytes see only the low `8 * n` bits of a number (R12). -/
theorem toLE_mod (n v : Nat) : toLE n (v % 256 ^ n) = toLE n v := by
  induction n generalizing v with
  | zero => rfl
  | succ n ih =>
    have low : BitVec.ofNat 8 (v % (256 * 256 ^ n)) = BitVec.ofNat 8 v :=
      BitVec.eq_of_toNat_eq (Nat.mod_mod_of_dvd v (Nat.dvd_mul_right 256 _))
    rw [Nat.pow_succ', toLE, toLE, low, Nat.mod_mul_right_div_self, ih]

/-- A register step of the reflected CRC: shift, and add the polynomial where a one leaves. -/
theorem crc32Bits_succ (n : Nat) (a : W32) :
    crc32Bits (n + 1) a = crc32Bits n ((a >>> 1) ^^^ (if a.getLsbD 0 then 0x82F63B78 else 0)) := by
  rw [crc32Bits]
  by_cases out : a.getLsbD 0 = true
  · rw [if_pos out, if_pos out]
  · rw [if_neg out, if_neg out]
    exact congrArg (crc32Bits n) BitVec.xor_zero.symm

/-- The published check value of CRC-32C, that of the ASCII digits 1 to 9. -/
theorem crc32c_digits : crc32c [0x31, 0x32, 0x33, 0x34, 0x35, 0x36, 0x37, 0x38, 0x39] = 0xE3069283 := by
  decide +kernel

/-- The six BODY bytes of a symbol are its bytes 1 to 6. -/
theorem toLE_symBody (w : W64) : toLE 6 (symBody w) = toLE 6 (w.toNat / 2 ^ 8) :=
  toLE_mod 6 (w.toNat / 2 ^ 8)

/-- The bytes covered, with the SOF's body taken straight out of its word. -/
theorem frameBytes_eq (x : Frame) : frameBytes x =
    toLE 6 (x.sof.toNat / 2 ^ 8) ++ x.payload.flatMap (fun u => toLE 32 u.toNat) ++ toLE 4 (x.trailer.toNat / 2 ^ 32) := by
  rw [frameBytes, toLE_symBody]
  rfl

@[simp] theorem unitBytes_length (u : W256) : (unitBytes u).length = 32 := toLE_length 32 u.toNat

/-- Six bytes of the SOF, the units' bytes and four of the trailer are covered. -/
theorem frameBytes_length (x : Frame) : (frameBytes x).length = 32 * x.payload.length + 10 := by
  simp only [frameBytes, List.length_append, toLE_length, List.length_flatMap, unitBytes_length, List.map_const',
    List.sum_replicate, smul_eq_mul]
  omega

/-- The check does not cover its own place: of the trailer only the high half counts. -/
theorem frameBytes_trailer_congr (x : Frame) {t : W64} (high : t.toNat / 2 ^ 32 = x.trailer.toNat / 2 ^ 32) :
    frameBytes { x with trailer := t } = frameBytes x := by
  simp only [frameBytes, high]

/-- A receiver's check is that the trailer's low half is the CRC of the bytes covered. -/
theorem Frame.crcOk_iff (x : Frame) :
    Frame.crcOk x = true ↔ x.payload.length = 8 ∧ x.trailer.truncate 32 = crc32c (frameBytes x) := by
  have low : fld x.trailer 31 0 = (x.trailer.truncate 32).toNat := by simp [fld, bits]
  simp only [Frame.crcOk, Bool.and_eq_true, decide_eq_true_eq, low, BitVec.toNat_inj]

/-- FIDX stands above a check code of 32 bits without meeting it. -/
theorem toNat_trailer {fidx : Nat} (h : fidx < 2 ^ 24) (crc : W32) :
    (BitVec.ofNat 64 (at_ 32 fidx + crc.toNat)).toNat = fidx * 2 ^ 32 + crc.toNat := by
  have fits : fidx * 2 ^ 32 + crc.toNat < 2 ^ 64 := by have := crc.isLt; omega
  rw [at_, BitVec.toNat_ofNat, Nat.mod_eq_of_lt fits]

/-- Bytes 4 to 7 of a trailer are FIDX. -/
theorem trailer_high {fidx : Nat} (h : fidx < 2 ^ 24) (crc : W32) :
    (BitVec.ofNat 64 (at_ 32 fidx + crc.toNat)).toNat / 2 ^ 32 = fidx := by
  rw [toNat_trailer h]
  have := crc.isLt
  omega

/-- Bytes 0 to 3 of a trailer are the check code. -/
theorem trailer_low {fidx : Nat} (h : fidx < 2 ^ 24) (crc : W32) :
    (BitVec.ofNat 64 (at_ 32 fidx + crc.toNat)).truncate 32 = crc := by
  apply BitVec.eq_of_toNat_eq
  rw [BitVec.truncate_eq_setWidth, BitVec.toNat_setWidth, toNat_trailer h]
  have := crc.isLt
  omega

/-- The frame that a sender builds carries the CRC of its own bytes. -/
theorem mkFrame_carries_crc (kind nunits tag seq : Nat) (cxh : BitVec 16) (us : List W256) {fidx : Nat} (h : fidx < 2 ^ 24) :
    (mkFrame kind nunits tag seq cxh us fidx).trailer.truncate 32 = crc32c (frameBytes (mkFrame kind nunits tag seq cxh us fidx)) := by
  have blank : (BitVec.ofNat 64 (at_ 32 fidx)).toNat / 2 ^ 32 = fidx := by simpa using trailer_high h 0
  rw [mkFrame, frameBytes_trailer_congr _ ((trailer_high h _).trans blank.symm)]
  exact trailer_low h _

end Sys2Proof.Machine

namespace Sys2Proof.Claims

open Sys2Proof.Machine

/-- Settles O34: the sender's trailer carries the CRC since the check does not cover its own place, and the
receiver's check is that equation. -/
theorem frameCheckIsCrc32c : Obligations.FrameCheckIsCrc32c := by
  refine ⟨fun bs => rfl, fun n a => ⟨rfl, crc32Bits_succ n a⟩, ?sender, fun f => Frame.crcOk_iff f, ?digits⟩
  case sender =>
    intro k n tag seq fidx cxh us hlen hfidx f covered
    have hlen_f : f.payload.length = 8 := hlen
    have hcrc : f.trailer.truncate 32 = crc32c (frameBytes f) := mkFrame_carries_crc k n tag seq cxh us hfidx
    have hcovered : covered = frameBytes f := (frameBytes_eq f).symm
    rw [hcovered, frameBytes_length, hlen_f]
    exact ⟨hcrc, (Frame.crcOk_iff f).mpr ⟨hlen_f, hcrc⟩, rfl⟩
  case digits => exact crc32c_digits

end Sys2Proof.Claims

/-! ### The priority stack of an event controller (R340, R341) -/

namespace Sys2Proof.Machine

@[simp] theorem Evc.atStart_stack (e : Evc) (now : Nat) : (e.atStart now).stack = e.stack := by
  unfold Evc.atStart
  split <;> rfl

@[simp] theorem Evc.atStart_prioOf (e : Evc) (now n : Nat) : (e.atStart now).prioOf n = e.prioOf n := by
  unfold Evc.atStart
  split <;> rfl

theorem Evc.runpri_eq_headD (e : Evc) : e.runpri = e.stack.headD 16 := by
  unfold Evc.runpri
  cases e.stack <;> rfl

/-- The best source of a list is an eligible one. -/
theorem Evc.eligible_of_best {e : Evc} {ns : List Nat} {m : Nat} (h : e.best ns = some m) : e.eligible m = true := by
  induction ns generalizing m with
  | nil => cases h
  | cons n ns ih =>
    rw [Evc.best] at h
    split at h
    next =>
      obtain ⟨hn, rfl⟩ := Option.ite_none_right_eq_some.mp h |>.imp_right Option.some.inj
      exact hn
    next k hk =>
      split at h
      next hn =>
        obtain rfl := Option.some.inj h
        exact (Bool.and_eq_true_iff.mp hn).1
      next =>
        obtain rfl := Option.some.inj h
        exact ih hk

/-- A claimed source has a priority strictly below RUNPRI. -/
theorem Evc.prioOf_lt_of_claim {e : Evc} {n : Nat} (h : e.claim = some n) : e.prioOf n < e.stack.headD 16 := by
  unfold Evc.claim at h
  split at h
  · cases h
  have below := (Bool.and_eq_true_iff.mp (Evc.eligible_of_best h)).2
  rw [← Evc.runpri_eq_headD]
  exact of_decide_eq_true below

theorem Evc.take_of_no_claim {e : Evc} {now : Nat} (h : (e.atStart now).claim = none) : e.take now = e := by
  rw [Evc.take, h]

theorem Evc.take_stack_of_claim {e : Evc} {now n : Nat} (h : (e.atStart now).claim = some n) :
    (e.take now).stack = e.prioOf n :: e.stack := by
  rw [Evc.take, h]

/-- A claim pushes only below the top. -/
theorem Evc.take_pushes_below {e : Evc} {now n : Nat} (h : (e.atStart now).claim = some n) :
    e.prioOf n < e.stack.headD 16 := by
  simpa using Evc.prioOf_lt_of_claim h

theorem Evc.eoi_of_nil {e : Evc} (h : e.stack = []) : e.eoi = { e with eoiErr := true } := by
  rw [Evc.eoi, h]

theorem Evc.eoi_of_cons {e : Evc} {p : Nat} {ps : List Nat} (h : e.stack = p :: ps) : e.eoi = { e with stack := ps } := by
  rw [Evc.eoi, h]

theorem Evc.eoi_stack (e : Evc) : e.eoi.stack = e.stack.tail := by
  cases h : e.stack with
  | nil => rw [Evc.eoi_of_nil h, h, List.tail_nil]
  | cons p ps => rw [Evc.eoi_of_cons h, List.tail_cons]

/-- EVC_EOI acts on a controller of the module while the control domains run. -/
theorem execEvcEoi_runs {s : State} {d : Nat} (hd : d < 4) (hrun : s.controlRuns = true) :
    execEvcEoi d s = .next (s.evcEoi d) := by
  have hok : dieOk d = true := decide_eq_true hd
  rw [execEvcEoi, hok]
  exact when_true hrun s _

/-- An EOI on an empty stack only sets EOI_ERR, a hardware set. -/
theorem State.evcEoi_of_nil {s : State} {d : Nat} (h : (s.die d).evc.stack = []) :
    s.evcEoi d = (s.modEvc d fun e => { e with eoiErr := true }).hwSet (bar0Bit d 0xA0008 42) := by
  rw [State.evcEoi, h, State.modEvc, Evc.eoi_of_nil h]
  rfl

/-- An EOI on a stack with entries drops the top one. -/
theorem State.evcEoi_of_cons {s : State} {d p : Nat} {ps : List Nat} (h : (s.die d).evc.stack = p :: ps) :
    s.evcEoi d = s.modEvc d fun e => { e with stack := ps } := by
  rw [State.evcEoi, h, State.modEvc, Evc.eoi_of_cons h]
  rfl

/-- A priority stack in order: strictly rising from its top, with priorities below 16. -/
def PriosRise (ps : List Nat) : Prop := ps.Pairwise (· < ·) ∧ ∀ p ∈ ps, p < 16

theorem PriosRise.tail {ps : List Nat} (h : PriosRise ps) : PriosRise ps.tail :=
  ⟨h.1.tail, fun p hp => h.2 p (List.mem_of_mem_tail hp)⟩

/-- A push below the top, or below 16 on an empty stack, keeps the order. -/
theorem PriosRise.push {ps : List Nat} {p : Nat} (h : PriosRise ps) (below : p < ps.headD 16) : PriosRise (p :: ps) := by
  obtain ⟨rise, small⟩ := h
  cases ps with
  | nil => exact ⟨List.pairwise_singleton _ p, List.forall_mem_singleton.mpr below⟩
  | cons q qs =>
    have hpq : p < q := below
    have under : ∀ r ∈ q :: qs, p < r :=
      List.forall_mem_cons.mpr ⟨hpq, fun r hr => hpq.trans (List.rel_of_pairwise_cons rise hr)⟩
    exact ⟨List.pairwise_cons.mpr ⟨under, rise⟩,
      List.forall_mem_cons.mpr ⟨hpq.trans (small q List.mem_cons_self), small⟩⟩

/-- No stack in order holds more than the 16 priorities that there are. -/
theorem PriosRise.length_le {ps : List Nat} (h : PriosRise ps) : ps.length ≤ 16 := by
  have distinct : ps.Nodup := h.1.imp Nat.ne_of_lt
  have among : ps ⊆ List.range 16 := fun p hp => List.mem_range.mpr (h.2 p hp)
  simpa using (distinct.subperm among).length_le

theorem Evc.take_keeps_rise {e : Evc} (h : PriosRise e.stack) (now : Nat) : PriosRise (e.take now).stack := by
  cases hc : (e.atStart now).claim with
  | none => rwa [Evc.take_of_no_claim hc]
  | some n =>
    rw [Evc.take_stack_of_claim hc]
    exact h.push (Evc.take_pushes_below hc)

theorem Evc.eoi_keeps_rise {e : Evc} (h : PriosRise e.stack) : PriosRise e.eoi.stack := by
  rw [Evc.eoi_stack]
  exact h.tail

end Sys2Proof.Machine

namespace Sys2Proof.Claims

open Sys2Proof.Machine

/-- Settles O49: EVC_EOI by whether the stack is empty; the order of the stack because a claim takes an eligible
source, whose priority is below the top; its depth because rising priorities are distinct. -/
theorem endOfEventPops : Obligations.EndOfEventPops := by
  refine ⟨fun s d hd hrun => ⟨fun hempty => ?empty, fun p ps hstack => ⟨?pop, ?runpri⟩⟩,
    fun e now (hrise : PriosRise e.stack) => ⟨e.take_keeps_rise hrise now, e.eoi_keeps_rise hrise, hrise.length_le, ?push⟩⟩
  case empty =>
    rw [exec_evcEoi, execEvcEoi_runs hd hrun, State.evcEoi_of_nil hempty]
    rfl
  case pop =>
    rw [exec_evcEoi, execEvcEoi_runs hd hrun, State.evcEoi_of_cons hstack]
    rfl
  case runpri => exact Evc.runpri_eq_headD _
  case push => exact fun n hclaim => ⟨Evc.take_stack_of_claim hclaim, Evc.take_pushes_below hclaim⟩

end Sys2Proof.Claims

/-! ### What the edges and losses before an L3 leave (R386)

An L3 begins with replies dropped, events raised and ports taken DOWN. None of these moves the time or PF#, adds
to what is in flight, or brings a port up; and with every slot free none of them touches a context. -/

namespace Sys2Proof.Machine

/-- Contexts, windows, what is in flight, the time and PF# are the same, and a port that was DOWN is DOWN. -/
structure Undisturbed (s t : State) : Prop where
  ctxs    : t.ctxs = s.ctxs
  wins    : t.wins = s.wins
  flights : t.flights = s.flights
  lanes   : t.lanes = s.lanes
  freqs   : t.freqs = s.freqs
  now     : t.ht.now = s.ht.now
  pf      : t.plat.pf = s.plat.pf
  down    : ∀ p, (s.port p).link.st = .down → (t.port p).link.st = .down

/-- Every slot of the module is free. -/
def State.NoContext (s : State) : Prop := ∀ c, (s.ctx c).st = .free

namespace Undisturbed

variable {z s : State}

theorem refl (s : State) : Undisturbed s s := ⟨rfl, rfl, rfl, rfl, rfl, rfl, rfl, fun _ hp => hp⟩

theorem trans {t : State} (h : Undisturbed z s) (k : Undisturbed s t) : Undisturbed z t where
  ctxs    := k.ctxs.trans h.ctxs
  wins    := k.wins.trans h.wins
  flights := k.flights.trans h.flights
  lanes   := k.lanes.trans h.lanes
  freqs   := k.freqs.trans h.freqs
  now     := k.now.trans h.now
  pf      := k.pf.trans h.pf
  down    := fun p hp => k.down p (h.down p hp)

theorem ite {p : Prop} [Decidable p] {a b : State} (ha : Undisturbed z a) (hb : Undisturbed z b) :
    Undisturbed z (if p then a else b) := by
  split
  · exact ha
  · exact hb

theorem forAll {α : Type} {xs : List α} {f : State → α → State} (h : Undisturbed z s)
    (hf : ∀ y a, Undisturbed z y → Undisturbed z (f y a)) : Undisturbed z (forAll xs f s) := by
  unfold Machine.forAll
  induction xs generalizing s with
  | nil => exact h
  | cons a as ih => exact ih (hf s a h)

/-- Any change of the other parts of the state. -/
theorem upd (h : Undisturbed z s)
    {pending fuses cfg pair layout parts tiles clusters dies fns hbm hostMem log resets free outs fresh tap i3cDyn pins}
    {ht : HallTime} {plat : Plat} (hnow : ht.now = s.ht.now) (hpf : plat.pf = s.plat.pf) :
    Undisturbed z (State.mk pending ht plat fuses cfg pair layout parts s.ctxs tiles clusters dies s.ports fns hbm hostMem
      s.wins s.flights s.lanes s.freqs log resets free outs fresh tap i3cDyn pins) :=
  h.trans ⟨rfl, rfl, rfl, rfl, rfl, hnow, hpf, fun _ hp => hp⟩

/-- Any change of a port that does not take it out of DOWN. -/
theorem setPort {p : Nat} {x : Port} (h : Undisturbed z s) (hx : (s.port p).link.st = .down → x.link.st = .down) :
    Undisturbed z (s.setPort p x) := by
  refine h.trans ⟨rfl, rfl, rfl, rfl, rfl, rfl, rfl, fun q hq => ?_⟩
  rw [State.setPort_port]
  split
  next e => exact hx (e ▸ hq)
  next => exact hq

theorem noContext (h : Undisturbed z s) (hz : z.NoContext) : s.NoContext := fun c => by
  rw [State.ctx, h.ctxs]
  exact hz c

/-! #### Messages and attention -/

theorem setDie {d : Nat} {x : Die} (h : Undisturbed z s) : Undisturbed z (s.setDie d x) := h.upd rfl rfl

theorem modEvc {d : Nat} {f : Evc → Evc} (h : Undisturbed z s) : Undisturbed z (s.modEvc d f) := h.setDie

theorem setFn {f : Nat} {x : Fn} (h : Undisturbed z s) : Undisturbed z (s.setFn f x) := h.upd rfl rfl

theorem setRing {r : RingRef} {x : Ring} (h : Undisturbed z s) : Undisturbed z (s.setRing r x) := h.setFn

theorem hwSet {a : Nat} (h : Undisturbed z s) : Undisturbed z (s.hwSet a) := h.upd rfl rfl

theorem emit {o : Out} (h : Undisturbed z s) : Undisturbed z (s.emit o) := by
  cases o with
  | word | frame => exact ite (h.upd rfl rfl) h
  | _ => exact h.upd rfl rfl

theorem sendVec {f v : Nat} (h : Undisturbed z s) : Undisturbed z (s.sendVec f v) := by
  unfold State.sendVec
  refine emit (setFn ?_)
  exact h.upd rfl rfl

theorem fireVec {f v : Nat} (h : Undisturbed z s) : Undisturbed z (s.fireVec f v) :=
  ite h (ite h.setFn h.sendVec)

theorem countVec {f v : Nat} (h : Undisturbed z s) : Undisturbed z (s.countVec f v) :=
  ite h.setFn.fireVec h.setFn

theorem pme {f : Nat} (h : Undisturbed z s) : Undisturbed z (s.pme f) := ite h.emit h

theorem setAttn {f b : Nat} (h : Undisturbed z s) : Undisturbed z (s.setAttn f b) :=
  ite h.setFn.hwSet (pme (ite h.setFn.hwSet.countVec h.setFn.hwSet))

theorem setAttnM {b : Nat} (h : Undisturbed z s) : Undisturbed z (s.setAttnM b) := h.forAll fun _ _ hy => hy.setAttn

/-! #### Events and the log -/

theorem evcRaise {d src : Nat} {ht : W64} {offer : Bool} {x : RaiseInfo} (h : Undisturbed z s) :
    Undisturbed z (s.evcRaise d src ht offer x) :=
  ite (hwSet (ite h.setDie.hwSet h.setDie)) (ite h.setDie.hwSet h.setDie)

theorem latchEdge {d l : Nat} {x : RaiseInfo} (h : Undisturbed z s) : Undisturbed z (s.latchEdge d l x) :=
  ite h.setDie.hwSet h.setDie

theorem raise {d src : Nat} {x : RaiseInfo} (h : Undisturbed z s) : Undisturbed z (s.raise d src x) := by
  unfold State.raise
  extract_lets attended
  have h : Undisturbed z attended := by
    unfold attended
    split
    · exact ite h.setAttnM h.setAttn
    · exact h
  split
  · exact h.forAll fun _ _ hy => hy.latchEdge
  · exact ite (h.forAll fun _ _ hy => hy.evcRaise) h.evcRaise

theorem passLatch {d l : Nat} (h : Undisturbed z s) : Undisturbed z (s.passLatch d l) := h.modEvc.evcRaise

theorem progIfDue (h : Undisturbed z s) : Undisturbed z s.progIfDue := ite (h.upd rfl rfl) h

theorem append {x : LogRec} (h : Undisturbed z s) : Undisturbed z (s.append x) :=
  have added := h.upd rfl rfl
  progIfDue (ite (setAttnM added) (setAttn added))

theorem dropRec (h : Undisturbed z s) : Undisturbed z s.dropRec :=
  have counted := h.upd rfl rfl
  ite (forAll counted fun _ _ hy => hy.evcRaise) counted

theorem logStep {before : Nat} (h : Undisturbed z s) : Undisturbed z (s.logStep before) := by
  unfold State.logStep
  refine ite (append (h.upd rfl rfl)) ?_
  split
  · exact h
  split
  · exact h
  · refine ite (append ?_) (dropRec ?_) <;> exact h.modEvc.upd rfl rfl

theorem logPowerFail (h : Undisturbed z s) : Undisturbed z s.logPowerFail :=
  forAll (h.forAll fun _ _ hy => ite hy.passLatch hy) fun _ _ hy => hy.logStep

/-! #### The first steps of an L3 -/

theorem dropCmds {keep : List RingRef} (h : Undisturbed z s) : Undisturbed z (s.dropCmds keep) :=
  h.forAll fun _ _ hy => ite hy hy.setRing

theorem liftAll (h : Undisturbed z s) : Undisturbed z s.liftAll := h.upd rfl rfl

/-! #### A port that goes DOWN -/

theorem setXch {p : Nat} {x : PortXch} (h : Undisturbed z s) : Undisturbed z (s.setXch p x) := h.setPort id

theorem setPortHt {p : Nat} {x : PortHt} (h : Undisturbed z s) : Undisturbed z (s.setPortHt p x) := h.setPort id

theorem linkEvent {p src : Nat} (h : Undisturbed z s) : Undisturbed z (s.linkEvent p src) := h.raise

theorem htPortDown {p : Nat} (h : Undisturbed z s) : Undisturbed z (s.htPortDown p) :=
  ite (h.setPortHt.upd rfl rfl) h.setPortHt

theorem pairLost (h : Undisturbed z s) : Undisturbed z s.pairLost := ite (raise (h.upd rfl rfl)) h

theorem tellDead {c : CtxRef} {p entry : Nat} (h : Undisturbed z s) : Undisturbed z (s.tellDead c p entry) := h.raise

theorem noteDead {c : CtxRef} {p entry : Nat} {e : PEnt} (h : Undisturbed z s) :
    Undisturbed z (s.noteDead c p entry e) :=
  ite h.tellDead (ite h.setXch h.setXch.tellDead)

theorem unmute {c : CtxRef} {p : Nat} (h : Undisturbed z s) : Undisturbed z (s.unmute c p) :=
  h.setXch.forAll fun _ _ hy => hy.tellDead

/-- A free slot does not fault. -/
theorem faultEvent {c : CtxRef} {src : Nat} (h : Undisturbed z s) (hz : z.NoContext) :
    Undisturbed z (s.faultEvent c src) := by
  have unchanged : s.faultEvent c src = s := by simp only [State.faultEvent, State.faultCtx, h.noContext hz c]
  rwa [unchanged]

theorem lateSource {c : CtxRef} {p ch i : Nat} {q : ChSrc} {first : Bool} (h : Undisturbed z s) (hz : z.NoContext) :
    Undisturbed z (s.lateSource c p ch i q first) := by
  refine ite h (ite (faultEvent (raise ?_) hz) (ite (raise ?_) ?_)) <;> exact ite h.setXch h

theorem recheckLate {c : CtxRef} {p : Nat} (h : Undisturbed z s) (hz : z.NoContext) :
    Undisturbed z (s.recheckLate c p) :=
  h.forAll fun _ _ hy => ite (hy.forAll fun _ _ hu => hu.lateSource hz) hy

theorem slotDead {c : CtxRef} {p : Nat} {x : XSlot} (h : Undisturbed z s) (hz : z.NoContext) :
    Undisturbed z (s.slotDead c p x) :=
  have ended := h.setXch
  ite (ended.noteDead.unmute.recheckLate hz) (ite (ended.tellDead.faultEvent hz) ended.tellDead)

theorem endSlots {p : Nat} (h : Undisturbed z s) (hz : z.NoContext) : Undisturbed z (s.endSlots p) := by
  unfold State.endSlots
  split
  · exact h
  · exact h.forAll fun _ _ hy => hy.slotDead hz

/-- Only a running context sends an ARRIVE. -/
theorem thsTry {c : CtxRef} (h : Undisturbed z s) (hz : z.NoContext) : Undisturbed z (s.thsTry c) := by
  have unchanged : s.thsTry c = s := by simp [State.thsTry, h.noContext hz c]
  rwa [unchanged]

end Undisturbed

end Sys2Proof.Machine

/-! ### Every port DOWN by CONFIG (R372) -/

namespace Sys2Proof.Machine

/-- What follows the change of the link when a port goes DOWN. -/
def State.afterDown (s : State) (x : Port) (p : Nat) : State :=
  let s := ((s.linkEvent p evUlkDown).endSlots p).htPortDown p
  let s := if x.isUp && (p = 14 || p = 15) && !(s.port 14).isUp && !(s.port 15).isUp then s.pairLost else s
  forAll allCtx (fun s c => s.thsTry c) s

theorem State.portDown_of_down {s : State} {p : Nat} (h : (s.port p).link.st = .down) (cause : Nat) :
    s.portDown p cause = s := if_pos h

theorem State.portDown_of_not_down {s : State} {p : Nat} (h : (s.port p).link.st ≠ .down) (cause : Nat) :
    s.portDown p cause = (s.setPort p ((s.port p).downed cause s.now)).afterDown (s.port p) p := if_neg h

theorem Undisturbed.afterDown {z s : State} {x : Port} {p : Nat} (h : Undisturbed z s) (hz : z.NoContext) :
    Undisturbed z (s.afterDown x p) :=
  have left := (h.linkEvent.endSlots hz).htPortDown
  forAll (ite left.pairLost left) fun _ _ hy => hy.thsTry hz

theorem Undisturbed.portDown {z s : State} {p cause : Nat} (h : Undisturbed z s) (hz : z.NoContext) :
    Undisturbed z (s.portDown p cause) := by
  by_cases hd : (s.port p).link.st = .down
  · rwa [State.portDown_of_down hd]
  · rw [State.portDown_of_not_down hd]
    exact (h.setPort fun _ => rfl).afterDown hz

theorem State.portDown_st {s : State} (hs : s.NoContext) (p cause : Nat) :
    ((s.portDown p cause).port p).link.st = .down := by
  by_cases hd : (s.port p).link.st = .down
  · rwa [State.portDown_of_down hd]
  · rw [State.portDown_of_not_down hd]
    have set := (Undisturbed.refl s).setPort (p := p) (x := (s.port p).downed cause s.now) fun _ => rfl
    refine ((Undisturbed.refl _).afterDown (set.noContext hs)).down p ?_
    rw [State.setPort_port, if_pos rfl]
    rfl

/-- A port taken DOWN for a configuration, whatever its cause was. -/
def State.portConfigDown (s : State) (p : Nat) : State :=
  let s := s.portDown p downConfig
  s.setPortLink p { (s.port p).link with cause := BitVec.ofNat 4 downConfig }

theorem State.configDown_eq (s : State) : s.configDown = forAll (List.range 16) State.portConfigDown s := rfl

theorem Undisturbed.portConfigDown {z s : State} {p : Nat} (h : Undisturbed z s) (hz : z.NoContext) :
    Undisturbed z (s.portConfigDown p) := (h.portDown hz).setPort id

theorem State.portConfigDown_st {s : State} (hs : s.NoContext) (p : Nat) :
    ((s.portConfigDown p).port p).link.st = .down := by
  rw [State.portConfigDown, State.setPortLink, State.setPort_port, if_pos rfl]
  exact State.portDown_st hs p downConfig

theorem Undisturbed.configDown {z s : State} (h : Undisturbed z s) (hz : z.NoContext) : Undisturbed z s.configDown :=
  h.forAll fun _ _ hy => hy.portConfigDown hz

/-- A port once taken DOWN stays so while the others follow. -/
theorem forAll_portConfigDown_st {ps : List Nat} {s : State} (hs : s.NoContext) {p : Nat} (hp : p ∈ ps) :
    ((forAll ps State.portConfigDown s).port p).link.st = .down := by
  induction ps generalizing s with
  | nil => cases hp
  | cons q qs ih =>
    have first := (Undisturbed.refl s).portConfigDown (p := q) hs
    have hq := first.noContext hs
    obtain rfl | hp := List.mem_cons.mp hp
    · exact ((Undisturbed.refl _).forAll fun _ _ hy => hy.portConfigDown hq).down p (State.portConfigDown_st hs p)
    · exact ih hq hp

theorem State.configDown_st {s : State} (hs : s.NoContext) {p : Nat} (hp : p < 16) :
    (s.configDown.port p).link.st = .down := by
  rw [State.configDown_eq]
  exact forAll_portConfigDown_st hs (List.mem_range.mpr hp)

end Sys2Proof.Machine

/-! ### The start of an L3 (R372) -/

namespace Sys2Proof.Machine

/-- A table mapped by a function that keeps the default is mapped entry by entry. -/
theorem sget_map {α : Type} {d : α} {g : α → α} (hd : g d = d) (m : Sparse α) (k : Nat) :
    sget d (m.map fun e => (e.1, g e.2)) k = g (sget d m k) := by
  induction m with
  | nil => exact hd.symm
  | cons e m ih =>
    simp only [List.map_cons, sget, ih]
    split_ifs
    · rfl
    · exact hd.symm
    · rfl

/-- A slot whose context is gone: only its epoch is left. -/
def Ctx.destroyed (x : Ctx) : Ctx := { epoch := x.epoch }

/-- Every context destroyed, and nothing left in flight. -/
def State.destroyed (s : State) : State :=
  { s with ctxs := s.ctxs.map (fun e => (e.1, e.2.destroyed)), wins := [], flights := [], lanes := [], freqs := [] }

theorem State.destroyed_ctx (s : State) (c : CtxRef) : s.destroyed.ctx c = (s.ctx c).destroyed :=
  sget_map (g := Ctx.destroyed) rfl s.ctxs (ctxKey c)

theorem State.destroyed_noContext (s : State) : s.destroyed.NoContext := fun c => by
  rw [State.destroyed_ctx]
  rfl

/-- The module as an L3 begins, before its control cores stop. -/
def State.lost (s : State) (keep : List RingRef) : State := (s.dropCmds keep).liftAll.destroyed.configDown

/-- The control cores stopped with their commands in progress, and a reset of the module begun. -/
def State.held (s : State) (q : Reset) : State :=
  { s with plat := { s.plat with running := false, change := none, cfgBy := none, fwBy := none },
           ht := { s.ht with sets := [] }, resets := [q] }

theorem State.startL3_eq (s : State) (owner : Option RingRef) (late : List RingRef) (lcs : Option (BitVec 2)) (perst : Bool) :
    s.startL3 owner late lcs perst = (s.lost (owner.toList ++ late)).held
      { level := 3, target := 0, part := 0, start := (s.lost (owner.toList ++ late)).now, owner := owner, late := late,
        lcs := lcs, perst := perst } := by
  simp only [State.startL3, State.lost, State.destroyed, Ctx.destroyed, State.held]

theorem State.lost_undisturbed (s : State) (keep : List RingRef) :
    Undisturbed (s.dropCmds keep).liftAll.destroyed (s.lost keep) :=
  (Undisturbed.refl _).configDown (State.destroyed_noContext _)

theorem State.lost_now (s : State) (keep : List RingRef) : (s.lost keep).ht.now = s.ht.now :=
  (s.lost_undisturbed keep).now.trans (Undisturbed.refl s).dropCmds.liftAll.now

theorem State.lost_pf (s : State) (keep : List RingRef) : (s.lost keep).plat.pf = s.plat.pf :=
  (s.lost_undisturbed keep).pf.trans (Undisturbed.refl s).dropCmds.liftAll.pf

theorem State.lost_ctx (s : State) (keep : List RingRef) (c : CtxRef) : (s.lost keep).ctx c = (s.ctx c).destroyed := by
  have before := ((Undisturbed.refl s).dropCmds (keep := keep)).liftAll
  have destroyed := State.destroyed_ctx (s.dropCmds keep).liftAll c
  unfold State.ctx at destroyed ⊢
  rw [(s.lost_undisturbed keep).ctxs, destroyed, before.ctxs]

theorem State.lost_st (s : State) (keep : List RingRef) {p : Nat} (hp : p < 16) :
    ((s.lost keep).port p).link.st = .down := by
  rw [State.lost]
  exact State.configDown_st (State.destroyed_noContext _) hp

/-- What an L3 has done as it begins in a state: its contexts, what it had in flight, its ports, cores and
commands in progress are gone, and the L3 is the one reset in progress. -/
structure L3Begun (s t : State) : Prop where
  pf      : t.plat.pf = s.plat.pf
  running : t.plat.running = false
  reset   : ∃ q, t.resets = [q] ∧ q.level = 3 ∧ q.start = s.ht.now.toNat
  ctx     : ∀ c, t.ctx c = (s.ctx c).destroyed
  wins    : t.wins = []
  flights : t.flights = []
  lanes   : t.lanes = []
  freqs   : t.freqs = []
  down    : ∀ p, p < 16 → (t.port p).link.st = .down
  cfgBy   : t.plat.cfgBy = none
  fwBy    : t.plat.fwBy = none

theorem State.startL3_begins (s : State) (owner : Option RingRef) (late : List RingRef) (lcs : Option (BitVec 2))
    (perst : Bool) : L3Begun s (s.startL3 owner late lcs perst) := by
  have now := s.lost_now (owner.toList ++ late)
  have pf := s.lost_pf (owner.toList ++ late)
  have ctx := s.lost_ctx (owner.toList ++ late)
  have down := fun p => s.lost_st (owner.toList ++ late) (p := p)
  obtain ⟨-, wins, flights, lanes, freqs, -, -, -⟩ := s.lost_undisturbed (owner.toList ++ late)
  rw [State.startL3_eq]
  generalize s.lost (owner.toList ++ late) = t at *
  exact {
    pf      := pf
    running := rfl
    reset   := ⟨_, rfl, rfl, congrArg BitVec.toNat now⟩
    ctx     := ctx
    wins    := wins
    flights := flights
    lanes   := lanes
    freqs   := freqs
    down    := down
    cfgBy   := rfl
    fwBy    := rfl }

/-! ### The rising edge of PF# (R386, R387) -/

/-- The module with PF# high again. -/
def State.pfHigh (s : State) : State := { s with plat := { s.plat with pf := true } }

/-- The state in which the L3 of a rising edge begins: a page that waits is programmed, and in STANDBY the
control domains run again and have logged the edge latched. -/
def State.pfRisen (s : State) : State :=
  let s := s.pfHigh.progIfDue
  if s.asleep then ({ s with plat := { s.plat with pstate := .active, idleAt := s.now } } : State).logPowerFail else s

theorem execPfRise_low {s : State} (hpow : s.plat.powered = true) (hpf : s.plat.pf = false) :
    execPfRise s = .next (s.pfRisen.startL3 none [] none false) :=
  when_true (by rw [hpow, hpf]; rfl) s _

theorem State.pfRisen_undisturbed (s : State) : Undisturbed s.pfHigh s.pfRisen :=
  have programmed := (Undisturbed.refl s.pfHigh).progIfDue
  .ite (Undisturbed.logPowerFail (programmed.upd rfl rfl)) programmed

end Sys2Proof.Machine

namespace Sys2Proof.Claims

open Sys2Proof.Machine

/-- Settles O52: the edge runs an L3's start, and what comes before that start leaves the contexts and the time. -/
theorem pfRiseBeginsL3 : Obligations.PfRiseBeginsL3 := by
  intro s hpow hpf
  have risen := s.pfRisen_undisturbed
  have begun := s.pfRisen.startL3_begins none [] none false
  obtain ⟨q, hresets, hlevel, hstart⟩ := begun.reset
  have atEdge : q.start = s.ht.now.toNat := hstart.trans (congrArg BitVec.toNat risen.now)
  have epochs : ∀ c ∈ allCtx, (s.pfRisen.startL3 none [] none false).ctx c = { epoch := (s.ctx c).epoch } := by
    intro c _
    have same : s.pfRisen.ctx c = s.ctx c := by
      unfold State.ctx
      rw [risen.ctxs]
      rfl
    rw [begun.ctx, same, Ctx.destroyed]
  rw [exec_pfRise, execPfRise_low hpow hpf]
  exact ⟨_, rfl, begun.pf.trans risen.pf, begun.running, ⟨q, hresets, hlevel, atEdge⟩, epochs, begun.wins, begun.flights,
    begun.lanes, begun.freqs, begun.down, begun.cfgBy, begun.fwBy⟩

end Sys2Proof.Claims
